-- ==== Sys2Proof/Word.lean ====
section
/-! DEFINITION. The word types of the PL-1840's interfaces (spec 00, "Conventions"). -/

namespace Sys2Proof

/-- A byte of PC memory, of a packet or of a console frame. -/
abbrev Byte := BitVec 8

/-- A 32-bit data word, register value or marker. -/
abbrev Word32 := BitVec 32

/-- A 64-bit PC memory address, board address or host reference. -/
abbrev Word64 := BitVec 64

/-- A time base count: 48 bits of 10 ns ticks, modulo 2^48 (R1). -/
abbrev Tick := BitVec 48

/-- A set of logical stations, station n as bit n (spec 00, "Station mask"). -/
abbrev Mask8 := BitVec 8

/-- A logical station, 0 to 7. -/
abbrev StationNo := Fin 8

/-- A fixture connector, 0 to 7. -/
abbrev ConnectorNo := Fin 8

/-- A bench trigger line, BT0 to BT3. -/
abbrev LineNo := Fin 4

end Sys2Proof
end

