-- ==== Sys2Proof/Config.lean ====
section
/-! DEFINITION. What the spec fixes for every PL-1840: sizes, limits and the lengths of its fixed
intervals in ticks of 10 ns. The part leaves no value to an implementation, so there is no opaque
constant here. -/

namespace Sys2Proof.Config

/-- One microsecond in ticks (R1: a tick is 10 ns). -/
abbrev ticksPerUs : Nat := 100
/-- One millisecond in ticks. -/
abbrev ticksPerMs : Nat := 100000
/-- The unit of the response timeout field, 10 µs, in ticks (R67). -/
abbrev ticksPer10us : Nat := 1000
/-- The unit of a reset pulse width, 100 µs, in ticks (R109). -/
abbrev ticksPer100us : Nat := 10000

/-- Capacity of a staging queue (R142). -/
abbrev stagingSize : Nat := 8192
/-- Bytes an admission leaves free (R143). -/
abbrev stagingReserve : Nat := 24
/-- Free space at which a station in LOSS recovers (R145). -/
abbrev recoveryFree : Nat := 4096
/-- Staging occupancy from which page draining has priority (R162). -/
abbrev pressureBytes : Nat := 6144
/-- Greatest delta (R22). -/
abbrev maxDelta : Nat := 65535
/-- Greatest value of a health counter (R59). -/
abbrev maxHealth : Nat := 65535
/-- Greatest value of a 32-bit counter: lost records and bytes, result value, page serial
(R10, R178, R149). -/
abbrev max32 : Nat := 4294967295
/-- Data area of a page (Chapter 9). -/
abbrev pageData : Nat := 4064
/-- Bytes of a page header. -/
abbrev pageHeader : Nat := 32
/-- Longest access of PC memory (R160). -/
abbrev maxAccess : Nat := 256
/-- Bytes of a packet the receive decoder stores (R46). -/
abbrev packetStore : Nat := 1031
/-- Entries of the outstanding request table (R65). -/
abbrev maxEntries : Nat := 4
/-- Retired tags (R65). -/
abbrev maxRetired : Nat := 8
/-- Jobs in a station's queue (R177). -/
abbrev maxQueue : Nat := 4

/-- PRESENT settle time, 20 ms (R99). -/
abbrev settleTicks : Nat := 20 * ticksPerMs
/-- UNPARK wake interval, 1 ms (R34). -/
abbrev wakeTicks : Nat := ticksPerMs
/-- Host-memory read timeout, 50 ms (R163). -/
abbrev readTimeoutTicks : Nat := 50 * ticksPerMs

/-- Descriptor signature (Table 12-3). -/
abbrev signature : Nat := 0x38314C50

end Sys2Proof.Config
end

