-- ==== Sys2Proof/Syntax.lean ====
section
/-! DEFINITION. The commands of the PL-1840: one constructor of `Instr` per row of
spec/opcode_table.json, in the table's order. What arrives at a fixture connector (its power inputs, its
link, its console RX line) names the connector; a timer's or a transmitter's end names the logical
station (R41, log 25). -/

namespace Sys2Proof

/-- The job fields every slot carries (Table 12-4): station mask, NOTIFY, host reference. -/
structure JobHeader where
  mask : Mask8
  notify : Bool
  hostRef : Word64
deriving DecidableEq, Repr

/-- The registers whose write has no behaviour of its own (Table 10-2). -/
inductive PlainReg where
  | status | areaBaseLow | areaBaseHigh | faultAddressLow | faultAddressHigh
deriving DecidableEq, Repr

/-- A command of the block. `id` operands name an access of PC memory by its issue number (log 4).
Rows of an immediate or device job are the arrival of a slot that holds the job (log 5). -/
inductive Instr where
  -- resets and the register window
  /-- RESET pin; `lines` are the levels of BT0 to BT3 as they then stand (R131). -/
  | powerOnReset (lines : BitVec 4)
  /-- CONTROL write of `v` with SOFT RESET 1. -/
  | softReset (v : Word32) (lines : BitVec 4)
  /-- CONTROL write of `v` that sets the attention mask. -/
  | attentionMaskWrite (v : Word32)
  /-- CONTROL write of `v` with RUN 1. -/
  | start (v : Word32)
  /-- CONTROL write of `v` with RUN 0. -/
  | halt (v : Word32)
  /-- CONTROL write of `v` with RUN 1 and RESUME 1. -/
  | resume (v : Word32)
  | wake (v : Word32)
  | attentionClear (v : Word32)
  | registerWrite (r : PlainReg) (v : Word32)
  -- host-memory port
  | descriptorReadDone (id : Nat) (data : List Byte)
  | accessGrant
  | errorCompletion (id : Nat)
  | readTimeout (id : Nat)
  -- sweeps
  | sweepTimerExpiry
  | slotStateReadDone (id : Nat) (data : List Byte)
  | slotReadDone (id : Nat) (data : List Byte)
  -- immediate jobs
  | enable (id : Nat) (h : JobHeader)
  | abandon (id : Nat) (h : JobHeader)
  | status (id : Nat) (h : JobHeader) (buf : Word64)
  | mark (id : Nat) (h : JobHeader) (value : Word32)
  | captureStop (id : Nat) (h : JobHeader) (post : BitVec 16)
  | disarm (id : Nat) (h : JobHeader)
  | flush (id : Nat) (h : JobHeader)
  -- queued jobs at the head
  | configure (n : StationNo)
  | profileReadDone (id : Nat) (data : List Byte)
  | park (n : StationNo)
  | unpark (n : StationNo)
  | wakeIntervalEnd (n : StationNo)
  | quiesce (n : StationNo)
  | powerOn (n : StationNo)
  | powerOff (n : StationNo)
  | setMode (n : StationNo)
  | resetPulse (n : StationNo)
  | resetHold (n : StationNo)
  | resetRelease (n : StationNo)
  | read (n : StationNo)
  | writeInline (n : StationNo)
  | writeBuffer (n : StationNo)
  | writeDataReadDone (id : Nat) (data : List Byte)
  | blockRead (n : StationNo)
  | boardControl (n : StationNo)
  | ping (n : StationNo)
  | consoleSend (n : StationNo)
  | arm (n : StationNo)
  | programReadDone (id : Nat) (data : List Byte)
  | captureStartImmediate (n : StationNo)
  | captureStartTriggered (n : StationNo)
  -- device jobs and the time base
  | timeLoadImmediate (id : Nat) (h : JobHeader) (preset : Word64)
  | timeLoadOnSync (id : Nat) (h : JobHeader) (preset : Word64)
  | stationMap (id : Nat) (h : JobHeader) (connectors : List Byte)
  | syncEdge
  -- board debug link
  | signalAcquired (c : ConnectorNo)
  | signalLost (c : ConnectorNo)
  | startDelimiter (c : ConnectorNo)
  | endDelimiterInIdle (c : ConnectorNo)
  | packetDiscard (c : ConnectorNo)
  | tracePacket (c : ConnectorNo)
  | progressPacket (c : ConnectorNo)
  | responsePacket (c : ConnectorNo)
  | noticePacket (c : ConnectorNo)
  | healthIntervalExpiry (n : StationNo)
  | transmitDone (n : StationNo)
  -- access unit
  | responseTimeoutExpiry (n : StationNo) (tag : Fin 64)
  | retireExpiry (n : StationNo) (tag : Fin 64)
  -- console
  /-- The stop bit sample: `data` is the byte the eight data samples form, `stop` the stop bit. -/
  | consoleByte (c : ConnectorNo) (data : Byte) (stop : Bool)
  | rxRise (c : ConnectorNo)
  | breakDetected (c : ConnectorNo)
  | idleCloseExpiry (n : StationNo)
  | consoleByteSent (n : StationNo)
  -- power and reset
  /-- The raw PRESENT input changes to `level`; `straps` is what ID0 to ID2 then read. -/
  | presentInputChange (c : ConnectorNo) (level : Bool) (straps : BitVec 3)
  | presentSettleExpiry (c : ConnectorNo)
  | pwrGoodRise (c : ConnectorNo)
  | pwrGoodFall (c : ConnectorNo)
  | overloadRise (c : ConnectorNo)
  | overloadFall (c : ConnectorNo)
  | inrushWindowClose (n : StationNo)
  | overloadFilterExpiry (n : StationNo)
  | autoSettleExpiry (n : StationNo)
  | rampTimerExpiry (n : StationNo)
  | cooldownExpiry (n : StationNo)
  | resetDelayExpiry (n : StationNo)
  | resetPulseExpiry (n : StationNo)
  -- sequencer and bench lines
  | stepTimerExpiry (n : StationNo)
  | benchLineRise (l : LineNo)
  | benchLineFall (l : LineNo)
  | driveEnd (n : StationNo) (l : LineNo)
  -- pages
  | pageAcquisition
  | entryReadDone (id : Nat) (data : List Byte)
  | drainStep (n : StationNo)
  | idleFlushExpiry (n : StationNo)
  -- link and console items
  | bdlDataByte (c : ConnectorNo) (b : Byte)
  | consoleStartEdge (c : ConnectorNo)
  /-- The start bit sample; `high` is the level read. -/
  | startBitSample (c : ConnectorNo) (high : Bool)
deriving DecidableEq, Repr

end Sys2Proof
end

