-- ==== Sys2Proof/Decode.lean ====
section
/-! DEFINITION. The commands a word spells: no row of spec/opcode_table.json gives bits, so no word
spells one. -/

namespace Sys2Proof

/-- The command a word spells by the table's bits: none, the table giving none. -/
def decodeTableWord (_nbits _w : Nat) : Option Instr := none

end Sys2Proof
end

