-- ==== Sys2Proof/Machine/State.lean ====
section
/-! DEFINITION. The state of the PL-1840 as plain data, the outcomes' reasons, and the state after
power-on reset. INVENTORY.md '## State' lists every field with the rule that names it. -/

namespace Sys2Proof.Machine

/-! ## Outcomes -/

/-- No command of the block stops the machine: a host-memory fault (R163) is the run state FAULTED,
which is a state like any other. So there is no fault. -/
inductive Fault where
deriving DecidableEq, Repr

/-- The reasons a command has no meaning. -/
inductive Refusal where
  /-- Raised by `exec` alone, for a row of the table that has no meaning yet. Safe: the model stops. -/
  | notModelled (mnemonic : String)
deriving DecidableEq, Repr

/-! ## Records (Chapter 1) -/

/-- The four header flags (R7, Table 1-3). -/
structure RecFlags where
  history : Bool
  truncated : Bool
  corrected : Bool
  sourceError : Bool
deriving DecidableEq, Repr

/-- Reasons an ANCHOR is placed, which are also the invalidation reasons of R (R9, R21). -/
inductive AnchorReason where
  | enterRecording | timeLoad | deltaOverflow | enable
deriving DecidableEq, Repr

/-- Origin of a MARK (R11): a job, or the step whose action offered it. -/
inductive MarkOrigin where
  | job | step (i : Fin 4)
deriving DecidableEq, Repr

/-- Target of a firing (Table 7-3): a step or DONE. -/
inductive Target where
  | step (i : Fin 4) | done
deriving DecidableEq, Repr

/-- Cause of a firing (R12). -/
inductive Cause where
  | onMatch | onTimeout
deriving DecidableEq, Repr

/-- The eleven power events (Table 6-2). -/
inductive PowerEv where
  | seated | rampStart | powerGood | resetReleased | resetAsserted | off | removed
  | faultLatched | rampFault | overloadFault | powerLostFault
deriving DecidableEq, Repr

/-- Power states (Table 6-1). -/
inductive PowerState where
  | inactive | absent | seated | ramping | on | cooldown
deriving DecidableEq, Repr

/-- Fault kinds (R17, R97). -/
inductive FaultKind where
  | none | ramp | overload | powerLost
deriving DecidableEq, Repr

/-- Request kinds of the access unit (Table 4-1). -/
inductive AccessOp where
  | read | write | control | ping
deriving DecidableEq, Repr

/-- Subcodes of BOARD ERROR (Table 4-2). -/
inductive Subcode where
  | addressFault | busy | unsupported | length
deriving DecidableEq, Repr

/-- Outcome of an outstanding entry (R18, R68, R70, R82). -/
inductive AccessOutcome where
  | ok | timeout | boardError (sub : Subcode) | linkDown
deriving DecidableEq, Repr

/-- Condition kinds (Table 7-3). -/
inductive CondKind where
  | progress | pattern | trace | notice | power | benchLine | accessError | elapsed
deriving DecidableEq, Repr

/-- Console flags of a line (R16, Table 5-3). -/
structure LineFlags where
  split : Bool
  idleClosed : Bool
  cut : Bool
  framing : Bool
  brk : Bool
deriving DecidableEq, Repr

/-- The health accumulator: eight error flags (bit order of Chapter 12: FRAMING, CORRECTED,
UNCORRECTABLE, LENGTH, CRC, UNKNOWN KIND, LATE, UNMATCHED) and five counters (R59). -/
structure Health where
  flags : BitVec 8
  corrected : Nat
  discarded : Nat
  filtered : Nat
  late : Nat
  unmatched : Nat
deriving DecidableEq, Repr

/-- Payloads of the record kinds (R9 to R19). -/
inductive Payload where
  | anchor (unit shift : Nat) (reason : AnchorReason)
  | gap (records bytes firstUnit : Nat)
  | mark (value : Word32) (origin : MarkOrigin) (hostRef : Word64)
  | trigger (fromStep : Fin 4) (target : Target) (cause : Cause) (kind : CondKind)
      (requested done : BitVec 8) (alreadyRecording controlOverrun : Bool)
  | linkTrace (channel : BitVec 3) (origLen : Nat) (bytes : List Byte)
  | progress (width : Nat) (value : Word32)
  | notice (code : Byte) (bytes : List Byte)
  | linkHealth (h : Health)
  | consoleLine (flags : LineFlags) (offset : Nat) (bytes : List Byte)
  | powerEvent (ev : PowerEv) (after : PowerState) (cls : BitVec 3) (fault : FaultKind)
      (retry : Nat)
  | access (tag : Fin 64) (op : AccessOp) (outcome : AccessOutcome) (trigger : Bool)
      (count : Nat) (hostRef addr : Word64) (words : List Word32)
  | fill (len : Nat)
deriving DecidableEq, Repr

/-- A source record as offered and as held in the history window: payload, flags, entry time and,
for a CONSOLE LINE, the stored time of its first byte (R2, R16). -/
structure SrcRec where
  payload : Payload
  flags : RecFlags
  entry : Tick
  first : Option Tick
deriving DecidableEq, Repr

/-- An admitted record: delta, sequence number, unit time and the k it was computed with
(R6, R142, R153). -/
structure Staged where
  payload : Payload
  flags : RecFlags
  delta : Nat
  seq : BitVec 16
  unit : Nat
  shift : Nat
deriving DecidableEq, Repr

/-! ## Capture (Chapter 8) -/

/-- Capture states (Table 8-1). -/
inductive CaptureState where
  | stopped | watching | recording | stopping (n : Nat)
deriving DecidableEq, Repr

/-- The reference R of a station (R21). -/
structure Reference where
  value : Nat
  valid : Bool
  reason : AnchorReason
deriving DecidableEq, Repr

/-- The pending loss (R144). -/
structure PendingLoss where
  records : Nat
  bytes : Nat
  firstUnit : Nat
deriving DecidableEq, Repr

/-- CAP of a station. -/
structure Capture where
  state : CaptureState
  history : List SrcRec
  historySize : Nat
  staging : List Staged
  ref : Reference
  seq : BitVec 16
  loss : Bool
  pend : PendingLoss
deriving DecidableEq, Repr

/-! ## Profile and program (Tables 2-3, 7-2, 7-3) -/

/-- Power modes (R107). -/
inductive PowerMode where
  | off | manual | auto
deriving DecidableEq, Repr

/-- The station profile (Table 2-3), each field in its own unit. -/
structure Profile where
  timeShift : Nat
  historySize : Nat
  flushMs : Nat
  channelMask : BitVec 8
  payloadLimit : Nat
  responseTimeout : Nat
  requestWords : Nat
  accessLogging : Bool
  healthMs : Nat
  consoleEnable : Bool
  divisor : Nat
  lineLimit : Nat
  idleCloseMs : Nat
  powerMode : PowerMode
  classMask : BitVec 8
  autoSettleMs : Nat
  rampMs : Nat
  inrushMs : Nat
  overloadUs : Nat
  cooldownMs : Nat
  retryLimit : Nat
  resetDelayMs : Nat
deriving DecidableEq, Repr

/-- A step's condition with its parameters (Table 7-5). -/
inductive StepCond where
  | progress (lo hi : Nat)
  | pattern (p : Nat)
  | trace (channel : Nat) (value mask : Byte)
  | notice (code : Byte)
  | power (ev : PowerEv)
  | benchLine (l : Nat)
  | accessError
  | elapsed
deriving DecidableEq, Repr

/-- A step (Table 7-3). -/
structure Step where
  cond : StepCond
  count : Nat
  next : Target
  matchActs : BitVec 8
  timeoutMs : Nat
  timeoutNext : Target
  timeoutActs : BitVec 8
  line : LineNo
deriving DecidableEq, Repr

/-- One position of a pattern: value and care mask (R92). -/
structure PatPos where
  value : Byte
  care : Byte
deriving DecidableEq, Repr

/-- A sequencer program (Table 7-2). -/
structure Program where
  postCount : Nat
  pulseWidth : Nat
  driveUs : Nat
  marker : Word32
  patterns : List (List PatPos)
  steps : List Step
deriving DecidableEq, Repr

/-- A condition reported to a TS (Table 7-4). -/
inductive Cond where
  | progress (value : Nat)
  | trace (channel : Nat) (first : Option Byte)
  | notice (code : Byte)
  | pattern (p : Nat)
  | power (ev : PowerEv)
  | accessError
  | benchLine (l : Nat)
deriving DecidableEq, Repr

/-- Sequencer states (Table 7-1), with the occurrence counter and the step timer's end in ARMED. -/
inductive SeqState where
  | disarmed
  | armed (step : Fin 4) (count : Nat) (timer : Option Nat)
  | done
deriving DecidableEq, Repr

/-- TS of a station: its state, its program, and the station's drives of the bench lines (R114, R131). -/
structure Sequencer where
  state : SeqState
  program : Option Program
  drives : Vector (Option Nat) 4
deriving DecidableEq, Repr

/-! ## Jobs (Chapter 10) -/

/-- Result codes (Table 10-7). -/
inductive ResultCode where
  | none | ok | badKind | badParameter | state | unavailable | linkDown | timeout | boardError
  | powerFault | abandoned | memory | mixed
deriving DecidableEq, Repr

/-- A job's result at one station, or overall: code, CLAMPED, the subcode or fault kind of the
detail (0 for none), and the result value (R178, Table 12-6). -/
structure Res where
  code : ResultCode
  clamped : Bool
  sub : Nat
  value : Nat
deriving DecidableEq, Repr

/-- The jobs as JSD understands them (Table 12-5), one constructor per job row of the table. -/
inductive Job where
  | enable | abandon | status (buf : Word64) | mark (value : Word32) | captureStop (post : Nat)
  | disarm | flush
  | configure (addr : Word64) | park | unpark | quiesce | powerOn | powerOff
  | setMode (m : PowerMode) | resetPulse (width : Nat) | resetHold | resetRelease
  | read (addr : Word64) (count : Nat) (buf : Word64)
  | writeInline (addr : Word64) (count : Nat) (words : List Word32)
  | writeBuffer (addr : Word64) (count : Nat) (buf : Word64)
  | blockRead (addr : Word64) (count : Nat) (buf : Word64)
  | boardControl (code : Nat) | ping | consoleSend (count : Nat) (bytes : List Byte)
  | arm (addr : Word64) | captureStartImmediate | captureStartTriggered
  | timeLoadImmediate (preset : Word64) | timeLoadOnSync (preset : Word64)
  | stationMap (connectors : List Byte)
deriving DecidableEq, Repr

/-- A request AU may issue (R67): op, board address or control code, words to write, word count,
block offset. -/
structure ReqSpec where
  op : AccessOp
  addr : Word64
  words : List Word32
  count : Nat
  offset : Nat
deriving DecidableEq, Repr

/-- An executing access job: its requests not yet issued in ascending order, how many are in flight,
the first outcome other than OK, the (offset, words) of the requests completed OK, and a PING's
round-trip time (R76 to R81). -/
structure AccessExec where
  reqs : List ReqSpec
  flying : Nat
  fail : Option AccessOutcome
  oks : List (Nat × Nat)
  ticks : Nat
deriving DecidableEq, Repr

/-- How far the job at the head of a queue has got. -/
inductive Head where
  /-- Not yet checked at the head (R27). -/
  | waiting
  /-- CONFIGURE with its profile read outstanding (R30). -/
  | profileRead
  /-- ARM with its program read outstanding, with the parts of the record that have arrived (R115,
  log 9). -/
  | programRead (part0 part1 : Option (List Byte))
  /-- PARK waiting for an empty table and holder (R32). -/
  | parkWait
  /-- UNPARK's wake interval and its end (R34). -/
  | wakeInterval (deadline : Nat)
  /-- QUIESCE in step 3 (R36). -/
  | quiesceDrain
  /-- POWER ON waiting for the ramp's outcome, with the time of RAMP START (R111). -/
  | ramp (startedAt : Nat)
  /-- RESET PULSE waiting for the pulse timer (R113). -/
  | pulse (width : Nat) (clamped : Bool)
  /-- WRITE with source BUFFER, its data read outstanding (R78). -/
  | writeDataRead
  /-- An access job with requests (R76). -/
  | access (a : AccessExec)
  /-- CONSOLE SEND with its byte count and the bytes sent (R95). -/
  | consoleSend (total sent : Nat)
deriving DecidableEq, Repr

/-- A place in a station's job queue (R177): which held job, its host reference, and the job. -/
structure QJob where
  jid : Nat
  hostRef : Word64
  job : Job
deriving DecidableEq, Repr

/-- Progress of a held job's TAKEN write (R176, R178): no TAKEN is written, waiting, or issued. -/
inductive TakenState where
  | notNeeded | waiting | issued
deriving DecidableEq, Repr

/-- A held job (R166). `jid` is the model's own number. `own` is the overall result of a device job,
of a job ended at the read or of an orphaned slot; `formed` the 32 result bytes once formed; the
next three are R170's marks, and `doneIssued` tells that the DONE write has been issued (a job held again
only to have its writes made again). -/
structure HeldJob where
  jid : Nat
  slot : Word64
  kind : Nat
  mask : Mask8
  notify : Bool
  hostRef : Word64
  results : Vector (Option Res) 8
  own : Option Res
  taken : TakenState
  formed : Option (List Byte)
  memFail : Mask8
  writeFail : Bool
  takenFail : Bool
  doneIssued : Bool
deriving DecidableEq, Repr

/-- The area in force (R166). -/
structure Area where
  jobBoard : Word64
  slotCount : Nat
  pageList : Word64
  entryCount : Nat
  sweepUs : Nat
deriving DecidableEq, Repr

/-! ## Host-memory port (Chapter 9) -/

/-- Requester classes (R160). -/
inductive AccessClass where
  | sweep | job | page
deriving DecidableEq, Repr

/-- What an access is for: who its completion goes to, and what its issue brings about. -/
inductive Purpose where
  /-- The descriptor read of a start (R167). -/
  | descriptorRead
  /-- The capability write of a start, with the area it puts in force (R168). -/
  | capability (a : Area)
  /-- The state of slot i (R173). -/
  | slotState (i : Nat)
  /-- A whole slot: its index and address, whether it read TAKEN (R180), and whether the sweep that
  reads it still runs. -/
  | slotWhole (i : Nat) (addr : Word64) (orphan live : Bool)
  /-- The TAKEN write of a held job (R176). -/
  | taken (jid : Nat)
  | profileRead (jid : Nat) (n : StationNo)
  /-- Part 0 or 1 of a program record (log 9). -/
  | programRead (jid : Nat) (n : StationNo) (part : Nat)
  | writeData (jid : Nat) (n : StationNo)
  /-- READ or BLOCK READ data into the job's buffer (R77, R80). -/
  | data (jid : Nat) (n : StationNo)
  /-- A station status record (R39). -/
  | statusRec (jid : Nat) (n : StationNo)
  | result (h : HeldJob)
  | done (h : HeldJob)
  /-- Page list entry i (R151). -/
  | entryRead (i : Nat)
  | filling
  | refused
  /-- A piece of the record in hand; `last` for its last access (R153). -/
  | record (last : Bool)
  /-- FILL or page header write of a seal (R156). -/
  | sealPart
  /-- The FULL entry write of a seal; `detached` for a page ABANDON detached (R38). -/
  | sealFull (detached : Bool)
  /-- An access whose requester no longer waits for it. -/
  | stale
deriving DecidableEq, Repr

/-- An access of PC memory (R160): a read when `data` is none. -/
structure Access where
  cls : AccessClass
  station : Option StationNo
  addr : Word64
  len : Nat
  data : Option (List Byte)
  purpose : Purpose
deriving DecidableEq, Repr

/-- A read issued and not completed. -/
structure InFlight where
  id : Nat
  issuedAt : Nat
  acc : Access
deriving DecidableEq, Repr

/-- A write issued; `failed` once an error completion arrived for it. -/
structure IssuedWrite where
  id : Nat
  acc : Access
  failed : Bool
deriving DecidableEq, Repr

/-- HMP: the accesses waiting in the SWEEP and JOB classes, the accesses issued, the arbiter's
pointers and burst count (R160, R161). -/
structure HostPort where
  sweepQ : List Access
  jobQ : List Access
  inFlight : List InFlight
  writes : List IssuedWrite
  nextId : Nat
  classPtr : AccessClass
  stationPtr : StationNo
  nonPagePtr : AccessClass
  burst : Nat
deriving DecidableEq, Repr

/-- Seal reasons (Table 9-3). -/
inductive SealReason where
  | full | idle | stopped | flush | quiesce | abandon | halt | fault
deriving DecidableEq, Repr

/-- The record of an open page (R149). -/
structure OpenPage where
  index : Nat
  entryAddr : Word64
  addr : Word64
  serial : Nat
  used : Nat
  count : Nat
  firstSeq : BitVec 16
  base : Nat
  shift : Nat
  hasGap : Bool
  hasHistory : Bool
deriving DecidableEq, Repr

/-- A seal mark (R158). -/
structure SealMark where
  count : Nat
  reason : SealReason
deriving DecidableEq, Repr

/-- PGM's state for one station (R149, R152, R156, R38). -/
structure PageState where
  page : Option OpenPage
  idleFlush : Option Nat
  inHand : Option Staged
  sealing : Option SealReason
  mark : Option SealMark
  starved : Bool
  episode : Bool
  detached : Option OpenPage
deriving DecidableEq, Repr

/-- The acquisition in progress (R150, R151). -/
structure Acquisition where
  station : StationNo
  index : Nat
  examined : Nat
deriving DecidableEq, Repr

/-! ## Link port and access unit (Chapters 3, 4) -/

/-- A request handed to LP (R62). -/
structure TxReq where
  tag : Fin 64
  spec : ReqSpec
deriving DecidableEq, Repr

/-- The receive decoder IN PACKET: stored bytes and byte count (R46). -/
structure PacketBuf where
  bytes : List Byte
  count : Nat
deriving DecidableEq, Repr

/-- LP of a station. `packet` none is IDLE; `sending` holds the bytes of the packet in transmission. -/
structure LinkPort where
  rxOn : Bool
  up : Bool
  packet : Option PacketBuf
  health : Health
  quiet : Option Nat
  txList : List TxReq
  sending : Option (List Byte)
deriving DecidableEq, Repr

/-- Owner of an entry (Table 4-1). -/
inductive Owner where
  | job (jid : Nat) (hostRef : Word64)
  | trigger
deriving DecidableEq, Repr

/-- An occupied entry of the outstanding request table (Table 4-1). -/
structure Entry where
  tag : Fin 64
  op : AccessOp
  addr : Word64
  count : Nat
  issuedAt : Nat
  expiry : Nat
  owner : Owner
  offset : Nat
  kept : List Word32
deriving DecidableEq, Repr

/-- A retired tag with its retire expiry (R70). -/
structure RetiredTag where
  tag : Fin 64
  expiry : Nat
deriving DecidableEq, Repr

/-- Board run states (R75). -/
inductive BoardRun where
  | unknown | running | halted
deriving DecidableEq, Repr

/-- AU of a station: occupied entries in issue order, retired tags in joining order (R65). -/
structure AccessUnit where
  entries : List Entry
  retired : List RetiredTag
  holder : Bool
  nextTag : Fin 64
  boardRun : BoardRun
deriving DecidableEq, Repr

/-! ## Console unit (Chapter 5) -/

/-- The console receiver: `starting` is IDLE with a start edge being timed (R84). `edge` is the
start edge on the internal reference and `d` the divisor taken there. -/
inductive ConsoleRx where
  | off
  | idle
  | starting (edge d : Nat)
  | receiving (edge d : Nat)
  | held (edge d : Nat) (byteTime : Tick)
deriving DecidableEq, Repr

/-- A stored byte with its framing mark (R86). -/
structure LineByte where
  val : Byte
  framing : Bool
deriving DecidableEq, Repr

/-- A byte being sent, the divisor its frame began with, and the beginning of the frame (R94). -/
structure TxByte where
  val : Byte
  divisor : Nat
  begins : Nat
deriving DecidableEq, Repr

/-- CU of a station (Table 5-1). -/
structure ConsoleUnit where
  rx : ConsoleRx
  line : List LineByte
  origin : Tick
  idle : Option Nat
  patterns : List (List PatPos)
  sendQ : List Byte
  tx : Option TxByte
deriving DecidableEq, Repr

/-! ## Board power unit (Chapter 6) -/

/-- Reset controller states in ON (Table 6-3). -/
inductive ResetCtl where
  | delay | held | pulse | released
deriving DecidableEq, Repr

/-- A held progress code (R110). -/
structure ProgressCode where
  width : Nat
  value : Word32
deriving DecidableEq, Repr

/-- BPU of a station; a timer is none when stopped, else its end. `inrush` none is a closed window. -/
structure PowerUnit where
  state : PowerState
  cls : BitVec 3
  cooldownFault : FaultKind
  latched : FaultKind
  retry : Nat
  hold : Bool
  ctl : ResetCtl
  held : Option ProgressCode
  autoSettle : Option Nat
  ramp : Option Nat
  inrush : Option Nat
  overload : Option Nat
  cooldown : Option Nat
  delay : Option Nat
  pulse : Option Nat
deriving DecidableEq, Repr

/-! ## Stations and the device -/

/-- Station states (Table 2-1). -/
inductive StationState where
  | off | ready | quiescing | parked
deriving DecidableEq, Repr

/-- A station. -/
structure Station where
  state : StationState
  profile : Option Profile
  queue : List QJob
  head : Head
  lp : LinkPort
  au : AccessUnit
  cu : ConsoleUnit
  bpu : PowerUnit
  ts : Sequencer
  cap : Capture
  pg : PageState
  pageQ : List Access
deriving DecidableEq, Repr

/-- The inputs of a fixture connector and its PRESENT settle filter (R25, R99). -/
structure Connector where
  present : Bool
  settled : Bool
  settle : Option Nat
  pwrGood : Bool
  overload : Bool
  straps : BitVec 3
deriving DecidableEq, Repr

/-- Device run states (Table 10-1). -/
inductive RunState where
  | stopped | running | faulted
deriving DecidableEq, Repr

/-- STATUS start check codes (R164). -/
inductive StartCheck where
  | none | ok | alignment | signature | slotCount | entryCount | region | overlap
deriving DecidableEq, Repr

/-- STATUS fault requester class codes (R164). -/
inductive FaultClass where
  | none | sweep | job | page
deriving DecidableEq, Repr

/-- The start in progress (R167, R168). -/
inductive StartPhase where
  | none | reading | writing
deriving DecidableEq, Repr

/-- The sweep in progress (R173). -/
inductive SweepPhase where
  | idle
  | readingState (i : Nat)
  | readingSlot (i : Nat)
deriving DecidableEq, Repr

/-- JSD's sweeping state (R168, R173, R176). -/
structure Sweep where
  phase : SweepPhase
  first : Bool
  pending : Bool
  blocked : Mask8
  timer : Option Nat
deriving DecidableEq, Repr

/-- The PL-1840. -/
structure State where
  tb : Tick
  elapsed : Nat
  pendingLoad : Option Tick
  run : Bool
  attMask : BitVec 11
  attention : BitVec 11
  runState : RunState
  startCheck : StartCheck
  faultClass : FaultClass
  faultStation : StationNo
  faultAddr : Word64
  areaBaseLow : Word32
  areaBaseHigh : Word32
  start : StartPhase
  halting : Bool
  resuming : Bool
  startFault : Bool
  dealAtStart : Bool
  area : Option Area
  held : List HeldJob
  nextJid : Nat
  sweep : Sweep
  hmp : HostPort
  cursor : Nat
  nextSerial : Nat
  acq : Option Acquisition
  stationMap : Vector ConnectorNo 8
  connectors : Vector Connector 8
  lines : BitVec 4
  stations : Vector Station 8
  pending : List Instr
deriving DecidableEq, Repr

/-! ## Reset values -/

/-- The empty accumulator (Chapter 3, section 3.6). -/
def Health.empty : Health := ⟨0, 0, 0, 0, 0, 0⟩

/-- The profile defaults (Table 2-3). -/
def Profile.default : Profile where
  timeShift := 4
  historySize := 4096
  flushMs := 100
  channelMask := 0xFF
  payloadLimit := 1024
  responseTimeout := 10000
  requestWords := 64
  accessLogging := false
  healthMs := 10
  consoleEnable := true
  divisor := 868
  lineLimit := 256
  idleCloseMs := 20
  powerMode := .manual
  classMask := 0x7F
  autoSettleMs := 500
  rampMs := 200
  inrushMs := 10
  overloadUs := 500
  cooldownMs := 2000
  retryLimit := 3
  resetDelayMs := 50

/-- LP with its receiver off (R43, R46, R61). -/
def LinkPort.reset : LinkPort := ⟨false, false, none, Health.empty, none, [], none⟩

/-- AU of an OFF station (R65). nextTag and boardRun: DESIGN CHOICE, log 32, unsafe. -/
def AccessUnit.reset : AccessUnit := ⟨[], [], false, 0, .unknown⟩

/-- CU after reset (Table 5-1). origin: DESIGN CHOICE, log 32, unsafe. -/
def ConsoleUnit.reset : ConsoleUnit := ⟨.off, [], 0, none, [], [], none⟩

/-- BPU after reset (R97, R40, R110). latched, retry, hold, cooldownFault and ctl: DESIGN CHOICE,
log 32, unsafe. -/
def PowerUnit.reset : PowerUnit where
  state := .inactive
  cls := 7
  cooldownFault := .none
  latched := .none
  retry := 0
  hold := false
  ctl := .held
  held := none
  autoSettle := none
  ramp := none
  inrush := none
  overload := none
  cooldown := none
  delay := none
  pulse := none

/-- TS after reset (R114, R131). -/
def Sequencer.reset : Sequencer := ⟨.disarmed, none, Vector.replicate 4 none⟩

/-- No pending loss (section 8.5: both counts 0). The first lost unit time of an empty pending loss: DESIGN
CHOICE, log 54, unsafe. -/
def PendingLoss.empty : PendingLoss := ⟨0, 0, 0⟩

/-- CAP after reset (R21, R24, R134, R142 to R144). historySize: DESIGN CHOICE, log 32, unsafe; the first
lost unit time of its pending loss likewise, log 54, and the value of R, which is invalid, log 55. -/
def Capture.reset : Capture :=
  ⟨.stopped, [], 0, [], ⟨0, false, .enable⟩, 0, false, PendingLoss.empty⟩

/-- PGM's station state after reset (R149). -/
def PageState.reset : PageState := ⟨none, none, none, none, none, false, false, none⟩

/-- A station after reset: OFF (R25). -/
def Station.reset : Station where
  state := .off
  profile := none
  queue := []
  head := .waiting
  lp := LinkPort.reset
  au := AccessUnit.reset
  cu := ConsoleUnit.reset
  bpu := PowerUnit.reset
  ts := Sequencer.reset
  cap := Capture.reset
  pg := PageState.reset
  pageQ := []

/-- An empty connector. DESIGN CHOICE, log 8, unsafe: the spec gives no input level at reset. -/
def Connector.reset : Connector := ⟨false, false, none, false, false, 7⟩

/-- No sweep (R166, R173). -/
def Sweep.reset : Sweep := ⟨.idle, false, false, 0, none⟩

/-- HMP after reset (R161). -/
def HostPort.reset : HostPort := ⟨[], [], [], [], 0, .page, 7, .job, 0⟩

/-- The machine right after power-on reset, with nothing seated and the bench lines inactive. -/
def State.reset : State where
  tb := 0
  elapsed := 0
  pendingLoad := none
  run := false
  attMask := 0
  attention := 0
  runState := .stopped
  startCheck := .none
  faultClass := .none
  faultStation := 0
  faultAddr := 0
  areaBaseLow := 0
  areaBaseHigh := 0
  start := .none
  halting := false
  resuming := false
  startFault := false
  dealAtStart := false
  area := none
  held := []
  nextJid := 0
  sweep := Sweep.reset
  hmp := HostPort.reset
  cursor := 0
  nextSerial := 1
  acq := none
  stationMap := #v[0, 1, 2, 3, 4, 5, 6, 7]
  connectors := Vector.replicate 8 Connector.reset
  lines := 0
  stations := Vector.replicate 8 Station.reset
  pending := []

end Sys2Proof.Machine
end

