-- ==== Sys2Proof/Machine/Flags.lean ====
section
/-! DEFINITION. The attention bits and ATTN (R181, R182, Table 12-2), and the health accumulator's
flags and counters (R59, section 12.4). -/

namespace Sys2Proof.Machine

/-! ## Attention -/

/-- The eleven attention bits (Table 10-8). -/
inductive Attn where
  | jobDone | pageSealed | pageStarved | loss | trigger | powerFault | linkChange | boardNotice
  | hostMemoryFault | areaInvalid | pageRefused
deriving DecidableEq, Repr

/-- Bit number of an attention bit (Table 12-2). -/
def Attn.num : Attn → Nat
  | .jobDone => 0 | .pageSealed => 1 | .pageStarved => 2 | .loss => 3 | .trigger => 4
  | .powerFault => 5 | .linkChange => 6 | .boardNotice => 7 | .hostMemoryFault => 8
  | .areaInvalid => 9 | .pageRefused => 10

/-- The attention register with only this bit set. -/
def Attn.mask (a : Attn) : BitVec 11 := 1#11 <<< a.num

/-- ATTN is active exactly when some bit is set whose mask bit is set (R182). -/
def State.attnActive (s : State) : Bool := s.attention &&& s.attMask != 0

/-- Set an attention bit of the device; a bit already set stays set (R181). -/
def State.setAttn (s : State) (a : Attn) : State := { s with attention := s.attention ||| a.mask }

/-! ## Health accumulator (R59) -/

/-- One more in a saturating health counter. -/
def healthInc (v : Nat) : Nat := min (v + 1) Config.maxHealth

/-- Set flag bit i. -/
def Health.setFlag (h : Health) (i : Nat) : Health := { h with flags := h.flags ||| (1#8 <<< i) }

/-- FRAMING with no packet discarded (end delimiter in IDLE, R47). -/
def Health.framing (h : Health) : Health := h.setFlag 0

/-- A discarded packet: its flag and the discarded packets counter (R48). -/
def Health.discard (h : Health) (flag : Nat) : Health :=
  { h.setFlag flag with discarded := healthInc h.discarded }

/-- A corrected header (R50). -/
def Health.correct (h : Health) : Health :=
  { h.setFlag 1 with corrected := healthInc h.corrected }

/-- A TRACE packet on a disabled channel (R54). -/
def Health.filter (h : Health) : Health := { h with filtered := healthInc h.filtered }

/-- A late response (R69). -/
def Health.lateResponse (h : Health) : Health := { h.setFlag 6 with late := healthInc h.late }

/-- An unmatched response (R69). -/
def Health.unmatchedResponse (h : Health) : Health :=
  { h.setFlag 7 with unmatched := healthInc h.unmatched }

end Sys2Proof.Machine
end

