-- ==== Sys2Proof/Machine/Bytes.lean ====
section
/-! DEFINITION. Little-endian byte strings (spec 00 "Byte order", R185) and the small list and
number helpers of the layouts. -/

namespace Sys2Proof.Machine

/-- The low `8 * len` bits of `v` as `len` bytes, least significant first. -/
def leBytes : Nat → Nat → List Byte
  | 0, _ => []
  | len + 1, v => BitVec.ofNat 8 v :: leBytes len (v / 256)

/-- The number a byte string holds, least significant byte first. -/
def leNat : List Byte → Nat
  | [] => 0
  | b :: bs => b.toNat + 256 * leNat bs

/-- The field of `len` bytes at byte offset `off` of a structure. -/
def field (d : List Byte) (off len : Nat) : Nat := leNat ((d.drop off).take len)

/-- The byte at offset `off`. -/
def byteAt (d : List Byte) (off : Nat) : Byte := BitVec.ofNat 8 (field d off 1)

/-- `n` zero bytes. -/
def zeros (n : Nat) : List Byte := List.replicate n 0

/-- Words as bytes, each little-endian. -/
def wordBytes (ws : List Word32) : List Byte := ws.flatMap fun w => leBytes 4 w.toNat

/-- `count` consecutive words read from a byte string. -/
def wordsOf (d : List Byte) : Nat → List Word32
  | 0 => []
  | count + 1 => BitVec.ofNat 32 (leNat (d.take 4)) :: wordsOf (d.drop 4) count

/-- A Bool as 0 or 1. -/
def bit (b : Bool) : Nat := if b then 1 else 0

/-- `a + b`, saturating at `top`. -/
def satAdd (top a b : Nat) : Nat := min (a + b) top

/-- `v` clamped to the range `lo` to `hi` (spec 00 "Clamped and refused"). -/
def clamp (lo hi v : Nat) : Nat := max lo (min hi v)

/-- A byte string cut into consecutive pieces of at most 256 bytes (R153, R160), with fuel. -/
def piecesAux : Nat → List Byte → List (List Byte)
  | 0, _ => []
  | fuel + 1, l => if l.isEmpty then [] else l.take 256 :: piecesAux fuel (l.drop 256)

/-- A byte string cut into consecutive pieces of at most 256 bytes. -/
def pieces (l : List Byte) : List (List Byte) := piecesAux l.length l

/-- Each piece with the address it goes to, from `addr` upward. -/
def placed (addr : Word64) : List (List Byte) → List (Word64 × List Byte)
  | [] => []
  | p :: ps => (addr, p) :: placed (addr + BitVec.ofNat 64 p.length) ps

end Sys2Proof.Machine
end

