-- ==== Sys2Proof/Machine/Layout.lean ====
section
/-! DEFINITION. What the device writes: records, page headers, page list entries, result fields,
status records and request packets (Chapter 12; R6 to R19, R49, R52, R62). -/

namespace Sys2Proof.Machine

/-! ## Codes -/

/-- Reason codes of an ANCHOR (Table 12-10). -/
def AnchorReason.code : AnchorReason → Nat
  | .enterRecording => 1 | .timeLoad => 2 | .deltaOverflow => 3 | .enable => 4

/-- A MARK origin, 0xFF for JOB (R185). -/
def MarkOrigin.code : MarkOrigin → Nat
  | .job => 0xFF | .step i => i.val

/-- A step target, 0xFF for DONE (R185). -/
def Target.code : Target → Nat
  | .done => 0xFF | .step i => i.val

/-- Cause codes of a TRIGGER (Table 12-10). -/
def Cause.code : Cause → Nat
  | .onMatch => 1 | .onTimeout => 2

/-- Condition kind codes (section 12.4). -/
def CondKind.code : CondKind → Nat
  | .progress => 1 | .pattern => 2 | .trace => 3 | .notice => 4 | .power => 5 | .benchLine => 6
  | .accessError => 7 | .elapsed => 8

/-- Power event codes (section 12.4). -/
def PowerEv.code : PowerEv → Nat
  | .seated => 1 | .rampStart => 2 | .powerGood => 3 | .resetReleased => 4 | .resetAsserted => 5
  | .off => 6 | .removed => 7 | .faultLatched => 8 | .rampFault => 9 | .overloadFault => 10
  | .powerLostFault => 11

/-- Power state codes (Table 12-12). -/
def PowerState.code : PowerState → Nat
  | .inactive => 0 | .absent => 1 | .seated => 2 | .ramping => 3 | .on => 4 | .cooldown => 5

/-- Fault kind codes (section 12.3). -/
def FaultKind.code : FaultKind → Nat
  | .none => 0 | .ramp => 1 | .overload => 2 | .powerLost => 3

/-- Subcode codes (section 12.3). -/
def Subcode.code : Subcode → Nat
  | .addressFault => 1 | .busy => 2 | .unsupported => 3 | .length => 4

/-- Result codes (Table 12-6). -/
def ResultCode.code : ResultCode → Nat
  | .none => 0 | .ok => 1 | .badKind => 2 | .badParameter => 3 | .state => 4 | .unavailable => 5
  | .linkDown => 6 | .timeout => 7 | .boardError => 8 | .powerFault => 9 | .abandoned => 10
  | .memory => 11 | .mixed => 12

/-- The result code of an access outcome (R18, R77). -/
def AccessOutcome.result : AccessOutcome → ResultCode
  | .ok => .ok | .timeout => .timeout | .boardError _ => .boardError | .linkDown => .linkDown

/-- The subcode of an access outcome, 0 for none. -/
def AccessOutcome.sub : AccessOutcome → Nat
  | .boardError c => c.code
  | .ok | .timeout | .linkDown => 0

/-- Access op codes (Table 12-10). -/
def AccessOp.code : AccessOp → Nat
  | .read => 1 | .write => 2 | .control => 3 | .ping => 4

/-- Seal reason codes (Table 12-8). -/
def SealReason.code : SealReason → Nat
  | .full => 1 | .idle => 2 | .stopped => 3 | .flush => 4 | .quiesce => 5 | .abandon => 6
  | .halt => 7 | .fault => 8

/-- Power mode codes (Table 12-12). -/
def PowerMode.code : PowerMode → Nat
  | .off => 0 | .manual => 1 | .auto => 2

/-- Station state codes (Table 12-12). -/
def StationState.code : StationState → Nat
  | .off => 0 | .ready => 1 | .quiescing => 2 | .parked => 3

/-- Board run state codes (Table 12-12). -/
def BoardRun.code : BoardRun → Nat
  | .unknown => 0 | .running => 1 | .halted => 2

/-- Capture state codes (Table 12-12). -/
def CaptureState.code : CaptureState → Nat
  | .stopped => 0 | .watching => 1 | .recording => 2 | .stopping _ => 3

/-- The remaining post count, 0 outside STOPPING (R40). -/
def CaptureState.remaining : CaptureState → Nat
  | .stopping n => n
  | .stopped | .watching | .recording => 0

/-- Sequencer state codes (Table 12-12). -/
def SeqState.code : SeqState → Nat
  | .disarmed => 0 | .armed _ _ _ => 1 | .done => 2

/-- The current step, 0 outside ARMED (R40). -/
def SeqState.step : SeqState → Nat
  | .armed i _ _ => i.val
  | .disarmed | .done => 0

/-! ## Records -/

/-- Record kind codes (Table 12-9). -/
def Payload.kindCode : Payload → Nat
  | .anchor .. => 1 | .gap .. => 2 | .mark .. => 3 | .trigger .. => 4 | .linkTrace .. => 5
  | .progress .. => 6 | .notice .. => 7 | .linkHealth .. => 8 | .consoleLine .. => 9
  | .powerEvent .. => 10 | .access .. => 11 | .fill .. => 12

/-- Payload length L of a record (R9 to R19, Table 1-2). -/
def Payload.len : Payload → Nat
  | .anchor .. => 8
  | .gap .. => 16
  | .mark .. => 16
  | .trigger .. => 8
  | .linkTrace _ _ bs => 4 + bs.length
  | .progress .. => 5
  | .notice _ bs => 1 + bs.length
  | .linkHealth _ => 12
  | .consoleLine _ _ bs => 4 + bs.length
  | .powerEvent .. => 8
  | .access _ _ _ _ _ _ _ ws => 24 + 4 * ws.length
  | .fill len => len

/-- Padded size 8 + 8 × ceil(L / 8) (R8). -/
def paddedSize (len : Nat) : Nat := 8 + 8 * ((len + 7) / 8)

/-- Padded size of a record with this payload. -/
def Payload.size (p : Payload) : Nat := paddedSize p.len

/-- Padded size of an offered record. -/
def SrcRec.size (r : SrcRec) : Nat := r.payload.size

/-- Padded size of an admitted record. -/
def Staged.size (r : Staged) : Nat := r.payload.size

/-- Console flag byte (Table 12-10). -/
def LineFlags.code (f : LineFlags) : Nat :=
  bit f.split + 2 * bit f.idleClosed + 4 * bit f.cut + 8 * bit f.framing + 16 * bit f.brk

/-- Header flag byte (Table 12-9). -/
def RecFlags.code (f : RecFlags) : Nat :=
  bit f.history + 2 * bit f.truncated + 4 * bit f.corrected + 8 * bit f.sourceError

/-- The five counters of the accumulator in the order of LINK HEALTH (Table 12-10). -/
def Health.counters (h : Health) : List Byte :=
  leBytes 2 h.corrected ++ leBytes 2 h.discarded ++ leBytes 2 h.filtered ++ leBytes 2 h.late
    ++ leBytes 2 h.unmatched

/-- Payload bytes (Table 12-10). -/
def Payload.bytes : Payload → List Byte
  | .anchor u k r => leBytes 6 u ++ leBytes 1 k ++ leBytes 1 r.code
  | .gap n b u => leBytes 4 n ++ leBytes 4 b ++ leBytes 8 u
  | .mark v o h => leBytes 4 v.toNat ++ leBytes 1 o.code ++ zeros 3 ++ leBytes 8 h.toNat
  | .trigger f t c k rq dn ar co =>
      leBytes 1 f.val ++ leBytes 1 t.code ++ leBytes 1 c.code ++ leBytes 1 k.code
        ++ [rq, dn] ++ leBytes 1 (bit ar + 2 * bit co) ++ zeros 1
  | .linkTrace ch n bs => leBytes 1 ch.toNat ++ zeros 1 ++ leBytes 2 n ++ bs
  | .progress w v => leBytes 1 w ++ leBytes 4 v.toNat
  | .notice c bs => c :: bs
  | .linkHealth h => h.flags :: (zeros 1 ++ h.counters)
  | .consoleLine f o bs => leBytes 1 f.code ++ zeros 1 ++ leBytes 2 o ++ bs
  | .powerEvent e s c f r =>
      leBytes 1 e.code ++ leBytes 1 s.code ++ leBytes 1 c.toNat ++ leBytes 1 f.code ++ leBytes 1 r
        ++ zeros 3
  | .access t op o tr n h a ws =>
      leBytes 1 t.val ++ leBytes 1 op.code ++ leBytes 1 o.result.code ++ leBytes 1 o.sub
        ++ leBytes 1 (bit tr) ++ zeros 1 ++ leBytes 2 n ++ leBytes 8 h.toNat ++ leBytes 8 a.toNat
        ++ wordBytes ws
  | .fill len => zeros len

/-- A record as written: header, payload and zero padding (R6, R8, Table 12-9). -/
def recordBytes (p : Payload) (f : RecFlags) (delta : Nat) (seq : BitVec 16) : List Byte :=
  leBytes 1 p.kindCode ++ leBytes 1 f.code ++ leBytes 2 p.len ++ leBytes 2 delta
    ++ leBytes 2 seq.toNat ++ p.bytes ++ zeros (p.size - 8 - p.len)

/-- No header flag (R7: ANCHOR, GAP and FILL carry none). -/
def RecFlags.none : RecFlags := ⟨false, false, false, false⟩

/-- An admitted record as written into its page (R153). -/
def Staged.bytes (r : Staged) : List Byte := recordBytes r.payload r.flags r.delta r.seq

/-- A FILL record that occupies `remainder` bytes (R19). -/
def fillBytes (remainder : Nat) : List Byte :=
  recordBytes (.fill (remainder - 8)) RecFlags.none 0 0

/-! ## Pages -/

/-- The page header (Table 12-8); `k` is the station's current time shift (R155). -/
def pageHeaderBytes (p : OpenPage) (n : StationNo) (reason : SealReason) (k : Nat) : List Byte :=
  leBytes 4 p.serial ++ leBytes 1 n.val ++ leBytes 1 reason.code
    ++ leBytes 1 (if p.count = 0 then k else p.shift)
    ++ leBytes 1 (bit p.hasGap + 2 * bit p.hasHistory)
    ++ leBytes 2 p.count ++ leBytes 2 p.used
    ++ leBytes 2 (if p.count = 0 then 0 else p.firstSeq.toNat) ++ zeros 2
    ++ leBytes 8 (if p.count = 0 then 0 else p.base) ++ zeros 8

/-- Bytes 0 to 7 of an entry written FILLING (R186, Table 12-7). -/
def fillingBytes (n : StationNo) (serial : Nat) : List Byte :=
  leBytes 1 2 ++ leBytes 1 n.val ++ zeros 2 ++ leBytes 4 serial

/-! ## Results -/

/-- The detail byte (section 12.3). -/
def Res.detail (r : Res) : Nat := 128 * bit r.clamped + r.sub

/-- Bytes 64 to 95 of a slot: per-station results, overall result, value, completion tick time
(R186, Table 12-4). -/
def resultBytes (per : Vector (Option Res) 8) (overall : Res) (tb : Tick) : List Byte :=
  (per.toList.flatMap fun
    | some r => leBytes 1 r.code.code ++ leBytes 1 r.detail
    | none => zeros 2)
    ++ leBytes 1 overall.code.code ++ leBytes 1 overall.detail ++ zeros 2
    ++ leBytes 4 overall.value ++ leBytes 8 tb.toNat

/-! ## Board debug link packets -/

/-- Code number c(i) of info bit i (Table 3-4). -/
def codeNumber (i : Nat) : Nat :=
  if i = 0 then 3 else if i < 4 then i + 4 else if i < 11 then i + 5 else if i < 26 then i + 6
  else i + 7

/-- The exclusive OR of the `n` low bits of a number's bits. -/
def parity {w : Nat} (v : BitVec w) : Bool :=
  (List.range w).foldl (fun acc i => acc ^^ v.getLsbD i) false

/-- p0 to p5 of 32 info bits: the exclusive OR of the code numbers of the info bits that are 1 (R49). -/
def checkBits (info : BitVec 32) : BitVec 6 :=
  (List.range 32).foldl
    (fun acc i => if info.getLsbD i then acc ^^^ BitVec.ofNat 6 (codeNumber i) else acc) 0

/-- The check byte: p0 to p5, p6, and bit 7 zero (R49). -/
def checkByte (info : BitVec 32) : Byte :=
  BitVec.ofNat 8 ((checkBits info).toNat + 64 * bit (parity info ^^ parity (checkBits info)))

/-- One bit into the CRC register (R52). -/
def crcBit (reg : BitVec 16) (b : Bool) : BitVec 16 :=
  if reg.msb ^^ b then (reg <<< 1) ^^^ 0x8005#16 else reg <<< 1

/-- One byte into the CRC register, most significant bit first (R52). -/
def crcByte (reg : BitVec 16) (b : Byte) : BitVec 16 :=
  [7, 6, 5, 4, 3, 2, 1, 0].foldl (fun r i => crcBit r (b.getLsbD i)) reg

/-- The CRC of a payload: generator 0x8005 from 0xFFFF, nothing reversed or inverted (R52). -/
def crc16 (bs : List Byte) : BitVec 16 := bs.foldl crcByte 0xFFFF#16

/-- Kind codes of request packets (Table 3-3). -/
def AccessOp.packetKind : AccessOp → Nat
  | .read => 0x11 | .write => 0x12 | .control => 0x13 | .ping => 0x14

/-- Payload of a request packet (R62). -/
def ReqSpec.payload (r : ReqSpec) : List Byte :=
  match r.op with
  | .read => leBytes 8 r.addr.toNat ++ leBytes 1 r.count
  | .write => leBytes 8 r.addr.toNat ++ wordBytes r.words
  | .control => leBytes 1 r.addr.toNat
  | .ping => []

/-- The info bytes of a header: kind and channel, tag, length (Table 12-11). -/
def infoBytes (kind channel tag len : Nat) : List Byte :=
  leBytes 1 (kind + 32 * channel) ++ leBytes 1 tag ++ leBytes 2 len

/-- The bytes of a packet between its delimiters: header, payload, and CRC high byte first when
there is a payload (Table 3-1, R49, R52). -/
def packetBytes (kind channel tag : Nat) (payload : List Byte) : List Byte :=
  let info := infoBytes kind channel tag payload.length
  let crc := (crc16 payload).toNat
  info ++ [checkByte (BitVec.ofNat 32 (leNat info))] ++ payload
    ++ (if payload.isEmpty then [] else [BitVec.ofNat 8 (crc / 256), BitVec.ofNat 8 crc])

/-- The packet of a request (R62): channel 0, the request's tag, the kind's payload. -/
def TxReq.packet (r : TxReq) : List Byte :=
  packetBytes r.spec.op.packetKind 0 r.tag.val r.spec.payload

end Sys2Proof.Machine
end

