-- ==== Sys2Proof/WellFormed.lean ====
section
/-! DEFINITION. Which commands are well formed: a CONTROL write whose bits are those its row names
(Table 12-1), a completion whose data has the length of the structure read (Chapter 12), and a
STATION MAP job with its eight connectors (Table 12-5). -/

namespace Sys2Proof

/-- Bit i of a register value. -/
def regBit (v : Word32) (i : Nat) : Bool := v.getLsbD i

/-- The decidable well-formedness of a command. -/
def Instr.wf : Instr → Bool
  | .softReset v _ => regBit v 2
  | .attentionMaskWrite v => !regBit v 2
  | .start v => regBit v 0 && !regBit v 2
  | .halt v => !regBit v 0 && !regBit v 2
  | .resume v => regBit v 0 && regBit v 1 && !regBit v 2
  | .descriptorReadDone _ d => d.length == 64
  | .slotStateReadDone _ d => d.length == 1
  | .slotReadDone _ d => d.length == 128
  | .profileReadDone _ d => d.length == 64
  | .writeDataReadDone _ d => d.length % 4 == 0 && 4 ≤ d.length && d.length ≤ 256
  | .programReadDone _ d => d.length == 256 || d.length == 64
  | .entryReadDone _ d => d.length == 16
  | .stationMap _ _ c => c.length == 8
  | .powerOnReset _ | .wake _ | .attentionClear _ | .registerWrite _ _ | .accessGrant
  | .errorCompletion _ | .readTimeout _ | .sweepTimerExpiry | .enable _ _ | .abandon _ _
  | .status _ _ _ | .mark _ _ _ | .captureStop _ _ _ | .disarm _ _ | .flush _ _
  | .configure _ | .park _ | .unpark _ | .wakeIntervalEnd _ | .quiesce _ | .powerOn _
  | .powerOff _ | .setMode _ | .resetPulse _ | .resetHold _ | .resetRelease _ | .read _
  | .writeInline _ | .writeBuffer _ | .blockRead _ | .boardControl _ | .ping _
  | .consoleSend _ | .arm _ | .captureStartImmediate _ | .captureStartTriggered _
  | .timeLoadImmediate _ _ _ | .timeLoadOnSync _ _ _ | .syncEdge | .signalAcquired _
  | .signalLost _ | .startDelimiter _ | .endDelimiterInIdle _ | .packetDiscard _
  | .tracePacket _ | .progressPacket _ | .responsePacket _ | .noticePacket _
  | .healthIntervalExpiry _ | .transmitDone _ | .responseTimeoutExpiry _ _
  | .retireExpiry _ _ | .consoleByte _ _ _ | .rxRise _ | .breakDetected _
  | .idleCloseExpiry _ | .consoleByteSent _ | .presentInputChange _ _ _
  | .presentSettleExpiry _ | .pwrGoodRise _ | .pwrGoodFall _ | .overloadRise _
  | .overloadFall _ | .inrushWindowClose _ | .overloadFilterExpiry _ | .autoSettleExpiry _
  | .rampTimerExpiry _ | .cooldownExpiry _ | .resetDelayExpiry _ | .resetPulseExpiry _
  | .stepTimerExpiry _ | .benchLineRise _ | .benchLineFall _ | .driveEnd _ _
  | .pageAcquisition | .drainStep _ | .idleFlushExpiry _ | .bdlDataByte _ _
  | .consoleStartEdge _ | .startBitSample _ _ => true

end Sys2Proof
end

