-- ==== Sys2Proof/Machine/Operands.lean ====
section
/-! DEFINITION. What the device reads: the forms in which a command's data gives a job, a
descriptor, a profile, a program or a packet (Chapter 12, R29, R48 to R57, R116, R174, R185). -/

namespace Sys2Proof.Machine

/-! ## Job slots (R174, Tables 12-4, 12-5) -/

/-- What the kind and parameters of a slot give: a kind not of Table 10-5, a code field whose value
is not listed, or a job. -/
inductive SlotJob where
  | badKind
  | refused
  | job (j : Job)
deriving DecidableEq, Repr

/-- A whole slot as JSD reads it. -/
structure SlotView where
  state : Nat
  kind : Nat
  header : JobHeader
  job : SlotJob
deriving DecidableEq, Repr

/-- The power mode a field names. -/
def powerModeOf : Nat → Option PowerMode
  | 0 => some .off | 1 => some .manual | 2 => some .auto | _ => none

/-- An optional job as a slot's job. -/
def SlotJob.ofOption : Option Job → SlotJob
  | some j => .job j
  | none => .refused

/-- The job of a slot's bytes (Table 12-5). -/
def slotJob (d : List Byte) : SlotJob :=
  let addr := BitVec.ofNat 64 (field d 16 8)
  let count := field d 24 2
  let buf := BitVec.ofNat 64 (field d 32 8)
  let op := field d 16 1
  match field d 1 1 with
  | 1 => .job .enable
  | 2 => .job .abandon
  | 3 => .job (.status addr)
  | 4 => .job (.mark (BitVec.ofNat 32 (field d 16 4)))
  | 5 => .job (.captureStop (field d 16 2))
  | 6 => .job .disarm
  | 7 => .job .flush
  | 8 => .job (.configure addr)
  | 9 => .job .park
  | 10 => .job .unpark
  | 11 => .job .quiesce
  | 12 =>
    match op with
    | 1 => .job .powerOn
    | 2 => .job .powerOff
    | 3 => SlotJob.ofOption ((powerModeOf (field d 17 1)).map .setMode)
    | _ => .refused
  | 13 =>
    match op with
    | 1 => .job (.resetPulse (field d 18 2))
    | 2 => .job .resetHold
    | 3 => .job .resetRelease
    | _ => .refused
  | 14 => .job (.read addr count buf)
  | 15 =>
    match field d 26 1 with
    | 0 => .job (.writeInline addr count (wordsOf (d.drop 40) (min count 4)))
    | 1 => .job (.writeBuffer addr count buf)
    | _ => .refused
  | 16 => .job (.blockRead addr count buf)
  | 17 => .job (.boardControl op)
  | 18 => .job .ping
  | 19 => .job (.consoleSend op ((d.drop 24).take (min op 32)))
  | 20 => .job (.arm addr)
  | 21 =>
    match op with
    | 0 => .job .captureStartImmediate
    | 1 => .job .captureStartTriggered
    | _ => .refused
  | 22 =>
    match op with
    | 0 => .job (.timeLoadImmediate (BitVec.ofNat 64 (field d 24 8)))
    | 1 => .job (.timeLoadOnSync (BitVec.ofNat 64 (field d 24 8)))
    | _ => .refused
  | 23 => .job (.stationMap ((d.drop 16).take 8))
  | _ => .badKind

/-- A slot's bytes as JSD reads them (Table 12-4). -/
def slotView (d : List Byte) : SlotView where
  state := field d 0 1
  kind := field d 1 1
  header :=
    { mask := BitVec.ofNat 8 (field d 2 1)
      notify := (byteAt d 3).getLsbD 0
      hostRef := BitVec.ofNat 64 (field d 8 8) }
  job := slotJob d

/-- The kind code of a job (Table 12-5). -/
def Job.kind : Job → Nat
  | .enable => 1 | .abandon => 2 | .status _ => 3 | .mark _ => 4 | .captureStop _ => 5
  | .disarm => 6 | .flush => 7 | .configure _ => 8 | .park => 9 | .unpark => 10 | .quiesce => 11
  | .powerOn | .powerOff | .setMode _ => 12
  | .resetPulse _ | .resetHold | .resetRelease => 13
  | .read .. => 14
  | .writeInline .. | .writeBuffer .. => 15
  | .blockRead .. => 16 | .boardControl _ => 17 | .ping => 18 | .consoleSend .. => 19 | .arm _ => 20
  | .captureStartImmediate | .captureStartTriggered => 21
  | .timeLoadImmediate _ | .timeLoadOnSync _ => 22
  | .stationMap _ => 23

/-- Classes of jobs (Table 10-5). -/
inductive JobClass where
  | immediate | queued | device
deriving DecidableEq, Repr

/-- The class of a job (Table 10-5). -/
def Job.cls : Job → JobClass
  | .enable | .abandon | .status _ | .mark _ | .captureStop _ | .disarm | .flush => .immediate
  | .timeLoadImmediate _ | .timeLoadOnSync _ | .stationMap _ => .device
  | .configure _ | .park | .unpark | .quiesce | .powerOn | .powerOff | .setMode _ | .resetPulse _
  | .resetHold | .resetRelease | .read .. | .writeInline .. | .writeBuffer .. | .blockRead ..
  | .boardControl _ | .ping | .consoleSend .. | .arm _ | .captureStartImmediate
  | .captureStartTriggered => .queued

/-- The field checks made at the slot read (Table 10-6, Table 4-3); code fields not listed were
refused by `slotJob` already. DESIGN CHOICE, log 53, unsafe: Table 4-3 does not say for which source of a
WRITE a buffer address not a multiple of 4 is refused; the model refuses it for BUFFER only. -/
def Job.fieldsOk : Job → Bool
  | .status buf => buf.toNat % 8 == 0
  | .read _ c buf | .writeBuffer _ c buf => 1 ≤ c && c ≤ 64 && buf.toNat % 4 == 0
  | .writeInline _ c _ => 1 ≤ c && c ≤ 4
  | .blockRead _ c buf => 1 ≤ c && c ≤ 4096 && buf.toNat % 4 == 0
  | .boardControl code => 1 ≤ code && code ≤ 3
  | .consoleSend c _ => 1 ≤ c && c ≤ 32
  | .timeLoadImmediate p | .timeLoadOnSync p => p.toNat < 2 ^ 48
  | .stationMap cs => cs.length == 8 && cs.all (fun c => c.toNat ≤ 7) && decide cs.Nodup
  | .enable | .abandon | .mark _ | .captureStop _ | .disarm | .flush | .configure _ | .park
  | .unpark | .quiesce | .powerOn | .powerOff | .setMode _ | .resetPulse _ | .resetHold
  | .resetRelease | .ping | .arm _ | .captureStartImmediate | .captureStartTriggered => true

/-! ## The descriptor (R167, R168, Tables 10-3, 12-3) -/

/-- The area a descriptor names, its sweep interval clamped (R168 step 1). -/
def areaOf (d : List Byte) : Area where
  jobBoard := BitVec.ofNat 64 (field d 8 8)
  slotCount := field d 4 2
  pageList := BitVec.ofNat 64 (field d 16 8)
  entryCount := field d 6 2
  sweepUs := if field d 24 4 = 0 then 100 else clamp 10 65535 (field d 24 4)

/-- Two regions, each a start and a size, share a byte. -/
def overlaps (a la b lb : Nat) : Bool := a < b + lb && b < a + la

/-- The first descriptor check that fails, in the order of Table 10-3, or OK. -/
def descriptorCheck (base : Nat) (d : List Byte) : StartCheck :=
  let slots := field d 4 2
  let entries := field d 6 2
  let jb := field d 8 8
  let pl := field d 16 8
  if field d 0 4 ≠ Config.signature then .signature
  else if slots < 8 ∨ 256 < slots then .slotCount
  else if entries < 16 ∨ 4096 < entries then .entryCount
  else if jb % 64 ≠ 0 ∨ pl % 64 ≠ 0 then .alignment
  else if 2 ^ 64 < base + 64 ∨ 2 ^ 64 < jb + 128 * slots ∨ 2 ^ 64 < pl + 16 * entries then .region
  else if overlaps base 64 jb (128 * slots) || overlaps base 64 pl (16 * entries)
      || overlaps jb (128 * slots) pl (16 * entries) then .overlap
  else .ok

/-- Bytes 32 to 47 of the descriptor, the capability fields (R168, R186, Table 12-3). -/
def capabilityBytes (sweepUs : Nat) : List Byte :=
  leBytes 1 8 ++ zeros 1 ++ leBytes 2 8192 ++ leBytes 2 8192 ++ leBytes 2 1 ++ leBytes 4 sweepUs
    ++ zeros 4

/-! ## The profile (R29, Table 12-13) -/

/-- A profile record checked and clamped: none when a refused field is out of its set, else the
profile and whether any field was clamped. -/
def profileOf (d : List Byte) : Option (Profile × Bool) :=
  let f := field d
  let raw : Profile :=
    { timeShift := f 1 1, historySize := f 2 2, flushMs := f 4 2, channelMask := byteAt d 6
      payloadLimit := f 8 2, responseTimeout := f 10 2, requestWords := f 12 1
      accessLogging := f 7 1 == 1, healthMs := f 16 2, consoleEnable := f 13 1 == 1
      divisor := f 20 2, lineLimit := f 14 2, idleCloseMs := f 18 2
      powerMode := (powerModeOf (f 22 1)).getD .off, classMask := byteAt d 23
      autoSettleMs := f 24 2, rampMs := f 26 2, inrushMs := f 28 1, overloadUs := f 30 2
      cooldownMs := f 32 2, retryLimit := f 29 1, resetDelayMs := f 34 2 }
  let p : Profile :=
    { raw with
      timeShift := clamp 0 8 raw.timeShift, flushMs := clamp 1 10000 raw.flushMs
      payloadLimit := clamp 16 1024 raw.payloadLimit
      responseTimeout := clamp 1 65535 raw.responseTimeout
      requestWords := clamp 1 64 raw.requestWords, healthMs := clamp 1 1000 raw.healthMs
      divisor := clamp 20 65535 raw.divisor, lineLimit := clamp 16 512 raw.lineLimit
      idleCloseMs := clamp 1 1000 raw.idleCloseMs, autoSettleMs := clamp 0 10000 raw.autoSettleMs
      rampMs := clamp 1 2000 raw.rampMs, inrushMs := clamp 0 100 raw.inrushMs
      overloadUs := clamp 10 65535 raw.overloadUs, cooldownMs := clamp 100 60000 raw.cooldownMs
      retryLimit := clamp 0 7 raw.retryLimit, resetDelayMs := clamp 0 10000 raw.resetDelayMs }
  if f 0 1 = 1 ∧ raw.historySize ∈ [0, 2048, 4096, 8192] ∧ f 7 1 ≤ 1 ∧ f 13 1 ≤ 1 ∧ f 22 1 ≤ 2 then
    some (p, decide (p ≠ raw))
  else none

/-! ## The program (R116, Tables 7-2, 7-3, 7-5, 12-14) -/

/-- The target a byte names among `steps` present steps (R116, R185). -/
def targetOf (steps b : Nat) : Option Target :=
  if b = 0xFF then some .done
  else if h : b < 4 then (if b < steps then some (.step ⟨b, h⟩) else none)
  else none

/-- The power event a code names. -/
def powerEvOf : Nat → Option PowerEv
  | 1 => some .seated | 2 => some .rampStart | 3 => some .powerGood | 4 => some .resetReleased
  | 5 => some .resetAsserted | 6 => some .off | 7 => some .removed | 8 => some .faultLatched
  | 9 => some .rampFault | 10 => some .overloadFault | 11 => some .powerLostFault
  | _ => none

/-- A step's condition and parameters, none where Table 7-5 refuses them. -/
def condOf (patterns : Nat) (d : List Byte) : Option StepCond :=
  let f := field d
  match f 0 1 with
  | 1 => if f 12 4 ≤ f 16 4 then some (.progress (f 12 4) (f 16 4)) else none
  | 2 => if f 12 1 < patterns then some (.pattern (f 12 1)) else none
  | 3 => if f 12 1 ≤ 7 then some (.trace (f 12 1) (byteAt d 13) (byteAt d 14)) else none
  | 4 => some (.notice (byteAt d 12))
  | 5 => (powerEvOf (f 12 1)).map .power
  | 6 => if f 12 1 ≤ 3 then some (.benchLine (f 12 1)) else none
  | 7 => some .accessError
  | 8 => some .elapsed
  | _ => none

/-- A line number read from two bits (R185). -/
def lineOf (b : Nat) : LineNo := ⟨b % 4, Nat.mod_lt _ (by decide)⟩

/-- A step record (32 bytes) checked by R116; TRIGGER RECORD is added to the timeout actions of a
step with a timeout and a kind other than ELAPSED (R117 step 2). -/
def stepOf (steps patterns : Nat) (d : List Byte) : Option Step :=
  let f := field d
  match condOf patterns d, targetOf steps (f 2 1) with
  | some cond, some next =>
    let tmo := f 8 2
    let tgt := targetOf steps (f 3 1)
    if f 1 1 = 0 ∨ (tmo ≠ 0 ∧ tgt = none) ∨ (cond = .elapsed ∧ tmo = 0) then none
    else some
      { cond := cond, count := f 1 1, next := next, matchActs := byteAt d 4, timeoutMs := tmo
        timeoutNext := tgt.getD .done
        timeoutActs :=
          if tmo ≠ 0 ∧ cond ≠ .elapsed then byteAt d 5 ||| 2#8 else byteAt d 5
        line := lineOf (f 6 1) }
  | _, _ => none

/-- A pattern record (40 bytes): its positions, none for a length of 0 or above 16. -/
def patternOf (d : List Byte) : Option (List PatPos) :=
  let n := field d 0 1
  if n = 0 ∨ 16 < n then none
  else some ((List.range n).map fun p => ⟨byteAt d (8 + p), byteAt d (24 + p)⟩)

/-- A program record checked by R116 and clamped: none when refused, else the program and whether a
width was clamped. -/
def programOf (d : List Byte) : Option (Program × Bool) :=
  let f := field d
  let steps := f 1 1
  let pats := f 2 1
  if f 0 1 ≠ 1 ∨ steps = 0 ∨ 4 < steps ∨ 4 < pats then none
  else
    match (List.range pats).mapM (fun p => patternOf (d.drop (32 + 40 * p))),
      (List.range steps).mapM (fun s => stepOf steps pats (d.drop (192 + 32 * s))) with
    | some ps, some ss =>
      some ({ postCount := f 4 2, pulseWidth := max 1 (f 6 2), driveUs := max 1 (f 8 2)
              marker := BitVec.ofNat 32 (f 12 4), patterns := ps, steps := ss },
        decide (f 6 2 = 0 ∨ f 8 2 = 0))
    | _, _ => none

/-! ## Received packets (R46 to R57) -/

/-- What the header check makes of a received header (Table 3-5): the info bits to use and whether
they were corrected, or none for UNCORRECTABLE. -/
def headerCheck (info : BitVec 32) (check : Byte) : Option (BitVec 32 × Bool) :=
  let s := (checkBits info ^^^ check.truncate 6).toNat
  let q := parity info ^^ parity (check.truncate 7)
  if check.getLsbD 7 then none
  else if s = 0 then some (info, q)
  else if !q then none
  else
    match (List.range 32).find? (fun i => codeNumber i == s) with
    | some i => some (info ^^^ (1#32 <<< i), true)
    | none => if s ∈ [1, 2, 4, 8, 16, 32] then some (info, true) else none

/-- Health flags (bit numbers of section 12.4) that discard a packet. -/
inductive DiscardFlag where
  | framing | uncorrectable | length | crc | unknownKind
deriving DecidableEq, Repr

/-- An accepted packet (Table 3-3). -/
inductive Accepted where
  | trace (channel : BitVec 3) (payload : List Byte)
  | progress (payload : List Byte)
  | response (tag : Nat) (status : Byte) (words : List Word32)
  | notice (code : Byte) (rest : List Byte)
deriving DecidableEq, Repr

/-- The outcome of a packet's checks: the discarding flag or the accepted packet, and whether the
header was corrected (R48). -/
structure PacketVerdict where
  corrected : Bool
  result : DiscardFlag ⊕ Accepted
deriving DecidableEq, Repr

/-- Length, CRC, kind and payload form checks with the header's fields in hand (R51 to R57). DESIGN CHOICE,
log 52, unsafe: R56 does not give the byte order of a RESPONSE's data words; the model reads each least
significant byte first, as R62 has a WRITE's. -/
def bodyCheck (info : BitVec 32) (count : Nat) (bytes : List Byte) : DiscardFlag ⊕ Accepted :=
  let kind := info.toNat % 32
  let channel := info.toNat / 32 % 8
  let tag := info.toNat / 256 % 256
  let len := info.toNat / 65536
  let payload := (bytes.drop 5).take len
  let crc := (bytes.drop (5 + len)).take 2
  if 1024 < len ∨ count - 5 ≠ (if len = 0 then 0 else len + 2) then .inl .length
  else if len ≠ 0 ∧ crc ≠ [BitVec.ofNat 8 ((crc16 payload).toNat / 256),
      BitVec.ofNat 8 (crc16 payload).toNat] then .inl .crc
  else
    match kind with
    | 1 => .inr (.trace (BitVec.ofNat 3 channel) payload)
    | 2 => if len = 0 ∨ 4 < len then .inl .length else .inr (.progress payload)
    | 3 =>
      if len % 4 = 1 then
        .inr (.response tag (byteAt payload 0) (wordsOf (payload.drop 1) (len / 4)))
      else .inl .length
    | 4 =>
      match payload with
      | [] => .inl .length
      | c :: rest => .inr (.notice c rest)
    | _ => .inl .unknownKind

/-- All checks of a packet at its end delimiter (R47, R48). -/
def packetVerdict (p : PacketBuf) : PacketVerdict :=
  if p.count < 5 then ⟨false, .inl .framing⟩
  else
    match headerCheck (BitVec.ofNat 32 (field p.bytes 0 4)) (byteAt p.bytes 4) with
    | none => ⟨false, .inl .uncorrectable⟩
    | some (info, corrected) => ⟨corrected, bodyCheck info p.count p.bytes⟩

end Sys2Proof.Machine
end

