-- ==== Sys2Proof/Machine/Ops.lean ====
section
/-! DEFINITION. The named operations every family shares: station access, the context in which a
station's blocks work, timers, job results (R178), the presenting of accesses (R160). -/

namespace Sys2Proof.Machine

/-! ## Stations and connectors of the device -/

/-- Logical station n. -/
def State.station (s : State) (n : StationNo) : Station := s.stations[n.val]

/-- Replace logical station n. -/
def State.setStation (s : State) (n : StationNo) (t : Station) : State :=
  { s with stations := s.stations.set n.val t }

/-- Change logical station n. -/
def State.modStation (s : State) (n : StationNo) (f : Station → Station) : State :=
  s.setStation n (f (s.station n))

/-- The eight stations in ascending number. -/
def allStations : List StationNo := [0, 1, 2, 3, 4, 5, 6, 7]

/-- Station n is in a mask (spec 00, "Station mask"). -/
def inMask (m : Mask8) (n : StationNo) : Bool := m.getLsbD n.val

/-- Change every station. -/
def State.mapStations (s : State) (f : Station → Station) : State :=
  { s with stations := Vector.ofFn fun n => f (s.station n) }

/-- The fixture connector of station n (R41). -/
def State.connectorOf (s : State) (n : StationNo) : ConnectorNo := s.stationMap[n.val]

/-- A connector's inputs. -/
def State.connector (s : State) (c : ConnectorNo) : Connector := s.connectors[c.val]

/-- Change a connector's inputs. -/
def State.modConnector (s : State) (c : ConnectorNo) (f : Connector → Connector) : State :=
  { s with connectors := s.connectors.set c.val (f (s.connector c)) }

/-- The station a connector serves (R41: the map is a permutation). -/
def State.stationOf (s : State) (c : ConnectorNo) : Option StationNo :=
  allStations.find? fun n => s.connectorOf n == c

/-- The profile a block reads; a station without one in force (OFF) reads the defaults. -/
def Station.prof (t : Station) : Profile := t.profile.getD Profile.default

/-! ## Timers (R2; log 3) -/

/-- A running timer's end has been reached on the internal reference. -/
def due (timer : Option Nat) (now : Nat) : Bool :=
  match timer with
  | some t => decide (t ≤ now)
  | none => false

/-! ## The context of a station's work -/

/-- What a station's blocks read: its number, the time base count, the internal reference, and the
inputs of its connector. -/
structure Env where
  n : StationNo
  tb : Tick
  now : Nat
  pin : Connector
deriving DecidableEq, Repr

/-- What a station's blocks hand to JSD and HMP: an access of the JOB class, or the end of a job at
the station with its result. -/
inductive Eff where
  | present (a : Access)
  | jobEnd (jid : Nat) (r : Res)
deriving DecidableEq, Repr

/-- A station at work: its state, the attention bits set so far, and what it handed on, oldest
first. -/
structure Ctx where
  st : Station
  att : BitVec 11
  effs : List Eff
deriving DecidableEq, Repr

/-- Set an attention bit. -/
def Ctx.setAttn (c : Ctx) (a : Attn) : Ctx := { c with att := c.att ||| a.mask }

/-- Change the station. -/
def Ctx.mod (c : Ctx) (f : Station → Station) : Ctx := { c with st := f c.st }

/-- Hand something on. -/
def Ctx.emit (c : Ctx) (e : Eff) : Ctx := { c with effs := c.effs ++ [e] }

/-! ## Results (R178) -/

/-- A result with a code and value and no detail. -/
def Res.plain (code : ResultCode) (value : Nat) : Res := ⟨code, false, 0, value⟩

/-- OK with a result value. -/
def Res.okv (value : Nat) : Res := Res.plain .ok value

/-- A result that ends a job with a code and the value 0. -/
def Res.ended (code : ResultCode) : Res := Res.plain code 0

/-- POWER FAULT with a fault kind (Table 10-7). -/
def Res.powerFault (k : FaultKind) (value : Nat) : Res := ⟨.powerFault, false, k.code, value⟩

/-- The result of an access outcome with a value (R77). -/
def Res.ofOutcome (o : AccessOutcome) (value : Nat) : Res := ⟨o.result, false, o.sub, value⟩

/-- The job at the head ends at this station: it leaves the queue and the next job becomes the head
(R177). -/
def endHead (r : Res) (c : Ctx) : Ctx :=
  match c.st.queue with
  | [] => c
  | q :: qs => { c with st := { c.st with queue := qs, head := .waiting }, effs := c.effs ++ [.jobEnd q.jid r] }

/-- The result at station n, if any (R178). -/
def HeldJob.resultAt (h : HeldJob) (n : StationNo) : Option Res := h.results[n.val]

/-- The stations a job names. -/
def maskStations (m : Mask8) : List StationNo := allStations.filter (inMask m)

/-- Every station of the mask has a result, or the job has a result of its own (R178). -/
def HeldJob.complete (h : HeldJob) : Bool :=
  h.own.isSome || (maskStations h.mask).all fun n => (h.resultAt n).isSome

/-- The results of the named stations, ascending. -/
def HeldJob.namedResults (h : HeldJob) : List Res := (maskStations h.mask).filterMap h.resultAt

/-- The overall result (R178): the job's own, or the common code and subcode, or PARTIAL; CLAMPED
when any station has it; the values' sum saturating at 4,294,967,295. -/
def HeldJob.overall (h : HeldJob) : Res :=
  match h.own with
  | some r => r
  | none =>
    let rs := h.namedResults
    let value := min (rs.map Res.value).sum Config.max32
    let clamped := rs.any Res.clamped
    match rs with
    | [] => Res.plain .none 0
    | r :: rest =>
      if rest.all (fun x => x.code == r.code && x.sub == r.sub) then ⟨r.code, clamped, r.sub, value⟩
      else ⟨.mixed, clamped, 0, value⟩

/-! ## Accesses (R160) -/

/-- A read of PC memory. -/
def Access.readOf (cls : AccessClass) (n : Option StationNo) (addr : Word64) (len : Nat)
    (p : Purpose) : Access := ⟨cls, n, addr, len, none, p⟩

/-- A write of PC memory. -/
def Access.writeOf (cls : AccessClass) (n : Option StationNo) (addr : Word64) (data : List Byte)
    (p : Purpose) : Access := ⟨cls, n, addr, data.length, some data, p⟩

/-- Present a SWEEP class access. -/
def State.presentSweep (s : State) (a : Access) : State :=
  { s with hmp := { s.hmp with sweepQ := s.hmp.sweepQ ++ [a] } }

/-- Present a JOB class access. -/
def State.presentJob (s : State) (a : Access) : State :=
  { s with hmp := { s.hmp with jobQ := s.hmp.jobQ ++ [a] } }

/-- Present PAGE class accesses of station n. -/
def State.presentPage (s : State) (n : StationNo) (as : List Access) : State :=
  s.modStation n fun t => { t with pageQ := t.pageQ ++ as }

/-! ## Held jobs -/

/-- The held job with the model's number `jid`. -/
def State.heldJob (s : State) (jid : Nat) : Option HeldJob := s.held.find? fun h => h.jid == jid

/-- JSD holds a job with this slot address (R173, R179). -/
def State.holdsSlot (s : State) (addr : Word64) : Bool := s.held.any fun h => h.slot == addr

/-- Change the held job `jid`. -/
def State.modHeld (s : State) (jid : Nat) (f : HeldJob → HeldJob) : State :=
  { s with held := s.held.map fun h => if h.jid == jid then f h else h }

/-- Hold a job. -/
def State.addHeld (s : State) (h : HeldJob) : State := { s with held := s.held ++ [h] }

/-- Release a held job. -/
def State.releaseHeld (s : State) (jid : Nat) : State :=
  { s with held := s.held.filter fun h => h.jid != jid }

/-- Present the result and DONE writes of a job whose result bytes are formed, result first, once
its TAKEN write has been issued (R178). -/
def State.presentResult (s : State) (jid : Nat) : State :=
  match s.heldJob jid with
  | some h =>
    match h.formed with
    | some bytes =>
      if h.taken = .waiting then s
      else
        (s.presentJob (Access.writeOf .job none (h.slot + 64) bytes (.result h))).presentJob
          (Access.writeOf .job none h.slot (leBytes 1 3) (.done h))
    | none => s
  | none => s

/-- Form the results of a complete job with the completion tick time and present them (R178). -/
def State.finishJob (s : State) (jid : Nat) : State :=
  match s.heldJob jid with
  | some h =>
    if h.complete && h.formed.isNone then
      (s.modHeld jid fun h => { h with formed := some (resultBytes h.results h.overall s.tb) }).presentResult
        jid
    else s
  | none => s

/-- Record a job's result at station n, and form its results when it is complete (R177, R178). -/
def State.recordResult (s : State) (n : StationNo) (jid : Nat) (r : Res) : State :=
  (s.modHeld jid fun h => { h with results := h.results.set n.val (some r) }).finishJob jid

/-- Take up one thing a station handed on. -/
def State.applyEff (n : StationNo) (s : State) : Eff → State
  | .present a => s.presentJob a
  | .jobEnd jid r => s.recordResult n jid r

/-- The environment of station n's blocks. -/
def State.env (s : State) (n : StationNo) : Env :=
  ⟨n, s.tb, s.elapsed, s.connector (s.connectorOf n)⟩

/-- Station n's blocks do `f`: the station and the attention bits take what `f` gives, and what it
handed on is taken up in order. -/
def State.withStation (s : State) (n : StationNo) (f : Env → Ctx → Ctx) : State :=
  let c := f (s.env n) ⟨s.station n, s.attention, []⟩
  c.effs.foldl (State.applyEff n) { s.setStation n c.st with attention := c.att }

/-- The blocks of the station a connector serves do `f`; the map being a permutation, there is exactly one
(R41). -/
def State.atConnector (s : State) (c : ConnectorNo) (f : Env → Ctx → Ctx) : State :=
  match s.stationOf c with
  | some n => s.withStation n f
  | none => s

end Sys2Proof.Machine
end

