-- ==== Sys2Proof/Machine/Capture.lean ====
section
/-! DEFINITION. CAP: record time arithmetic, the history window, admission to staging, loss and
recovery, the capture states (Chapter 1 section 1.4, Chapter 8). -/

namespace Sys2Proof.Machine

/-! ## Record time (R20 to R24) -/

/-- The unit time floor(T / 2^k) (R20). -/
def unitOf (k : Nat) (t : Tick) : Nat := t.toNat / 2 ^ k

/-- (u − r) mod 2^(48−k) (R22, R23). -/
def unitDiff (k u r : Nat) : Nat := (u + (2 ^ (48 - k) - r % 2 ^ (48 - k))) % 2 ^ (48 - k)

/-- The origin offset of a CONSOLE LINE, saturating (R23). -/
def originOffset (k u : Nat) (first : Tick) : Nat := min (unitDiff k u (unitOf k first)) Config.maxDelta

/-- The ANCHOR a record at unit time u needs before it, by its reason, or none (R22). -/
def Capture.anchorFor (c : Capture) (k u : Nat) : Option AnchorReason :=
  if !c.ref.valid then some c.ref.reason
  else if Config.maxDelta < unitDiff k u c.ref.value then some .deltaOverflow
  else none

/-- Mark R invalid with a reason (R21). -/
def Capture.invalidate (c : Capture) (r : AnchorReason) : Capture :=
  { c with ref := { c.ref with valid := false, reason := r } }

/-! ## Occupancy (R139, R142) -/

/-- Bytes of held records. -/
def historyBytes (l : List SrcRec) : Nat := (l.map SrcRec.size).sum

/-- Bytes of staged records. -/
def stagedBytes (l : List Staged) : Nat := (l.map Staged.size).sum

/-- Staging occupancy of a station. -/
def Capture.used (c : Capture) : Nat := stagedBytes c.staging

/-- Free space of the staging queue (R142). -/
def Capture.free (c : Capture) : Nat := Config.stagingSize - c.used

/-! ## Admission (R143) -/

/-- The payload as admitted: a CONSOLE LINE gets its origin offset (R23). -/
def admittedPayload (p : Payload) (k u : Nat) (first : Option Tick) : Payload :=
  match p, first with
  | .consoleLine f _ bs, some t => .consoleLine f (originOffset k u t) bs
  | p, _ => p

/-- Space an admission needs: the record's padded size, plus 16 with an ANCHOR (R143 step 2). -/
def Capture.needed (c : Capture) (k u size : Nat) : Nat :=
  size + if (c.anchorFor k u).isSome then 16 else 0

/-- A record, with the ANCHOR it needs, joins staging; each takes its sequence number, and R becomes
u and valid (R22, R24, R143 step 3). -/
def Capture.append (c : Capture) (k u : Nat) (p : Payload) (f : RecFlags) : Capture :=
  match c.anchorFor k u with
  | some why =>
    { c with
      staging := c.staging
        ++ [⟨.anchor u k why, RecFlags.none, 0, c.seq, u, k⟩, ⟨p, f, 0, c.seq + 1, u, k⟩]
      seq := c.seq + 2
      ref := { c.ref with value := u, valid := true } }
  | none =>
    { c with
      staging := c.staging ++ [⟨p, f, unitDiff k u c.ref.value, c.seq, u, k⟩]
      seq := c.seq + 1
      ref := { c.ref with value := u, valid := true } }

/-- What CAP's handling of a record gives: CAP, whether LOSS was entered, and whether a seal request
with reason STOPPED was made. -/
structure CapOut where
  cap : Capture
  lossEntered : Bool
  sealReq : Bool
deriving DecidableEq, Repr

/-- Admission in NORMAL: admitted when 24 bytes stay free, else LOSS is entered (R143, R144). -/
def Capture.admitNormal (c : Capture) (k : Nat) (r : SrcRec) : CapOut :=
  let u := unitOf k r.entry
  if c.needed k u r.size + Config.stagingReserve ≤ c.free then
    ⟨c.append k u (admittedPayload r.payload k u r.first) r.flags, false, false⟩
  else
    ⟨{ c with loss := true, pend := ⟨1, r.size, u⟩ }, true, false⟩

/-- A record counted as lost; a count that reaches its greatest value stops the recording with a
seal request (R144, R146). At a count already at its greatest value the count stays, the size is still added
to the byte count and a recording is stopped again: the model's deduction (DEDUCED, log 13). -/
def Capture.countLost (c : Capture) (r : SrcRec) : CapOut :=
  let pend : PendingLoss :=
    { c.pend with records := satAdd Config.max32 c.pend.records 1
                  bytes := satAdd Config.max32 c.pend.bytes r.size }
  if pend.records = Config.max32 then
    match c.state with
    | .recording | .stopping _ => ⟨{ c with pend := pend, state := .stopped }, false, true⟩
    | .stopped | .watching => ⟨{ c with pend := pend }, false, false⟩
  else ⟨{ c with pend := pend }, false, false⟩

/-- Recovery: the GAP is admitted without the reserve test, the pending loss emptied, the loss state
NORMAL (R145 steps 1 to 3). -/
def Capture.recover (c : Capture) (k : Nat) (tb : Tick) : Capture :=
  let c' := c.append k (unitOf k tb) (.gap c.pend.records c.pend.bytes c.pend.firstUnit) RecFlags.none
  { c' with loss := false, pend := PendingLoss.empty }

/-- A station in LOSS has the room to recover (R145). -/
def Capture.canRecover (c : Capture) : Bool := c.loss && decide (Config.recoveryFree ≤ c.free)

/-- A source record goes through admission (R143 to R146). -/
def Capture.admission (c : Capture) (k : Nat) (tb : Tick) (r : SrcRec) : CapOut :=
  if c.canRecover then (c.recover k tb).admitNormal k r
  else if c.loss then c.countLost r
  else c.admitNormal k r

/-! ## The history window (R139) -/

/-- Discard oldest held records until `p` more bytes fit in `h`. -/
def trimHistory (h p : Nat) : List SrcRec → List SrcRec
  | [] => []
  | r :: rs => if h < historyBytes (r :: rs) + p then trimHistory h p rs else r :: rs

/-- A record offered in WATCHING (R139). -/
def Capture.hold (c : Capture) (r : SrcRec) : Capture :=
  if c.historySize < r.size then c
  else { c with history := trimHistory c.historySize r.size c.history ++ [r] }

/-! ## Offers and stops (R134, R136, R137, R141) -/

/-- CAP takes an offered source record (R134, R137). -/
def Capture.offer (c : Capture) (k : Nat) (tb : Tick) (r : SrcRec) : CapOut :=
  match c.state with
  | .stopped => ⟨c, false, false⟩
  | .watching => ⟨c.hold r, false, false⟩
  | .recording => c.admission k tb r
  | .stopping _ =>
    let o := c.admission k tb r
    match o.cap.state with
    | .stopping n =>
      if n ≤ 1 then ⟨{ o.cap with state := .stopped }, o.lossEntered, true⟩
      else ⟨{ o.cap with state := .stopping (n - 1) }, o.lossEntered, o.sealReq⟩
    | .stopped | .watching | .recording => o

/-- The held records are admitted, oldest first, each with HISTORY (R141). Those after the one whose loss makes
the forced stop of R146 are still counted as lost, capture being STOPPED: the record count stays at its
greatest value and their sizes join the byte count. R141 counts them, R146 counts nothing offered after the
stop, and the choice is the model's (DEDUCED, log 60). -/
def releaseAll (k : Nat) (tb : Tick) (c : Capture) : List SrcRec → CapOut
  | [] => ⟨c, false, false⟩
  | r :: rs =>
    let o := c.admission k tb { r with flags := { r.flags with history := true } }
    let o' := releaseAll k tb o.cap rs
    ⟨o'.cap, o.lossEntered || o'.lossEntered, o.sealReq || o'.sealReq⟩

/-- The start-capture action (R125, R141). -/
def Capture.start (c : Capture) (k : Nat) (tb : Tick) : CapOut :=
  match c.state with
  | .stopped => ⟨{ c.invalidate .enterRecording with state := .recording }, false, false⟩
  | .watching =>
    releaseAll k tb { c.invalidate .enterRecording with state := .recording, history := [] } c.history
  | .recording | .stopping _ => ⟨c, false, false⟩

/-- The stop-capture action with post count n (R126, R136). -/
def Capture.stop (c : Capture) (n : Nat) : CapOut :=
  match c.state with
  | .stopped => ⟨c, false, false⟩
  | .watching => ⟨{ c with state := .stopped, history := [] }, false, false⟩
  | .recording | .stopping _ =>
    if n = 0 then ⟨{ c with state := .stopped }, false, true⟩
    else ⟨{ c with state := .stopping n }, false, false⟩

/-! ## CAP at its station -/

/-- A seal request: the seal mark counts the records staged now (R137, R158). A count of 0 with no
page open makes no mark. -/
def Station.sealRequest (t : Station) (why : SealReason) : Station :=
  let n := t.cap.staging.length
  { t with pg := { t.pg with mark := if n = 0 ∧ t.pg.page = none then none else some ⟨n, why⟩ } }

/-- Put what CAP gives into its station: the LOSS attention bit and the seal request (R144, R137). -/
def Ctx.capOut (c : Ctx) (o : CapOut) : Ctx :=
  let c := { c with st := { c.st with cap := o.cap } }
  let c := if o.lossEntered then c.setAttn .loss else c
  if o.sealReq then c.mod (·.sealRequest .stopped) else c

/-- A source offers a record to its station's CAP. -/
def offerRec (e : Env) (r : SrcRec) (c : Ctx) : Ctx :=
  c.capOut (c.st.cap.offer c.st.prof.timeShift e.tb r)

/-- A source record formed now, with no stored second time. -/
def SrcRec.now (e : Env) (p : Payload) (f : RecFlags) : SrcRec := ⟨p, f, e.tb, none⟩

/-- The start-capture action at a station (R125). -/
def startCapture (e : Env) (c : Ctx) : Ctx := c.capOut (c.st.cap.start c.st.prof.timeShift e.tb)

/-- The stop-capture action at a station (R126, R136). -/
def stopCapture (n : Nat) (c : Ctx) : Ctx := c.capOut (c.st.cap.stop n)

/-- Recovery at a removal from staging (R145, R147). -/
def recoverAtRemoval (e : Env) (c : Ctx) : Ctx :=
  if c.st.cap.canRecover then
    c.mod fun t => { t with cap := t.cap.recover t.prof.timeShift e.tb }
  else c

/-- Capture becomes STOPPED at once with the history cleared and no seal request (R36, R37). -/
def Capture.cut (c : Capture) : Capture := { c with state := .stopped, history := [] }

end Sys2Proof.Machine
end

