-- ==== Sys2Proof/Machine/Access.lean ====
section
/-! DEFINITION. Request issue and transmission, trigger HALTs and the pending control holder
(R63, R66, R67, R73, R74). Completion stands in Machine/Completion.lean, after the sequencer it
reports to. -/

namespace Sys2Proof.Machine

/-- The next tag modulo 64. -/
def tagAt (start i : Nat) : Fin 64 := ⟨(start + i) % 64, Nat.mod_lt _ (by decide)⟩

/-- A tag is outstanding or retired. -/
def AccessUnit.tagBusy (a : AccessUnit) (t : Fin 64) : Bool :=
  a.entries.any (fun e => e.tag == t) || a.retired.any (fun r => r.tag == t)

/-- The tag R66 assigns: the first from the next-tag counter onward that is neither held by an entry
nor retired. -/
def AccessUnit.pickTag (a : AccessUnit) : Fin 64 :=
  (((List.range 64).map (tagAt a.nextTag.val)).find? fun t => !a.tagBusy t).getD a.nextTag

/-- An entry of the table is free (R65). -/
def AccessUnit.hasFree (a : AccessUnit) : Bool := decide (a.entries.length < Config.maxEntries)

/-- The transmitter begins the first request of the list when idle and the link is UP (R63). -/
def LinkPort.kick (l : LinkPort) : LinkPort :=
  match l.sending, l.txList with
  | none, r :: rest => if l.up then { l with txList := rest, sending := some r.packet } else l
  | _, _ => l

/-- A request joins the transmit list, at its front for a trigger HALT (R63). -/
def LinkPort.enqueue (l : LinkPort) (r : TxReq) (front : Bool) : LinkPort :=
  ({ l with txList := if front then r :: l.txList else l.txList ++ [r] }).kick

/-- A request is issued: tag, entry, expiry and transmit list (R66, R67). -/
def issueReq (e : Env) (r : ReqSpec) (o : Owner) (front : Bool) (t : Station) : Station :=
  let tag := t.au.pickTag
  let entry : Entry :=
    { tag := tag, op := r.op, addr := r.addr, count := r.count, issuedAt := e.now
      expiry := e.now + t.prof.responseTimeout * Config.ticksPer10us
      owner := o, offset := r.offset, kept := r.words.take 8 }
  { t with
    au := { t.au with entries := t.au.entries ++ [entry], nextTag := tagAt tag.val 1 }
    lp := t.lp.enqueue ⟨tag, r⟩ front }

/-- A CONTROL request with a code (R73, R79). -/
def controlReq (code : Nat) : ReqSpec := ⟨.control, BitVec.ofNat 64 code, [], 0, 0⟩

/-- Outcomes of a HALT BOARD action (R73). -/
inductive HaltOutcome where
  | issue | hold | overrun | linkDown
deriving DecidableEq, Repr

/-- The outcome AU gives a HALT BOARD action (R73). -/
def Station.haltOutcome (t : Station) : HaltOutcome :=
  if !t.lp.up then .linkDown
  else if t.au.hasFree then .issue
  else if t.au.holder then .overrun
  else .hold

/-- Whether the action counts as done (R73). -/
def HaltOutcome.isDone : HaltOutcome → Bool
  | .issue | .hold => true
  | .overrun | .linkDown => false

/-- The HALT BOARD action (R73). -/
def haltBoard (e : Env) (c : Ctx) : Ctx :=
  match c.st.haltOutcome with
  | .issue => c.mod (issueReq e (controlReq 1) .trigger true)
  | .hold => c.mod fun t => { t with au := { t.au with holder := true } }
  | .overrun | .linkDown => c

/-- A request waiting in the holder is issued into a free entry (R74). -/
def issueHolder (e : Env) (t : Station) : Station :=
  if t.au.holder && t.lp.up && t.au.hasFree then
    issueReq e (controlReq 1) .trigger true { t with au := { t.au with holder := false } }
  else t

/-- The executing access job issues its next request when the link is UP, an entry is free and the
holder empty (R67), unless a request of it has failed (R81). -/
def issueNext (e : Env) (t : Station) : Station :=
  match t.head, t.queue with
  | .access a, q :: _ =>
    match a.reqs with
    | r :: rest =>
      if t.lp.up && t.au.hasFree && !t.au.holder && a.fail.isNone then
        issueReq e r (.job q.jid q.hostRef) false
          { t with head := .access { a with reqs := rest, flying := a.flying + 1 } }
      else t
    | [] => t
  | _, _ => t

/-- The freed entries go to waiting requests: first the holder, then the executing job (R72 step 6,
R74, R80). Four entries at most can be taken. -/
def offerEntries (e : Env) (t : Station) : Station :=
  issueNext e (issueNext e (issueNext e (issueNext e (issueHolder e t))))

end Sys2Proof.Machine
end

