-- ==== Sys2Proof/Machine/Sequencer.lean ====
section
/-! DEFINITION. TS: conditions, counts, step timers and firings (Chapter 7), with the start of a
reset pulse, which a firing's PULSE RESET action shares with the RESET PULSE job (R98, R109). -/

namespace Sys2Proof.Machine

/-! ## Power event records and the reset pulse (R98, R109) -/

/-- The fault a fault event reports (R98). -/
def PowerEv.faultOf : PowerEv → Option FaultKind
  | .rampFault => some .ramp
  | .overloadFault => some .overload
  | .powerLostFault => some .powerLost
  | .seated | .rampStart | .powerGood | .resetReleased | .resetAsserted | .off | .removed
  | .faultLatched => none

/-- The POWER EVENT record of an event, filled from the state once the event is taken (R17, R98). -/
def powerRecord (e : Env) (ev : PowerEv) (t : Station) : SrcRec :=
  SrcRec.now e (.powerEvent ev t.bpu.state t.bpu.cls (ev.faultOf.getD t.bpu.latched) t.bpu.retry)
    { RecFlags.none with sourceError := ev.faultOf.isSome }

/-- Step 2 of a power event: its record is offered (R98). -/
def offerPower (e : Env) (ev : PowerEv) (c : Ctx) : Ctx := offerRec e (powerRecord e ev c.st) c

/-- Change the BPU. -/
def Ctx.modBpu (c : Ctx) (f : PowerUnit → PowerUnit) : Ctx :=
  c.mod fun t => { t with bpu := f t.bpu }

/-- A pulse can start: the power state is ON and the controller RELEASED (R109). -/
def Station.canPulse (t : Station) : Bool := t.bpu.state == .on && t.bpu.ctl == .released

/-- A pulse of `width` × 100 µs starts: BOARD_RESET asserted, the held progress code none, the
RESET ASSERTED record offered; its condition is reported by the caller (R109, R110, R129). -/
def startPulse (e : Env) (width : Nat) (c : Ctx) : Ctx :=
  offerPower e .resetAsserted (c.modBpu fun b =>
    { b with ctl := .pulse, pulse := some (e.now + width * Config.ticksPer100us), held := none })

/-! ## Matching (R119, Table 7-5) -/

/-- The kind of a step's condition. -/
def StepCond.kind : StepCond → CondKind
  | .progress .. => .progress | .pattern _ => .pattern | .trace .. => .trace
  | .notice _ => .notice | .power _ => .power | .benchLine _ => .benchLine
  | .accessError => .accessError | .elapsed => .elapsed

/-- A report matches a step's condition (Table 7-5). -/
def StepCond.matches : StepCond → Cond → Bool
  | .progress lo hi, .progress v => decide (lo ≤ v ∧ v ≤ hi)
  | .pattern p, .pattern q => p == q
  | .trace ch value mask, .trace ch' first =>
    ch == ch' && (mask == 0 || first.any fun b => b &&& mask == value &&& mask)
  | .notice c, .notice c' => c == c'
  | .power ev, .power ev' => ev == ev'
  | .benchLine l, .benchLine l' => l == l'
  | .accessError, .accessError => true
  | _, _ => false

/-! ## Firing (R124) -/

/-- Action numbers of a set (Table 7-6). -/
def hasAct (acts : BitVec 8) (i : Nat) : Bool := acts.getLsbD i

/-- Do an action when it is in the set. -/
def whenAct (acts : BitVec 8) (i : Nat) (f : Ctx → Ctx) (c : Ctx) : Ctx :=
  if hasAct acts i then f c else c

/-- The step timer of a step that is entered: its full timeout, or none (R121). -/
def stepTimer (p : Program) (i : Fin 4) (now : Nat) : Option Nat :=
  match p.steps[i.val]? with
  | some s => if s.timeoutMs = 0 then none else some (now + s.timeoutMs * Config.ticksPerMs)
  | none => none

/-- Enter the target of a firing (R124 step 4). -/
def enterTarget (e : Env) (p : Program) (tgt : Target) (t : Station) : Station :=
  match tgt with
  | .done => { t with ts := { t.ts with state := .done } }
  | .step i => { t with ts := { t.ts with state := .armed i 0 (stepTimer p i e.now) } }

/-- The DRIVE LINE action: the station's drive on the line ends one drive width from now (R133). -/
def driveLine (e : Env) (p : Program) (l : LineNo) (t : Station) : Station :=
  { t with ts := { t.ts with
      drives := t.ts.drives.set l.val (some (e.now + p.driveUs * Config.ticksPerUs)) } }

/-- The set of a firing's actions that take effect (R12, R124 step 2). -/
def doneSet (acts : BitVec 8) (startOk stopOk haltOk pulseOk : Bool) : BitVec 8 :=
  acts &&& BitVec.ofNat 8
    (bit startOk + 2 + 4 + 8 * bit stopOk + 16 * bit haltOk + 32 * bit pulseOk + 64 + 128)

/-- The action set and the target a cause chooses (R124 step 1). -/
def Step.chosen (s : Step) : Cause → BitVec 8 × Target
  | .onMatch => (s.matchActs, s.next)
  | .onTimeout => (s.timeoutActs, s.timeoutNext)

/-- The MARK record of a step (R128). -/
def stepMark (e : Env) (p : Program) (i : Fin 4) : SrcRec :=
  SrcRec.now e (.mark p.marker (.step i) 0) RecFlags.none

/-- The TRIGGER record of a firing (R12, R127). -/
def triggerRecord (e : Env) (i : Fin 4) (s : Step) (cause : Cause) (done : BitVec 8)
    (already overrun : Bool) : SrcRec :=
  SrcRec.now e (.trigger i (s.chosen cause).2 cause s.cond.kind (s.chosen cause).1 done already overrun)
    RecFlags.none

/-- The capture state is RECORDING or STOPPING. -/
def CaptureState.admitting : CaptureState → Bool
  | .recording | .stopping _ => true
  | .stopped | .watching => false

/-- Step s fires. The outcomes are decided in firing order: STOP CAPTURE's against the capture state
that START CAPTURE and the firing's own TRIGGER and MARK records leave, which is found by offering
those records first on the side. The result tells whether a reset pulse started, whose POWER report
follows the firing (R123, R124). -/
def fire (e : Env) (p : Program) (i : Fin 4) (s : Step) (cause : Cause) (c : Ctx) : Ctx × Bool :=
  let acts := (s.chosen cause).1
  let already := hasAct acts 0 && c.st.cap.state.admitting
  let halt := c.st.haltOutcome
  let overrun := hasAct acts 4 && halt == .overrun
  let pulseOk := c.st.canPulse
  let c1 := whenAct acts 0 (startCapture e) c
  let trial := whenAct acts 2 (offerRec e (stepMark e p i))
    (whenAct acts 1 (offerRec e (triggerRecord e i s cause 0 already overrun)) c1)
  let done := doneSet acts (!c.st.cap.state.admitting) (trial.st.cap.state != .stopped) halt.isDone pulseOk
  let c2 := whenAct acts 1 (offerRec e (triggerRecord e i s cause done already overrun)) c1
  let c3 := whenAct acts 2 (offerRec e (stepMark e p i)) c2
  let c4 := whenAct acts 3 (stopCapture p.postCount) c3
  let c5 := whenAct acts 4 (haltBoard e) c4
  let c6 := whenAct acts 5 (fun c => if pulseOk then startPulse e p.pulseWidth c else c) c5
  let c7 := whenAct acts 6 (·.mod (driveLine e p s.line)) c6
  let c8 := whenAct acts 7 (·.setAttn .trigger) c7
  (c8.mod (enterTarget e p (s.chosen cause).2), hasAct acts 5 && pulseOk)

/-! ## Reports and the step timer -/

/-- The current step of an armed sequencer, with its number, counter and program. -/
def Sequencer.current (q : Sequencer) : Option (Fin 4 × Nat × Step × Program) :=
  match q.state, q.program with
  | .armed i n _, some p => (p.steps[i.val]?).map fun s => (i, n, s, p)
  | _, _ => none

/-- Set the occurrence counter of the current step. -/
def Sequencer.setCount (q : Sequencer) (n : Nat) : Sequencer :=
  match q.state with
  | .armed i _ t => { q with state := .armed i n t }
  | .disarmed | .done => q

/-- TS takes one report, whole (R119, R120); the result tells whether a reset pulse started. -/
def takeReport (e : Env) (x : Cond) (c : Ctx) : Ctx × Bool :=
  match c.st.ts.current with
  | some (i, n, s, p) =>
    if s.cond.matches x then
      if s.count ≤ n + 1 then fire e p i s .onMatch c
      else (c.mod fun t => { t with ts := t.ts.setCount (n + 1) }, false)
    else (c, false)
  | none => (c, false)

/-- The POWER report of a pulse that a firing started reaches TS after the firing (R123). A second
pulse cannot start from it, the controller being in PULSE. -/
def followUp (e : Env) (x : Ctx × Bool) : Ctx :=
  if x.2 then (takeReport e (.power .resetAsserted) x.1).1 else x.1

/-- A source reports a condition to its station's TS (R119). -/
def report (e : Env) (x : Cond) (c : Ctx) : Ctx := followUp e (takeReport e x c)

/-- The step timer expires (R122). -/
def stepTimerExpires (e : Env) (c : Ctx) : Ctx :=
  match c.st.ts.current with
  | some (i, n, s, p) =>
    if s.cond = .elapsed then
      if s.count ≤ n + 1 then followUp e (fire e p i s .onMatch c)
      else c.mod fun t => { t with ts := { t.ts with state := .armed i (n + 1) (stepTimer p i e.now) } }
    else followUp e (fire e p i s .onTimeout c)
  | none => c

/-- TS becomes DISARMED: timer cancelled, program discarded, CU's pattern set emptied (R118). -/
def disarmStation (t : Station) : Station :=
  { t with ts := { t.ts with state := .disarmed, program := none }, cu := { t.cu with patterns := [] } }

/-- Every drive of the station ends (R36, R37, R133). -/
def endDrives (t : Station) : Station :=
  { t with ts := { t.ts with drives := Vector.replicate 4 none } }

/-- A program is loaded and armed in step 0 (R117). -/
def loadProgram (e : Env) (p : Program) (t : Station) : Station :=
  { t with
    ts := { t.ts with program := some p, state := .armed 0 0 (stepTimer p 0 e.now) }
    cu := { t.cu with patterns := p.patterns } }

end Sys2Proof.Machine
end

