-- ==== Sys2Proof/Machine/Completion.lean ====
section
/-! DEFINITION. AU: responses, timeouts, retired tags, the completion of entries, the results of
access jobs, and AU's part of a link loss (R68 to R72, R75, R77 to R82). -/

namespace Sys2Proof.Machine

/-- Change the AU. -/
def Ctx.modAu (c : Ctx) (f : AccessUnit → AccessUnit) : Ctx :=
  c.mod fun t => { t with au := f t.au }

/-- Change the LP. -/
def Ctx.modLp (c : Ctx) (f : LinkPort → LinkPort) : Ctx :=
  c.mod fun t => { t with lp := f t.lp }

/-! ## Results of access jobs (R77 to R81) -/

/-- The words of the job, from word `k` on, that lie in an unbroken run of completed requests; each
request found extends the run (R81). -/
def runFrom (oks : List (Nat × Nat)) : Nat → Nat → Nat
  | 0, k => k
  | fuel + 1, k =>
    match oks.find? fun x => x.1 == k with
    | some x => runFrom oks fuel (k + x.2)
    | none => k

/-- Words counted from word 0 in an unbroken run of requests completed OK (R81). -/
def goodWords (oks : List (Nat × Nat)) : Nat := runFrom oks oks.length 0

/-- The outcome that decides an access job: the first other than OK (R81). -/
def AccessExec.outcome (a : AccessExec) : AccessOutcome := a.fail.getD .ok

/-- The result value of an access job (R77 to R81). -/
def accessValue (j : Job) (a : AccessExec) : Nat :=
  match j with
  | .blockRead _ _ _ => goodWords a.oks
  | .read _ count _ | .writeInline _ count _ | .writeBuffer _ count _ =>
    if a.fail.isNone then count else 0
  | .ping => if a.fail.isNone then a.ticks else 0
  | _ => 0

/-- The executing access job ends when no request of it is in flight and none will be issued (R81). -/
def endAccess (c : Ctx) : Ctx :=
  match c.st.head, c.st.queue with
  | .access a, q :: _ =>
    if a.flying = 0 ∧ (a.reqs = [] ∨ a.fail.isSome) then
      endHead (Res.ofOutcome a.outcome (accessValue q.job a)) c
    else c
  | _, _ => c

/-- The buffer of a READ or BLOCK READ job. -/
def Job.readBuffer : Job → Option Word64
  | .read _ _ buf | .blockRead _ _ buf => some buf
  | _ => none

/-- The round-trip time of an entry completed by a response now (R79). -/
def Entry.roundTrip (x : Entry) (now : Nat) : Nat := min (now - x.issuedAt) (65535 * 1000)

/-- An outcome taken into the executing access job's record (R77, R79, R81). -/
def AccessExec.take (a : AccessExec) (x : Entry) (o : AccessOutcome) (now : Nat) : AccessExec :=
  match o with
  | .ok => { a with flying := a.flying - 1, oks := a.oks ++ [(x.offset, x.count)]
                    ticks := x.roundTrip now }
  | .timeout | .boardError _ | .linkDown =>
    { a with flying := a.flying - 1, fail := some (a.fail.getD o) }

/-- The words of a READ completed OK go to the job's buffer as one JOB class write (R77, R80), its address
taken modulo 2^64 (log 47). -/
def readData (n : StationNo) (q : QJob) (x : Entry) (words : List Word32) (c : Ctx) : Ctx :=
  match q.job.readBuffer with
  | some buf =>
    c.emit (.present (Access.writeOf .job (some n) (buf + BitVec.ofNat 64 (4 * x.offset))
      (wordBytes words) (.data q.jid n)))
  | none => c

/-- Step 5 of a completion: the outcome reaches its owner (R72). An entry whose job is no longer the
executing one (a BLOCK READ that RESUME ended MEMORY, R170) hands its outcome to no one and its words are
discarded; the spec does not say what becomes of such entries, and the choice is the model's (log 42). -/
def toOwner (e : Env) (x : Entry) (o : AccessOutcome) (words : List Word32) (c : Ctx) : Ctx :=
  match x.owner, c.st.head, c.st.queue with
  | .job jid _, .access a, q :: _ =>
    if q.jid = jid then
      let c := if o = .ok then readData e.n q x words c else c
      endAccess (c.mod fun t => { t with head := .access (a.take x o e.now) })
    else c
  | _, _, _ => c

/-! ## Completion (R72) -/

/-- The board run state a CONTROL completed OK sets (R75). -/
def BoardRun.afterControl (b : BoardRun) (code : Nat) : BoardRun :=
  if code = 1 ∨ code = 3 then .halted else if code = 2 then .running else b

/-- The board run state a NOTICE sets (R75). -/
def BoardRun.afterNotice (b : BoardRun) (code : Byte) : BoardRun :=
  if code = 1 then .halted else if code = 2 then .running else if code = 3 then .unknown else b

/-- Step 2 of a completion. -/
def controlDone (x : Entry) (o : AccessOutcome) (c : Ctx) : Ctx :=
  if x.op = .control ∧ o = .ok then
    c.modAu fun a => { a with boardRun := a.boardRun.afterControl x.addr.toNat }
  else c

/-- The data words of an ACCESS record (R18, R72). -/
def Entry.recordWords (x : Entry) (o : AccessOutcome) (words : List Word32) : List Word32 :=
  match x.op with
  | .read => if o = .ok then words.take 8 else []
  | .write => x.kept
  | .control | .ping => []

/-- Host reference of an entry's owner, 0 for TRIGGER (R18). -/
def Owner.hostRef : Owner → Word64
  | .job _ h => h
  | .trigger => 0

/-- The ACCESS record of a completion (R18, R72). -/
def accessRecord (e : Env) (x : Entry) (o : AccessOutcome) (words : List Word32) (corrected : Bool) :
    SrcRec :=
  SrcRec.now e
    (.access x.tag x.op o (x.owner == .trigger) x.count x.owner.hostRef x.addr (x.recordWords o words))
    { RecFlags.none with corrected := corrected, sourceError := o != .ok }

/-- Steps 2 to 6 of the completion of an entry already freed (R72). -/
def complete (e : Env) (x : Entry) (o : AccessOutcome) (words : List Word32) (corrected : Bool)
    (c : Ctx) : Ctx :=
  let c := controlDone x o c
  let c := if c.st.prof.accessLogging then offerRec e (accessRecord e x o words corrected) c else c
  let c := if o = .ok then c else report e .accessError c
  (toOwner e x o words c).mod (offerEntries e)

/-- The entry with this tag is freed. -/
def AccessUnit.freeTag (a : AccessUnit) (tag : Fin 64) : AccessUnit :=
  { a with entries := a.entries.filter fun x => x.tag != tag }

/-- A request not yet begun leaves the transmit list. -/
def LinkPort.dropTag (l : LinkPort) (tag : Fin 64) : LinkPort :=
  { l with txList := l.txList.filter fun r => r.tag != tag }

/-- Step 1: the entry with this tag is freed. A request of it still in the transmit list leaves the list,
since every request there occupies an entry (R63); the spec does not speak of a response or a timeout for
such a request, and the choice is the model's (log 33). -/
def Ctx.freeEntry (c : Ctx) (tag : Fin 64) : Ctx :=
  c.mod fun t => { t with au := t.au.freeTag tag, lp := t.lp.dropTag tag }

/-! ## Responses (R68, R69) -/

/-- The word count a response must have (R68). -/
def Entry.expected (x : Entry) : Nat :=
  match x.op with
  | .read => x.count
  | .write | .control | .ping => 0

/-- Table 4-2. -/
def responseOutcome (x : Entry) (status : Byte) (w : Nat) : AccessOutcome :=
  if status = 0 then (if w = x.expected then .ok else .boardError .length)
  else if status = 1 then .boardError .addressFault
  else if status = 2 then .boardError .busy
  else .boardError .unsupported

/-- AU takes a response (R68, R69). One that comes before its request was begun completes the entry like
any other, and the request is not sent any more (log 33). -/
def takeResponse (e : Env) (tag : Nat) (status : Byte) (words : List Word32) (corrected : Bool)
    (c : Ctx) : Ctx :=
  match c.st.au.entries.find? fun x => x.tag.val == tag with
  | some x =>
    let o := responseOutcome x status words.length
    complete e x o (if o = .ok then words else []) corrected (c.freeEntry x.tag)
  | none =>
    if c.st.au.retired.any fun r => r.tag.val == tag then
      c.modLp fun l => { l with health := l.health.lateResponse }
    else c.modLp fun l => { l with health := l.health.unmatchedResponse }

/-! ## Timeouts and retired tags (R70, R71) -/

/-- The retired tag with the earliest expiry, the first to have joined among equals (R70). -/
def earliest : List RetiredTag → Option RetiredTag
  | [] => none
  | r :: rs =>
    match earliest rs with
    | some m => if m.expiry < r.expiry then some m else some r
    | none => some r

/-- A tag joins the retired list; a ninth tag releases the earliest first (R70). -/
def AccessUnit.retire (a : AccessUnit) (tag : Fin 64) (expiry : Nat) : AccessUnit :=
  let kept :=
    if a.retired.length < Config.maxRetired then a.retired
    else match earliest a.retired with
      | some m => a.retired.erase m
      | none => a.retired
  { a with retired := kept ++ [⟨tag, expiry⟩] }

/-- The response timeout of an entry is taken (R70). -/
def takeTimeout (e : Env) (tag : Fin 64) (c : Ctx) : Ctx :=
  match c.st.au.entries.find? fun x => x.tag == tag with
  | some x =>
    if due (some x.expiry) e.now then
      complete e x .timeout [] false ((c.freeEntry tag).modAu
        (·.retire tag (e.now + c.st.prof.responseTimeout * Config.ticksPer10us)))
    else c
  | none => c

/-- A retire expiry is taken (R71). -/
def takeRetireExpiry (e : Env) (tag : Fin 64) (c : Ctx) : Ctx :=
  c.modAu fun a =>
    { a with retired := a.retired.filter fun r => !(r.tag == tag && due (some r.expiry) e.now) }

/-! ## Link loss (R82) -/

/-- An executing access job with nothing in flight and a request it can no longer issue ends LINK
DOWN (R76). -/
def loseWaiting (c : Ctx) : Ctx :=
  match c.st.head with
  | .access a =>
    endAccess (c.mod fun t => { t with head := .access { a with fail := some (a.fail.getD .linkDown) } })
  | _ => c

/-- Every occupied entry completes LINK DOWN, in issue order (R82 step 1). -/
def completeDown (e : Env) (c : Ctx) : List Entry → Ctx
  | [] => c
  | x :: xs => completeDown e (complete e x .linkDown [] false (c.freeEntry x.tag)) xs

/-- AU learns of the loss of the link (R82). -/
def auLinkLoss (e : Env) (c : Ctx) : Ctx :=
  (loseWaiting (completeDown e c c.st.au.entries)).modAu fun a =>
    { a with retired := [], holder := false, boardRun := .unknown }

/-- AU emptied without completing anything (R28, R37). -/
def AccessUnit.clear (a : AccessUnit) : AccessUnit :=
  { a with entries := [], retired := [], holder := false, boardRun := .unknown }

end Sys2Proof.Machine
end

