-- ==== Sys2Proof/Machine/Console.lean ====
section
/-! DEFINITION. CU: the receiver, line assembly, the pattern matcher and the transmitter
(Chapter 5). -/

namespace Sys2Proof.Machine

/-- Change the CU. -/
def Ctx.modCu (c : Ctx) (f : ConsoleUnit → ConsoleUnit) : Ctx :=
  c.mod fun t => { t with cu := f t.cu }

/-! ## Closing a line (R87 to R91) -/

/-- No close flag. -/
def LineFlags.none : LineFlags := ⟨false, false, false, false, false⟩

/-- The CONSOLE LINE record of the current line, closed at `at'` with a close flag (R91). -/
def lineRecord (u : ConsoleUnit) (flags : LineFlags) (at' : Tick) : SrcRec :=
  let f : LineFlags := { flags with framing := u.line.any LineByte.framing }
  { payload := .consoleLine f 0 (u.line.map LineByte.val)
    flags := { RecFlags.none with sourceError := f.framing || f.brk }
    entry := at'
    first := some (if u.line.isEmpty then at' else u.origin) }

/-- The current line closes at time `at'`: its record is offered, it becomes empty, and the idle
close timer stops (R88, R91). -/
def closeLine (e : Env) (flags : LineFlags) (at' : Tick) (c : Ctx) : Ctx :=
  (offerRec e (lineRecord c.st.cu flags at') c).modCu fun u => { u with line := [], idle := none }

/-- A non-empty current line closes with CUT (R90). -/
def cutLine (e : Env) (c : Ctx) : Ctx :=
  if c.st.cu.line.isEmpty then c else closeLine e { LineFlags.none with cut := true } e.tb c

/-! ## The pattern matcher (R93) -/

/-- One position of a pattern against one stored byte. -/
def PatPos.matches (p : PatPos) (b : LineByte) : Bool :=
  b.val &&& p.care == p.value &&& p.care && (p.care == 0 || !b.framing)

/-- A pattern against its window, the last bytes of the line (R93). -/
def patternMatches (p : List PatPos) (line : List LineByte) : Bool :=
  decide (p.length ≤ line.length)
    && (p.zip (line.drop (line.length - p.length))).all fun x => x.1.matches x.2

/-- Numbers of the patterns that match, ascending (R93). -/
def matchingPatterns (ps : List (List PatPos)) (line : List LineByte) : List Nat :=
  (List.range ps.length).filter fun i => patternMatches (ps.getD i []) line

/-! ## Line assembly (R86, R87) -/

/-- The idle close timer is restarted from the full interval (R88). -/
def restartIdle (e : Env) (t : Station) : Station :=
  { t with cu := { t.cu with idle := some (e.now + t.prof.idleCloseMs * Config.ticksPerMs) } }

/-- A byte is stored: it joins the line, the idle close timer is restarted, the patterns are compared
and reported, and the line limit is checked (R86, R87, R93). -/
def storeByte (e : Env) (b : LineByte) (time : Tick) (c : Ctx) : Ctx :=
  let c := (c.modCu fun u => { u with line := u.line ++ [b] }).mod (restartIdle e)
  let c := (matchingPatterns c.st.cu.patterns c.st.cu.line).foldl (fun c p => report e (.pattern p) c) c
  if c.st.prof.lineLimit ≤ c.st.cu.line.length then
    closeLine e { LineFlags.none with split := true } time c
  else c

/-- Line assembly takes a byte with its byte time (R86; log 36). -/
def takeByte (e : Env) (b : LineByte) (time : Tick) (c : Ctx) : Ctx :=
  let c := if c.st.cu.line.isEmpty then c.modCu fun u => { u with origin := time } else c
  if b.val = 0x0A ∧ b.framing = false then closeLine e LineFlags.none time c else storeByte e b time c

/-! ## The receiver (R83 to R85) -/

/-- The receiver is turned on when console enable is ON (R83). -/
def consoleOn (t : Station) : Station :=
  if t.prof.consoleEnable then { t with cu := { t.cu with rx := .idle } } else t

/-- The receiver is turned off (R83). -/
def consoleOff (t : Station) : Station := { t with cu := { t.cu with rx := .off } }

/-- A start edge (R84). A further fall between a start edge and its start bit sample does nothing: R84 watches
for falls in IDLE, to which a false start only returns at that sample, and R83 names no state between; that
it is ignored is the model's deduction (DEDUCED, log 59). -/
def startEdge (e : Env) (c : Ctx) : Ctx :=
  match c.st.cu.rx with
  | .idle => c.modCu fun u => { u with rx := .starting e.now c.st.prof.divisor }
  | .off | .starting _ _ | .receiving _ _ | .held _ _ _ => c

/-- The start bit sample (R84). -/
def startSample (e : Env) (high : Bool) (c : Ctx) : Ctx :=
  match c.st.cu.rx with
  | .starting edge d =>
    if edge + d / 2 ≤ e.now then
      if high then c.modCu fun u => { u with rx := .idle }
      else
        let c := c.modCu fun u => { u with rx := .receiving edge d }
        if c.st.cu.line.isEmpty then c else c.mod (restartIdle e)
    else c
  | .off | .idle | .receiving _ _ | .held _ _ _ => c

/-- The stop bit sample (R84, R85). -/
def stopSample (e : Env) (data : Byte) (stop : Bool) (c : Ctx) : Ctx :=
  match c.st.cu.rx with
  | .receiving edge d =>
    if edge + d / 2 + 9 * d ≤ e.now then
      if stop = false ∧ data = 0 then c.modCu fun u => { u with rx := .held edge d e.tb }
      else takeByte e ⟨data, !stop⟩ e.tb (c.modCu fun u => { u with rx := .idle })
    else c
  | .off | .idle | .starting _ _ | .held _ _ _ => c

/-- The RX line rises while a byte is held (R85). -/
def heldRise (e : Env) (c : Ctx) : Ctx :=
  match c.st.cu.rx with
  | .held _ _ time => takeByte e ⟨0, true⟩ time (c.modCu fun u => { u with rx := .idle })
  | .off | .idle | .starting _ _ | .receiving _ _ => c

/-- The BREAK threshold (R85, R89). -/
def breakThreshold (e : Env) (c : Ctx) : Ctx :=
  match c.st.cu.rx with
  | .held edge d _ =>
    if edge + 20 * d ≤ e.now then
      closeLine e { LineFlags.none with brk := true } e.tb (c.modCu fun u => { u with rx := .idle })
    else c
  | .off | .idle | .starting _ _ | .receiving _ _ => c

/-- The idle close timer expires (R88). -/
def idleExpires (e : Env) (c : Ctx) : Ctx :=
  if due c.st.cu.idle e.now then closeLine e { LineFlags.none with idleClosed := true } e.tb c else c

/-! ## Transmission (R94 to R96) -/

/-- The end of a frame's stop bit: ten bits of d ticks after its beginning (R94). -/
def TxByte.ends (x : TxByte) : Nat := x.begins + 10 * x.divisor

/-- The bits of a frame in the order they are sent: a low start bit, the data bits least significant
first, a high stop bit (R94). -/
def frameBits (b : Byte) : List Bool := false :: (List.range 8).map b.getLsbD ++ [true]

/-- The TX line: the bit of the frame in progress, each held for d ticks, and high at rest (R94). -/
def ConsoleUnit.txLine (u : ConsoleUnit) (now : Nat) : Bool :=
  match u.tx with
  | some x => (frameBits x.val).getD ((now - x.begins) / x.divisor) true
  | none => true

/-- The transmitter begins the oldest queued byte when it is IDLE (R94). -/
def beginTx (e : Env) (t : Station) : Station :=
  match t.cu.tx, t.cu.sendQ with
  | none, b :: rest =>
    { t with cu := { t.cu with sendQ := rest, tx := some ⟨b, t.prof.divisor, e.now⟩ } }
  | _, _ => t

/-- CONSOLE SEND at the head (R95). -/
def sendConsole (e : Env) (count : Nat) (bytes : List Byte) (c : Ctx) : Ctx :=
  if c.st.bpu.state = .on then
    c.mod fun t =>
      beginTx e { t with head := .consoleSend count 0, cu := { t.cu with sendQ := t.cu.sendQ ++ bytes } }
  else endHead (Res.ended .state) c

/-- A byte of the send has left: the job at the head counts it and ends with its last (R95). -/
def countSent (c : Ctx) : Ctx :=
  match c.st.head with
  | .consoleSend total sent =>
    if total ≤ sent + 1 then endHead (Res.okv total) c
    else c.mod fun t => { t with head := .consoleSend total (sent + 1) }
  | _ => c

/-- The end of a stop bit (R94, R95). -/
def byteSent (e : Env) (c : Ctx) : Ctx :=
  match c.st.cu.tx with
  | some b =>
    if due (some b.ends) e.now then
      (countSent (c.modCu fun u => { u with tx := none })).mod (beginTx e)
    else c
  | none => c

/-- The send queue is emptied and a frame in progress cut off (R96). -/
def ConsoleUnit.cutSend (u : ConsoleUnit) : ConsoleUnit := { u with sendQ := [], tx := none }

/-- A CONSOLE SEND at the head ends POWER FAULT with the bytes sent (R96). -/
def endSend (k : FaultKind) (c : Ctx) : Ctx :=
  match c.st.head with
  | .consoleSend _ sent => endHead (Res.powerFault k sent) (c.modCu (·.cutSend))
  | _ => c

/-- BPU tells CU that the power state left ON, by the fault `k` or none (R90, R96, R98 step 4). -/
def powerLeft (e : Env) (k : FaultKind) (c : Ctx) : Ctx := endSend k (cutLine e c)

/-- CU's part of ABANDON: line, reception and send queue discarded (R37, R90, R96). -/
def ConsoleUnit.discard (u : ConsoleUnit) : ConsoleUnit :=
  { u with rx := .off, line := [], idle := none, patterns := [], sendQ := [], tx := none }

/-- CU at ENABLE, its receiver still off (R28, Table 5-1). -/
def ConsoleUnit.enable (u : ConsoleUnit) : ConsoleUnit := u.discard

end Sys2Proof.Machine
end

