-- ==== Sys2Proof/Machine/Power.lean ====
section
/-! DEFINITION. BPU: seating, ramps, faults, retries, modes, the reset controller and its jobs
(Chapter 6). -/

namespace Sys2Proof.Machine

/-! ## Outputs (R97) -/

/-- PWR_EN of a station. -/
def PowerUnit.pwrEn (b : PowerUnit) : Bool :=
  match b.state with
  | .ramping | .on => true
  | .inactive | .absent | .seated | .cooldown => false

/-- BOARD_RESET is released: ON with the controller RELEASED (R97, Table 6-3). -/
def PowerUnit.released (b : PowerUnit) : Bool := b.state == .on && b.ctl == .released

/-- BOARD_RESET of a station, true when asserted. -/
def PowerUnit.boardReset (b : PowerUnit) : Bool := !b.released

/-! ## Power events (R98) -/

/-- Steps 2 to 4 of a power event whose state change has been made; `leftOn` tells whether that
change left ON. -/
def powerEvent (e : Env) (ev : PowerEv) (leftOn : Bool) (c : Ctx) : Ctx :=
  let c := report e (.power ev) (offerPower e ev c)
  let c := if leftOn then powerLeft e (ev.faultOf.getD .none) c else c
  if ev.faultOf.isSome then c.setAttn .powerFault else c

/-- A POWER ON or RESET PULSE at the head ends POWER FAULT with a fault kind (R111, R113). -/
def endPowerJob (k : FaultKind) (c : Ctx) : Ctx :=
  match c.st.head with
  | .ramp _ | .pulse _ _ => endHead (Res.powerFault k 0) c
  | _ => c

/-- The ramp, inrush, overload filter, reset delay and reset pulse timers cancelled. -/
def PowerUnit.stopPowered (b : PowerUnit) : PowerUnit :=
  { b with ramp := none, inrush := none, overload := none, delay := none, pulse := none }

/-- Every timer of Chapter 6 cancelled. -/
def PowerUnit.stopAll (b : PowerUnit) : PowerUnit :=
  { b.stopPowered with autoSettle := none, cooldown := none }

/-- The held progress code after a departure that asserts BOARD_RESET (R110). -/
def PowerUnit.heldAfter (b : PowerUnit) : Option ProgressCode := if b.released then none else b.held

/-- INACTIVE is entered (R100). -/
def PowerUnit.inactivate (b : PowerUnit) : PowerUnit :=
  { b.stopAll with state := .inactive, held := none }

/-! ## Reset controller (R108, R109) -/

/-- The end of a reset delay or pulse: HELD under the hold flag, else RELEASED with its event. -/
def endAssertion (e : Env) (c : Ctx) : Ctx :=
  let c := c.modBpu fun b => { b with delay := none, pulse := none }
  if c.st.bpu.hold then c.modBpu fun b => { b with ctl := .held }
  else powerEvent e .resetReleased false (c.modBpu fun b => { b with ctl := .released })

/-! ## Ramps (R101, R103) -/

/-- The overload filter starts (R104). -/
def startFilter (e : Env) (t : Station) : Station :=
  { t with bpu := { t.bpu with overload := some (e.now + t.prof.overloadUs * Config.ticksPerUs) } }

/-- A POWER ON at the head completes at POWER GOOD (R111). -/
def endRampJob (e : Env) (c : Ctx) : Ctx :=
  match c.st.head with
  | .ramp started => endHead (Res.okv ((e.now - started) / Config.ticksPerMs)) c
  | _ => c

/-- PWR_GOOD is found asserted in RAMPING (R103); a reset delay of 0 expires at once (R108). -/
def powerGood (e : Env) (c : Ctx) : Ctx :=
  let ms := c.st.prof.resetDelayMs
  let c := c.modBpu fun b =>
    { b with state := .on, ramp := none, retry := 0, ctl := .delay
             delay := some (e.now + ms * Config.ticksPerMs) }
  let c := endRampJob e (powerEvent e .powerGood false c)
  if ms = 0 then endAssertion e c else c

/-- RAMPING is entered (R101); an inrush window of 0 is closed from the start (R101, R104). -/
def enterRamping (e : Env) (c : Ctx) : Ctx :=
  let p := c.st.prof
  let c := c.modBpu fun b =>
    { b with state := .ramping, held := none, autoSettle := none, cooldown := none
             ramp := some (e.now + p.rampMs * Config.ticksPerMs)
             inrush := if p.inrushMs = 0 then none else some (e.now + p.inrushMs * Config.ticksPerMs) }
  let c := if p.inrushMs = 0 ∧ e.pin.overload then c.mod (startFilter e) else c
  let c := powerEvent e .rampStart false c
  if e.pin.pwrGood then powerGood e c else c

/-! ## Auto settle (R102) -/

/-- The auto settle timer has expired. -/
def settleDecides (e : Env) (c : Ctx) : Ctx :=
  let b := c.st.bpu
  if c.st.prof.classMask.getLsbD b.cls.toNat ∧ b.latched = .none then enterRamping e c
  else c.modBpu fun b => { b with autoSettle := none }

/-- The auto settle timer starts; an interval of 0 expires at once. -/
def startSettle (e : Env) (c : Ctx) : Ctx :=
  if c.st.prof.autoSettleMs = 0 then settleDecides e c
  else c.modBpu fun b =>
    { b with autoSettle := some (e.now + c.st.prof.autoSettleMs * Config.ticksPerMs) }

/-! ## Seating and removal (R99, R106) -/

/-- A board is seated: class sampled, SEATED taken, auto settle started in mode AUTO. -/
def seat (e : Env) (c : Ctx) : Ctx :=
  let c := powerEvent e .seated false
    (c.modBpu fun b => { b with state := .seated, cls := e.pin.straps })
  if c.st.prof.powerMode = .auto then startSettle e c else c

/-- The settled PRESENT input falls with a board seated. -/
def remove (e : Env) (c : Ctx) : Ctx :=
  let wasOn := c.st.bpu.state == .on
  let c := c.modBpu fun b =>
    { b.stopAll with state := .absent, latched := .none, retry := 0, held := b.heldAfter }
  endPowerJob .none (powerEvent e .removed wasOn c)

/-- BPU takes a change of the settled PRESENT value (R99, R106). -/
def presentSettled (e : Env) (c : Ctx) : Ctx :=
  match c.st.bpu.state with
  | .absent => if e.pin.settled then seat e c else c
  | .seated | .ramping | .on | .cooldown => if e.pin.settled then c else remove e c
  | .inactive => c

/-! ## Faults and cooldown (R104, R105) -/

/-- The event of a fault. -/
def FaultKind.event : FaultKind → PowerEv
  | .ramp => .rampFault
  | .overload => .overloadFault
  | .powerLost | .none => .powerLostFault

/-- A fault is taken in RAMPING or ON (R104). -/
def takeFault (e : Env) (k : FaultKind) (c : Ctx) : Ctx :=
  let wasOn := c.st.bpu.state == .on
  let ms := c.st.prof.cooldownMs
  let c := c.modBpu fun b =>
    { b.stopPowered with
      state := .cooldown, cooldownFault := k, held := b.heldAfter
      cooldown := some (e.now + ms * Config.ticksPerMs) }
  endPowerJob k (powerEvent e k.event wasOn c)

/-- The cooldown timer expires (R105). -/
def cooldownExpires (e : Env) (c : Ctx) : Ctx :=
  let p := c.st.prof
  if p.powerMode = .auto ∧ c.st.bpu.retry < p.retryLimit then
    enterRamping e (c.modBpu fun b => { b with retry := b.retry + 1 })
  else
    powerEvent e .faultLatched false
      (c.modBpu fun b => { b with state := .seated, cooldown := none, latched := b.cooldownFault })

/-! ## Input edges (R103, R104) -/

/-- PWR_GOOD rises: in RAMPING it is found asserted (R103). -/
def goodRises (e : Env) (c : Ctx) : Ctx := if c.st.bpu.state = .ramping then powerGood e c else c

/-- PWR_GOOD falls: in ON the fault POWER LOST (R103). -/
def goodFalls (e : Env) (c : Ctx) : Ctx := if c.st.bpu.state = .on then takeFault e .powerLost c else c

/-- OVERLOAD rises: with the inrush window closed the filter starts (R104). -/
def overloadRises (e : Env) (c : Ctx) : Ctx :=
  if c.st.bpu.pwrEn ∧ c.st.bpu.inrush = none then c.mod (startFilter e) else c

/-- OVERLOAD falls: the filter is cancelled (R104). -/
def overloadFalls (c : Ctx) : Ctx := c.modBpu fun b => { b with overload := none }

/-- The inrush window closes (R104). -/
def inrushCloses (e : Env) (c : Ctx) : Ctx :=
  let c := c.modBpu fun b => { b with inrush := none }
  if c.st.bpu.pwrEn ∧ e.pin.overload then c.mod (startFilter e) else c

/-! ## Power modes (R107) -/

/-- The station becomes unpowered and SEATED with the OFF event (R107, R112). -/
def switchOff (e : Env) (c : Ctx) : Ctx :=
  let wasOn := c.st.bpu.state == .on
  powerEvent e .off wasOn (c.modBpu fun b =>
    { b.stopPowered with state := .seated, cooldown := none, held := b.heldAfter })

/-- Steps 2 and 3 of a mode change in COOLDOWN and SEATED. -/
def modeStops (e : Env) (c : Ctx) : Ctx :=
  match c.st.bpu.state with
  | .cooldown => switchOff e c
  | .seated => c.modBpu fun b => { b with autoSettle := none }
  | .inactive | .absent | .ramping | .on => c

/-- The profile's power mode becomes `m`. -/
def Station.setMode (t : Station) (m : PowerMode) : Station :=
  { t with profile := t.profile.map fun p => { p with powerMode := m } }

/-- A change of mode from `old` to `new` (R107). -/
def changeMode (e : Env) (old new : PowerMode) (c : Ctx) : Ctx :=
  let c := c.modBpu fun b => { b with latched := .none, retry := 0 }
  match old, new with
  | _, .off => if c.st.bpu.pwrEn then switchOff e c else modeStops e c
  | .auto, .manual => modeStops e c
  | _, .auto => if c.st.bpu.state = .seated then startSettle e c else c
  | .off, .manual | .manual, .manual => c

/-! ## Jobs (R111 to R113) -/

/-- POWER ON at the head (R111). -/
def powerOnJob (e : Env) (c : Ctx) : Ctx :=
  if c.st.bpu.state = .seated ∧ c.st.prof.powerMode ≠ .off then
    enterRamping e ((c.mod fun t => { t with head := .ramp e.now }).modBpu fun b =>
      { b with latched := .none, retry := 0, autoSettle := none })
  else endHead (Res.ended .state) c

/-- POWER OFF at the head (R112). -/
def powerOffJob (e : Env) (c : Ctx) : Ctx :=
  if c.st.bpu.pwrEn then endHead (Res.okv 1) (switchOff e c) else endHead (Res.okv 0) c

/-- SET MODE at the head (R112). -/
def setModeJob (e : Env) (m : PowerMode) (c : Ctx) : Ctx :=
  let old := c.st.prof.powerMode
  if old = m then endHead (Res.okv 0) c
  else endHead (Res.okv 1) (changeMode e old m (c.mod (·.setMode m)))

/-- RESET PULSE at the head, its width not yet clamped (R109, R113, Table 6-4). -/
def resetPulseJob (e : Env) (width : Nat) (c : Ctx) : Ctx :=
  let w := max 1 width
  if c.st.canPulse then
    report e (.power .resetAsserted)
      (startPulse e w (c.mod fun t => { t with head := .pulse w (decide (width = 0)) }))
  else endHead (Res.ended .state) c

/-- A RESET PULSE at the head completes with its pulse (R113). -/
def endPulseJob (c : Ctx) : Ctx :=
  match c.st.head with
  | .pulse w clamped => endHead ⟨.ok, clamped, 0, w⟩ c
  | _ => c

/-- The pulse timer expires (R109, R113). -/
def pulseExpires (e : Env) (c : Ctx) : Ctx := endPulseJob (endAssertion e c)

/-- RESET HOLD at the head (R108, R113). -/
def resetHoldJob (e : Env) (c : Ctx) : Ctx :=
  let c := c.modBpu fun b => { b with hold := true }
  if c.st.bpu.released then
    endHead (Res.okv 1) (powerEvent e .resetAsserted false
      (c.modBpu fun b => { b with ctl := .held, held := none }))
  else endHead (Res.okv 0) c

/-- RESET RELEASE at the head (R108, R113). -/
def resetReleaseJob (e : Env) (c : Ctx) : Ctx :=
  let c := c.modBpu fun b => { b with hold := false }
  if c.st.bpu.state = .on ∧ c.st.bpu.ctl = .held then
    endHead (Res.okv 1) (powerEvent e .resetReleased false
      (c.modBpu fun b => { b with ctl := .released }))
  else endHead (Res.okv 0) c

/-- BPU at ENABLE before a board is looked for (R28). -/
def PowerUnit.enable (_ : PowerUnit) : PowerUnit := { PowerUnit.reset with state := .absent }

/-- A board is looked for at ENABLE and at the end of a wake interval (R28, R34, R99). -/
def findBoard (e : Env) (c : Ctx) : Ctx :=
  if e.pin.settled then seat e c else c.modBpu fun b => { b with state := .absent }

end Sys2Proof.Machine
end

