-- ==== Sys2Proof/Machine/Link.lean ====
section
/-! DEFINITION. LP: link state, packet reception, the health accumulator's quiet timer, transmission
(Chapter 3). -/

namespace Sys2Proof.Machine

/-! ## The quiet timer (R60, R61) -/

/-- The quiet timer is restarted from the full health interval; it does not run in PARKED (R33,
log 21). -/
def restartQuiet (e : Env) (t : Station) : Station :=
  if t.state = .parked then t
  else { t with lp := { t.lp with quiet := some (e.now + t.prof.healthMs * Config.ticksPerMs) } }

/-- The accumulator is empty (section 3.6). -/
def Health.isEmpty (h : Health) : Bool := h == Health.empty

/-- The quiet timer expires (R60). -/
def quietExpires (e : Env) (c : Ctx) : Ctx :=
  let h := c.st.lp.health
  let c := c.modLp fun l => { l with quiet := none }
  if h.isEmpty then c
  else offerRec e (SrcRec.now e (.linkHealth h) RecFlags.none)
    (c.modLp fun l => { l with health := Health.empty })

/-! ## Link state (R43 to R45) -/

/-- Signal acquired (R43). -/
def signalUp (c : Ctx) : Ctx :=
  if c.st.lp.rxOn && !c.st.lp.up then (c.modLp fun l => { l with up := true }).setAttn .linkChange
  else c

/-- A packet in progress is discarded at the loss of the link (R44 step 1). -/
def dropPacket (e : Env) (c : Ctx) : Ctx :=
  match c.st.lp.packet with
  | some _ =>
    (c.modLp fun l => { l with packet := none, health := l.health.discard 0 }).mod (restartQuiet e)
  | none => c

/-- The link goes DOWN with the steps of R44. -/
def linkLoss (e : Env) (c : Ctx) : Ctx :=
  let c := dropPacket e (c.modLp fun l => { l with up := false })
  let c := c.modLp fun l => { l with txList := [], sending := none }
  (auLinkLoss e c).setAttn .linkChange

/-- Signal lost (R44). -/
def signalDown (e : Env) (c : Ctx) : Ctx := if c.st.lp.up then linkLoss e c else c

/-- The link receiver is turned on (R45, R46). -/
def LinkPort.turnOn (l : LinkPort) : LinkPort := { l with rxOn := true, packet := none }

/-- The link receiver is turned off, with a link loss when the link was UP (R45, R61). -/
def linkOff (e : Env) (c : Ctx) : Ctx :=
  (signalDown e c).modLp fun l => { l with rxOn := false, packet := none, quiet := none }

/-- LP at ENABLE (R28, R61). -/
def LinkPort.enable (l : LinkPort) (quiet : Nat) : LinkPort :=
  { l with rxOn := true, up := false, packet := none, health := Health.empty, quiet := some quiet
           txList := [], sending := none }

/-! ## Items (R46, R47) -/

/-- A data byte (R46). -/
def PacketBuf.push (p : PacketBuf) (b : Byte) : PacketBuf :=
  { bytes := if p.count < Config.packetStore then p.bytes ++ [b] else p.bytes, count := p.count + 1 }

/-- A data byte arrives (R46). -/
def takeDataByte (b : Byte) (c : Ctx) : Ctx :=
  if c.st.lp.up then c.modLp fun l => { l with packet := l.packet.map (·.push b) } else c

/-- A start delimiter arrives: in IDLE it cancels the quiet timer (R46, R47, R60; log 37). -/
def takeStart (c : Ctx) : Ctx :=
  if c.st.lp.up then
    c.modLp fun l =>
      match l.packet with
      | some _ => { l with packet := some ⟨[], 0⟩, health := l.health.discard 0 }
      | none => { l with packet := some ⟨[], 0⟩, quiet := none }
  else c

/-- An end delimiter in IDLE (R47, R60). -/
def takeEndInIdle (e : Env) (c : Ctx) : Ctx :=
  if c.st.lp.up && c.st.lp.packet.isNone then
    (c.modLp fun l => { l with health := l.health.framing }).mod (restartQuiet e)
  else c

/-! ## Packet ends (R46, R48 to R58) -/

/-- The verdict on the packet in progress, which its end delimiter would give. -/
def LinkPort.verdict (l : LinkPort) : Option PacketVerdict :=
  if l.up then l.packet.map packetVerdict else none

/-- The end of a packet: the decoder is IDLE, the quiet timer restarts, a correction is counted
(R46, R50, R60). -/
def endPacket (e : Env) (corrected : Bool) (c : Ctx) : Ctx :=
  (c.modLp fun l =>
    { l with packet := none, health := if corrected then l.health.correct else l.health }).mod
      (restartQuiet e)

/-- Flag number of a discard (section 12.4). -/
def DiscardFlag.num : DiscardFlag → Nat
  | .framing => 0 | .uncorrectable => 2 | .length => 3 | .crc => 4 | .unknownKind => 5

/-- Header flags of a record formed from a packet (R7). -/
def packetFlags (corrected truncated : Bool) : RecFlags :=
  { RecFlags.none with corrected := corrected, truncated := truncated }

/-- A TRACE packet is accepted (R54). -/
def acceptTrace (e : Env) (corrected : Bool) (ch : BitVec 3) (payload : List Byte) (c : Ctx) : Ctx :=
  let p := c.st.prof
  if p.channelMask.getLsbD ch.toNat then
    report e (.trace ch.toNat payload.head?)
      (offerRec e (SrcRec.now e (.linkTrace ch payload.length (payload.take p.payloadLimit))
        (packetFlags corrected (decide (p.payloadLimit < payload.length)))) c)
  else c.modLp fun l => { l with health := l.health.filter }

/-- A PROGRESS packet is accepted (R55). -/
def acceptProgress (e : Env) (corrected : Bool) (payload : List Byte) (c : Ctx) : Ctx :=
  let v := leNat payload
  let c := c.modBpu fun b => { b with held := some ⟨payload.length, BitVec.ofNat 32 v⟩ }
  report e (.progress v)
    (offerRec e (SrcRec.now e (.progress payload.length (BitVec.ofNat 32 v))
      (packetFlags corrected false)) c)

/-- A NOTICE packet is accepted (R57). -/
def acceptNotice (e : Env) (corrected : Bool) (code : Byte) (rest : List Byte) (c : Ctx) : Ctx :=
  let c := c.modAu fun a => { a with boardRun := a.boardRun.afterNotice code }
  let c := report e (.notice code)
    (offerRec e (SrcRec.now e (.notice code (rest.take 16))
      (packetFlags corrected (decide (16 < rest.length)))) c)
  if code = 1 then c.setAttn .boardNotice else c

/-- A packet that fails a check ends (R48). -/
def endDiscarded (e : Env) (c : Ctx) : Ctx :=
  match c.st.lp.verdict with
  | some ⟨corrected, .inl f⟩ =>
    (endPacket e corrected c).modLp fun l => { l with health := l.health.discard f.num }
  | some ⟨_, .inr _⟩ | none => c

/-- An accepted TRACE packet ends. -/
def endTrace (e : Env) (c : Ctx) : Ctx :=
  match c.st.lp.verdict with
  | some ⟨corrected, .inr (.trace ch payload)⟩ =>
    acceptTrace e corrected ch payload (endPacket e corrected c)
  | _ => c

/-- An accepted PROGRESS packet ends. -/
def endProgress (e : Env) (c : Ctx) : Ctx :=
  match c.st.lp.verdict with
  | some ⟨corrected, .inr (.progress payload)⟩ =>
    acceptProgress e corrected payload (endPacket e corrected c)
  | _ => c

/-- An accepted RESPONSE packet ends (R56). -/
def endResponse (e : Env) (c : Ctx) : Ctx :=
  match c.st.lp.verdict with
  | some ⟨corrected, .inr (.response tag status words)⟩ =>
    takeResponse e tag status words corrected (endPacket e corrected c)
  | _ => c

/-- An accepted NOTICE packet ends. -/
def endNotice (e : Env) (c : Ctx) : Ctx :=
  match c.st.lp.verdict with
  | some ⟨corrected, .inr (.notice code rest)⟩ =>
    acceptNotice e corrected code rest (endPacket e corrected c)
  | _ => c

/-! ## Transmission (R63) -/

/-- The transmitter finishes a packet and begins the next. -/
def transmitted (c : Ctx) : Ctx :=
  c.modLp fun l => match l.sending with
    | some _ => ({ l with sending := none }).kick
    | none => l

end Sys2Proof.Machine
end

