-- ==== Sys2Proof/Machine/Heads.lean ====
section
/-! DEFINITION. Queued jobs at the head of a station's queue: the head check (R27), CONFIGURE, PARK,
UNPARK, QUIESCE, the access jobs, ARM and CAPTURE START (Chapters 2, 4, 7, 8). -/

namespace Sys2Proof.Machine

/-! ## The head check (R27) -/

/-- The job at the head, while it has not been checked there. -/
def Station.waitingJob (t : Station) : Option Job :=
  match t.head, t.queue with
  | .waiting, q :: _ => some q.job
  | _, _ => none

/-- The result R27 and R34 refuse a job with at the head, by the station state. -/
def Station.headRefusal (t : Station) (j : Job) : Option ResultCode :=
  match t.state with
  | .ready => if j = .unpark then some .state else none
  | .quiescing => if j = .park ∨ j = .unpark then some .state else none
  | .parked => if j = .unpark then none else some .unavailable
  | .off => some .unavailable

/-- The head check: a refused job ends with the refusal, any other does `f`. -/
def gated (j : Job) (f : Ctx → Ctx) (c : Ctx) : Ctx :=
  match c.st.headRefusal j with
  | some code => endHead (Res.ended code) c
  | none => f c

/-- The number of the held job at the head. -/
def Station.headJid (t : Station) : Option Nat := t.queue.head?.map QJob.jid

/-- Put the head job into a phase. -/
def Ctx.setHead (c : Ctx) (h : Head) : Ctx := c.mod fun t => { t with head := h }

/-! ## CONFIGURE (R30, R31) -/

/-- The job number of the head, 0 for an empty queue (then no caller uses it). -/
def Station.jidD (t : Station) : Nat := t.headJid.getD 0

/-- CONFIGURE at the head (R30). -/
def configureJob (e : Env) (addr : Word64) (c : Ctx) : Ctx :=
  if c.st.cap.state = .stopped ∧ c.st.ts.state = .disarmed then
    (c.setHead .profileRead).emit
      (.present (Access.readOf .job (some e.n) addr 64 (.profileRead c.st.jidD e.n)))
  else endHead (Res.ended .state) c

/-- The console's part of a profile change (R31, R83, R90). -/
def consoleChange (e : Env) (old new : Bool) (c : Ctx) : Ctx :=
  match old, new with
  | true, false => (cutLine e c).mod consoleOff
  | false, true => c.mod consoleOn
  | true, true | false, false => c

/-- Every field of the profile takes its new value, with the effects of R31. -/
def applyProfile (e : Env) (p : Profile) (c : Ctx) : Ctx :=
  let old := c.st.prof
  let c := c.mod fun t =>
    { t with
      profile := some p
      cap := if old.timeShift = p.timeShift then t.cap else t.cap.invalidate .enable }
  let c := consoleChange e old.consoleEnable p.consoleEnable c
  if old.powerMode = p.powerMode then c else changeMode e old.powerMode p.powerMode c

/-- The profile record arrives (R29, R30). -/
def profileArrives (e : Env) (data : List Byte) (c : Ctx) : Ctx :=
  match profileOf data with
  | some (p, clamped) => endHead ⟨.ok, clamped, 0, 0⟩ (applyProfile e p c)
  | none => endHead (Res.ended .badParameter) c

/-! ## PARK and UNPARK (R32, R34) -/

/-- The conditions of PARK once its wait has ended (R32). -/
def Station.mayPark (t : Station) : Bool :=
  t.state == .ready && t.cap.state == .stopped && t.ts.state == .disarmed
    && (t.bpu.state == .absent || t.bpu.state == .seated)

/-- The wait of PARK ends (R32). -/
def endPark (e : Env) (c : Ctx) : Ctx :=
  if c.st.mayPark then
    let c := linkOff e (c.modBpu (·.inactivate))
    let c := (cutLine e c).mod consoleOff
    endHead (Res.okv 0) (c.mod fun t => { t with state := .parked })
  else endHead (Res.ended .state) c

/-- A PARK at the head whose table and holder are empty goes on (R32; log 27). -/
def parkCheck (e : Env) (c : Ctx) : Ctx :=
  if c.st.head = .parkWait ∧ c.st.au.entries = [] ∧ c.st.au.holder = false then endPark e c else c

/-- PARK at the head (R32). -/
def parkJob (e : Env) (c : Ctx) : Ctx := parkCheck e (c.setHead .parkWait)

/-- UNPARK at the head in PARKED (R34). -/
def unparkJob (e : Env) (c : Ctx) : Ctx :=
  (c.modLp (·.turnOn)).mod fun t =>
    consoleOn { t with head := .wakeInterval (e.now + Config.wakeTicks) }

/-- The wake interval ends (R34). -/
def wakeEnds (e : Env) (c : Ctx) : Ctx :=
  match c.st.head with
  | .wakeInterval d =>
    if due (some d) e.now then
      let c := c.modLp fun l =>
        { l with quiet := some (e.now + c.st.prof.healthMs * Config.ticksPerMs) }
      endHead (Res.okv 0) ((findBoard e c).mod fun t => { t with state := .ready })
    else c
  | _ => c

/-! ## QUIESCE (R36) -/

/-- Steps 1 and 2 of QUIESCE; the drain is PGM's (Machine/Pages.lean). -/
def quiesceJob (e : Env) (c : Ctx) : Ctx :=
  let c := c.mod fun t => endDrives (disarmStation { t with cap := t.cap.cut, head := .quiesceDrain })
  let wasOn := c.st.bpu.state == .on
  let c := c.modBpu (·.inactivate)
  let c := if wasOn then powerLeft e .none c else c
  (cutLine e (linkOff e c)).mod consoleOff

/-! ## Access jobs (R76 to R80) -/

/-- An access job starts with its requests, when the link is UP (R76). -/
def startAccess (e : Env) (reqs : List ReqSpec) (c : Ctx) : Ctx :=
  if c.st.lp.up then (c.setHead (.access ⟨reqs, 0, none, [], 0⟩)).mod (offerEntries e)
  else endHead (Res.ended .linkDown) c

/-- The READ requests of `left` words from word `off` of a job on, `r` words each (R80). The spec gives no
refusal where the address passes 2^64 - 1; the sum is taken modulo 2^64, the model's choice (log 47). -/
def readRequests (addr : Word64) (r : Nat) : Nat → Nat → Nat → List ReqSpec
  | 0, _, _ => []
  | fuel + 1, off, left =>
    if left = 0 then []
    else ⟨.read, addr + BitVec.ofNat 64 (4 * off), [], min r left, off⟩
      :: readRequests addr r fuel (off + r) (left - r)

/-- The requests of a BLOCK READ (R80). -/
def blockRequests (addr : Word64) (r count : Nat) : List ReqSpec := readRequests addr r count 0 count

/-- WRITE with source BUFFER at the head: the words are read first (R78). -/
def writeBufferJob (e : Env) (count : Nat) (buf : Word64) (c : Ctx) : Ctx :=
  if c.st.lp.up then
    (c.setHead .writeDataRead).emit
      (.present (Access.readOf .job (some e.n) buf (4 * count) (.writeData c.st.jidD e.n)))
  else endHead (Res.ended .linkDown) c

/-- The words of a WRITE arrive (R78). -/
def writeDataArrives (e : Env) (data : List Byte) (c : Ctx) : Ctx :=
  match c.st.queue with
  | ⟨_, _, .writeBuffer addr count _⟩ :: _ =>
    startAccess e [⟨.write, addr, wordsOf data count, count, 0⟩] c
  | _ => c

/-! ## ARM (R115 to R117) -/

/-- ARM at the head: the program record is read as two accesses (R115; log 9), the second's address taken
modulo 2^64 (log 47). -/
def armJob (e : Env) (addr : Word64) (c : Ctx) : Ctx :=
  match c.st.ts.state with
  | .armed _ _ _ => endHead (Res.ended .state) c
  | .disarmed | .done =>
    let jid := c.st.jidD
    let part (a : Word64) (len i : Nat) : Eff :=
      .present (Access.readOf .job (some e.n) a len (.programRead jid e.n i))
    ((c.setHead (.programRead none none)).emit (part addr 256 0)).emit (part (addr + 256) 64 1)

/-- The whole program record has arrived (R116, R117). -/
def programArrives (e : Env) (data : List Byte) (c : Ctx) : Ctx :=
  match programOf data with
  | some (p, clamped) => endHead ⟨.ok, clamped, 0, p.steps.length⟩ (c.mod (loadProgram e p))
  | none => endHead (Res.ended .badParameter) c

/-- A part of the program record arrives: part 0 is bytes 0 to 255, part 1 the rest (log 9). -/
def programPart (e : Env) (part : Nat) (data : List Byte) (c : Ctx) : Ctx :=
  match c.st.head with
  | .programRead a b =>
    match if part = 0 then (some data, b) else (a, some data) with
    | (some x, some y) => programArrives e (x ++ y) c
    | (a, b) => c.setHead (.programRead a b)
  | _ => c

/-! ## CAPTURE START (R135) -/

/-- CAPTURE START with mode IMMEDIATE at the head. -/
def captureImmediateJob (e : Env) (c : Ctx) : Ctx :=
  if c.st.cap.state = .stopped then endHead (Res.okv 0) (startCapture e c)
  else endHead (Res.ended .state) c

/-- CAPTURE START with mode TRIGGERED at the head. -/
def captureTriggeredJob (c : Ctx) : Ctx :=
  if c.st.cap.state = .stopped then
    endHead (Res.okv 0) (c.mod fun t =>
      { t with cap :=
        { t.cap with state := .watching, history := [], historySize := t.prof.historySize } })
  else endHead (Res.ended .state) c

/-! ## Stations entering and leaving service (R25, R28, R37) -/

/-- ENABLE at an OFF station (R28). It marks R invalid with reason ENABLE; that R's value becomes 0 is the
model's choice, R21 and R28 giving none (log 55). -/
def enableStation (e : Env) (c : Ctx) : Ctx :=
  let quiet := e.now + Profile.default.healthMs * Config.ticksPerMs
  findBoard e (c.mod fun t =>
    consoleOn
      { t with
        state := .ready, profile := some Profile.default, queue := [], head := .waiting
        lp := t.lp.enable quiet, au := { t.au.clear with nextTag := 0 }
        cu := t.cu.enable, bpu := t.bpu.enable
        ts := { t.ts with state := .disarmed, program := none }
        cap := Capture.reset
        pg := { t.pg with mark := none, starved := false, episode := false } })

/-- CAP of a station that becomes OFF: everything discarded, R invalid with reason ENABLE, the next
sequence number kept (R25, R37). -/
def Capture.shut (c : Capture) : Capture :=
  { (c.cut.invalidate .enable) with staging := [], loss := false, pend := PendingLoss.empty }

/-- The OFF station that QUIESCE leaves (R25, R36 step 4). -/
def offAfterQuiesce (t : Station) : Station :=
  { t with state := .off, profile := none
           cap := { t.cap.shut with seq := 0 }
           pg := { t.pg with mark := none, starved := false, episode := false } }

/-- The jobs of the queue end ABANDONED (R37, R177). -/
def abandonJobs (c : Ctx) : Ctx :=
  { c with
    st := { c.st with queue := [], head := .waiting }
    effs := c.effs ++ c.st.queue.map fun q => .jobEnd q.jid (Res.ended .abandoned) }

/-- ABANDON at a station, its page already dealt with (R37). AU is emptied before the receiver goes
off, so the loss of the link fails no entry (R45). -/
def abandonStation (e : Env) (c : Ctx) : Ctx :=
  let c := (abandonJobs c).modAu (·.clear)
  let c := c.mod fun t => endDrives (disarmStation { t with cap := t.cap.shut })
  let c := linkOff e (c.modBpu (·.inactivate))
  c.mod fun t =>
    { t with
      state := .off, profile := none, cu := t.cu.discard
      lp := { t.lp with txList := [], sending := none }
      pg := { t.pg with mark := none, starved := false, episode := false, idleFlush := none } }

end Sys2Proof.Machine
end

