-- ==== Sys2Proof/Machine/Pages.lean ====
section
/-! DEFINITION. PGM: acquisition, draining, sealing, and what ABANDON, halts and faults do to pages
(Chapter 9, R36 to R38). -/

namespace Sys2Proof.Machine

/-- Change PGM's state of station n. -/
def State.modPage (s : State) (n : StationNo) (f : PageState → PageState) : State :=
  s.modStation n fun t => { t with pg := f t.pg }

/-- The device drains and acquires: RUNNING, with no halt under way (R150, R153, R159). -/
def State.draining (s : State) : Bool := s.runState == .running && !s.halting

/-- Change PGM's state of every station. -/
def State.mapPages (s : State) (f : PageState → PageState) : State :=
  s.mapStations fun t => { t with pg := f t.pg }

/-- Do `f` at every station, in ascending number. -/
def State.eachStation (s : State) (f : State → StationNo → State) : State := allStations.foldl f s

/-! ## Acquisition (R150 to R152) -/

/-- The station asks for a page, the device draining (R150). -/
def Station.asks (t : Station) : Bool :=
  t.pg.page.isNone && !t.cap.staging.isEmpty && !t.pg.starved

/-- The stations in cyclic order, starting after `p` (R150, R161). -/
def cyclic (p : StationNo) : List StationNo :=
  (List.range 8).map fun i => ⟨(p.val + 1 + i) % 8, Nat.mod_lt _ (by decide)⟩

/-- The address of page list entry i. -/
def Area.entry (a : Area) (i : Nat) : Word64 := a.pageList + BitVec.ofNat 64 (16 * i)

/-- The read of entry i for station n. -/
def entryRead (a : Area) (n : StationNo) (i : Nat) : Access :=
  Access.readOf .page (some n) (a.entry i) 16 (.entryRead i)

/-- An acquisition begins for the first asking station after the station pointer (R150; log 35). -/
def State.acquire (s : State) : State :=
  match s.acq, s.area, (cyclic s.hmp.stationPtr).find? fun n => (s.station n).asks with
  | none, some a, some n =>
    if s.draining then
      ({ s with acq := some ⟨n, s.cursor, 0⟩ }).presentPage n [entryRead a n s.cursor]
    else s
  | _, _, _ => s

/-- The acquisition of station n ended without a take: the station is page-starved (R152). -/
def State.starve (s : State) (n : StationNo) : State :=
  let s' := { s with acq := none }
  let s' := if (s.station n).pg.episode then s' else s'.setAttn .pageStarved
  s'.modPage n fun g => { g with starved := true, episode := true }

/-- The acquisition goes on to the next entry, or has examined the whole list (R151). -/
def State.nextEntry (s : State) (a : Area) (q : Acquisition) : State :=
  if a.entryCount ≤ q.examined + 1 then s.starve q.station
  else
    let i := (q.index + 1) % a.entryCount
    ({ s with acq := some { q with index := i, examined := q.examined + 1 } }).presentPage q.station
      [entryRead a q.station i]

/-- The serial after `v` (R149). -/
def serialAfter (v : Nat) : Nat := if v = Config.max32 then 1 else v + 1

/-- Entry q.index is taken for the asking station (R151 case 2). -/
def State.takeEntry (s : State) (a : Area) (q : Acquisition) (page : Word64) : State :=
  let open' : OpenPage :=
    { index := q.index, entryAddr := a.entry q.index, addr := page, serial := s.nextSerial
      used := 0, count := 0, firstSeq := 0, base := 0, shift := 0, hasGap := false, hasHistory := false }
  let s' := { s with acq := none, cursor := (q.index + 1) % a.entryCount
                     nextSerial := serialAfter s.nextSerial }
  (s'.modPage q.station fun g => { g with page := some open', episode := false }).presentPage q.station
    [Access.writeOf .page (some q.station) (a.entry q.index) (fillingBytes q.station s.nextSerial)
      .filling]

/-- The entry is the open page of some station (R151 case 1). -/
def State.heldOpen (s : State) (i : Nat) : Bool :=
  allStations.any fun n => ((s.station n).pg.page.map OpenPage.index) == some i

/-- The read of entry q.index returns (R151). -/
def State.entryArrives (s : State) (a : Area) (q : Acquisition) (data : List Byte) : State :=
  let page := BitVec.ofNat 64 (field data 8 8)
  if s.heldOpen q.index then s.nextEntry a q
  else if field data 0 1 = 1 then
    if page.toNat % 4096 = 0 then s.takeEntry a q page
    else
      ((s.presentPage q.station
        [Access.writeOf .page (some q.station) (a.entry q.index) (leBytes 1 4) .refused]).setAttn
          .pageRefused).nextEntry a q
  else s.nextEntry a q

/-! ## Sealing (R154 to R156) -/

/-- The header and FULL writes of a page; `k` is the station's current time shift. -/
def sealWrites (p : OpenPage) (n : StationNo) (why : SealReason) (k : Nat) (detached : Bool) :
    List Access :=
  [Access.writeOf .page (some n) p.addr (pageHeaderBytes p n why k) .sealPart,
   Access.writeOf .page (some n) p.entryAddr (leBytes 1 3) (.sealFull detached)]

/-- Where the next record of a page goes (R153). -/
def OpenPage.nextAddr (p : OpenPage) : Word64 := p.addr + BitVec.ofNat 64 (Config.pageHeader + p.used)

/-- Bytes of the data area not used. -/
def OpenPage.remainder (p : OpenPage) : Nat := Config.pageData - p.used

/-- The FILL writes of a page sealed FULL (R154). The spec gives the cut into accesses for a record in hand
only (R153) and for a FILL only the limit of 256 bytes (R160); that it is cut likewise, from its start into
pieces of 256 bytes, is the model's choice (log 57). -/
def fillWrites (p : OpenPage) (n : StationNo) : List Access :=
  if p.remainder = 0 then []
  else (placed p.nextAddr (pieces (fillBytes p.remainder))).map fun x =>
    Access.writeOf .page (some n) x.1 x.2 .sealPart

/-- Sealing of a station's open page begins: its writes are presented, the idle flush timer is
cancelled (R156). The header of a page with record count 0 carries the station's current time shift
(R155); an OFF station, whose ABANDON seal a halt or a fault makes again, has none, and its page carries
that of the default profile, 4: the spec does not say which, and the choice is the model's (log 43). -/
def sealStation (n : StationNo) (why : SealReason) (t : Station) : Station :=
  match t.pg.page with
  | some p =>
    { t with
      pg := { t.pg with sealing := some why, idleFlush := none }
      pageQ := t.pageQ ++ (if why = .full then fillWrites p n else [])
        ++ sealWrites p n why t.prof.timeShift false }
  | none => t

/-- Sealing of station n's open page begins. -/
def State.beginSeal (s : State) (n : StationNo) (why : SealReason) : State :=
  s.modStation n (sealStation n why)

/-! ## Cutting off (R159) -/

/-- An access a cut takes back: record writes, page list reads and the seal writes of the open
page. -/
def Purpose.isCut : Purpose → Bool
  | .record _ | .sealPart | .sealFull _ | .entryRead _ => true
  | _ => false

/-- The record in hand, the seal in progress and the waiting writes of both are cut off (R159). -/
def cutPage (t : Station) : Station :=
  { t with
    pg := { t.pg with inHand := none, sealing := none, idleFlush := none }
    pageQ := t.pageQ.filter fun a => !a.purpose.isCut }

/-- A read in flight for an entry that nobody waits for any more. -/
def InFlight.staleWhen (p : Purpose → Bool) (x : InFlight) : InFlight :=
  if p x.acc.purpose then { x with acc := { x.acc with purpose := .stale } } else x

/-- Reads in flight whose purpose `p` names become stale: their data will be discarded. -/
def State.makeStale (s : State) (p : Purpose → Bool) : State :=
  { s with hmp := { s.hmp with inFlight := s.hmp.inFlight.map (·.staleWhen p) } }

/-- A page list read. -/
def Purpose.isEntryRead : Purpose → Bool
  | .entryRead _ => true
  | _ => false

/-- An acquisition in progress ends without a take and without starvation (R151). -/
def State.endAcquisition (s : State) : State :=
  ({ s with acq := none }).makeStale Purpose.isEntryRead

/-- Every page is cut off and the acquisition ends (R151, R159). -/
def State.freezePages (s : State) : State := (s.mapStations cutPage).endAcquisition

/-- Open and detached pages are forgotten unsealed, with their writes not yet issued (R159; log 17). -/
def forgetPage (t : Station) : Station :=
  { t with
    pg := { t.pg with page := none, detached := none, sealing := none, inHand := none
                      idleFlush := none, starved := false, episode := false
                      mark := t.pg.mark.filter fun m => m.count != 0 }
    pageQ := t.pageQ.filter fun a => !(a.purpose.isCut || a.purpose == .filling) }

/-! ## QUIESCE's drain (R36) -/

/-- QUIESCE ends at station n: the station is OFF and the job completes OK (R36 step 4). -/
def finishQuiesce (value : Nat) (c : Ctx) : Ctx := (endHead (Res.okv value) c).mod offAfterQuiesce

/-- The drain has nothing staged and no page open. -/
def Station.drained (t : Station) : Bool :=
  t.head == .quiesceDrain && t.cap.staging.isEmpty && t.pg.page.isNone

/-- QUIESCE's drain ends at station n when nothing is staged and no page is open, while the device
drains (R36, log 34). -/
def State.quiesceCheck (s : State) (n : StationNo) : State :=
  if s.draining && (s.station n).drained then s.withStation n fun _ => finishQuiesce 0 else s

/-! ## Draining (R153, R157, R158) -/

/-- The writes of a record at a page's next free offset, the last one marked (R153). -/
def recordWrites (p : OpenPage) (n : StationNo) (r : Staged) : List Access :=
  let ps := placed p.nextAddr (pieces r.bytes)
  (ps.zipIdx).map fun x =>
    Access.writeOf .page (some n) x.1.1 x.1.2 (.record (x.2 + 1 == ps.length))

/-- The oldest staged record becomes the record in hand (R153 step 4). -/
def takeInHand (n : StationNo) (p : OpenPage) (r : Staged) (t : Station) : Station :=
  { t with pg := { t.pg with inHand := some r }, pageQ := t.pageQ ++ recordWrites p n r }

/-- PGM's next step at a station with an open page and no record in hand (R153). -/
def drainStation (n : StationNo) (t : Station) : Station :=
  match t.pg.page, t.pg.inHand, t.pg.sealing with
  | some p, none, none =>
    match t.pg.mark, t.cap.staging with
    | some ⟨0, why⟩, _ => sealStation n why { t with pg := { t.pg with mark := none } }
    | _, [] => if t.head = .quiesceDrain then sealStation n .quiesce t else t
    | _, r :: _ => if p.remainder < r.size then sealStation n .full t else takeInHand n p r t
  | _, _, _ => t

/-- The idle flush timer expires (R157). -/
def idleFlushStation (n : StationNo) (t : Station) : Station :=
  let t' := { t with pg := { t.pg with idleFlush := none } }
  match t.pg.page, t.pg.inHand, t.pg.sealing with
  | some _, none, none => sealStation n .idle t'
  | _, _, _ => t'

/-- A record is removed from staging into the page (R153). -/
def OpenPage.add (p : OpenPage) (r : Staged) : OpenPage :=
  { p with
    used := p.used + r.size, count := p.count + 1
    firstSeq := if p.count = 0 then r.seq else p.firstSeq
    base := if p.count = 0 then r.unit else p.base
    shift := if p.count = 0 then r.shift else p.shift
    hasGap := p.hasGap || r.payload.kindCode == 2
    hasHistory := p.hasHistory || r.flags.history }

/-- The oldest staged record leaves staging for the open page, the idle flush timer restarts, and a
station in LOSS may recover (R147, R153). -/
def removeRecord (e : Env) (c : Ctx) : Ctx :=
  match c.st.pg.inHand with
  | some r =>
    recoverAtRemoval e (c.mod fun t =>
      { t with
        cap := { t.cap with staging := t.cap.staging.tail }
        pg := { t.pg with
          page := t.pg.page.map (·.add r)
          mark := t.pg.mark.map fun m => { m with count := m.count - 1 }
          idleFlush := some (e.now + t.prof.flushMs * Config.ticksPerMs)
          inHand := none } })
  | none => c

/-- The FULL write of station n's open page has been issued (R156, R158, R36). -/
def State.pageSealed (s : State) (n : StationNo) : State :=
  let g := (s.station n).pg
  let serial := (g.page.map OpenPage.serial).getD 0
  let s := (s.modPage n fun g =>
    { g with page := none, sealing := none, inHand := none
             mark := g.mark.filter fun m => m.count != 0 }).setAttn
      .pageSealed
  if g.sealing = some .quiesce then s.withStation n fun _ => finishQuiesce serial
  else s.quiesceCheck n

/-- The FULL write of station n's detached page has been issued (R38). -/
def State.detachedSealed (s : State) (n : StationNo) : State :=
  (s.modPage n fun g => { g with detached := none }).setAttn .pageSealed

/-! ## ABANDON (R37, R38; log 18) -/

/-- The detached page's seal writes, with reason ABANDON (R38). -/
def sealDetached (n : StationNo) (t : Station) : Station :=
  match t.pg.detached with
  | some p => { t with pageQ := t.pageQ ++ sealWrites p n .abandon p.shift true }
  | none => t

/-- The open page is detached (R38). An empty one keeps for its header the time shift in force at the
ABANDON: at its seal the station is OFF and has none, R155 does not say which it carries, and the choice is
the model's (log 43). -/
def detachPage (t : Station) : Station :=
  match t.pg.page with
  | some p =>
    { t with pg := { t.pg with
        page := none
        detached := some { p with shift := if p.count = 0 then t.prof.timeShift else p.shift } } }
  | none => t

/-- An acquisition of station n ends with its ABANDON. -/
def State.dropAcquisition (s : State) (n : StationNo) : State :=
  match s.acq with
  | some q =>
    if q.station = n then
      s.endAcquisition.modStation n fun t =>
        { t with pageQ := t.pageQ.filter fun a => !a.purpose.isEntryRead }
    else s
  | none => s

/-- The open page of an abandoned station: while RUNNING it is sealed with reason ABANDON, a seal already
begun for another reason (that of a halt among them) being made again with this one (R37; log 18); while
FAULTED it is detached (R38). -/
def State.abandonPage (s : State) (n : StationNo) : State :=
  let s := s.dropAcquisition n
  match s.runState with
  | .running => s.modStation n fun t => sealStation n .abandon (cutPage t)
  | .faulted =>
    s.modStation n fun t =>
      let t := detachPage (cutPage t)
      if s.resuming then sealDetached n t else t
  | .stopped => s.modStation n cutPage

end Sys2Proof.Machine
end

