-- ==== Sys2Proof/Machine/Sweep.lean ====
section
/-! DEFINITION. JSD's sweeps: requests, the slots in turn, the sweep timer (R173), and the marks on
held jobs (R170, R184). -/

namespace Sys2Proof.Machine

/-! ## Sweeps (R173) -/

/-- Address of job slot i. -/
def Area.slot (a : Area) (i : Nat) : Word64 := a.jobBoard + BitVec.ofNat 64 (128 * i)

/-- The state of slot i is read. -/
def State.readSlotState (s : State) (a : Area) (i : Nat) : State :=
  ({ s with sweep := { s.sweep with phase := .readingState i } }).presentSweep
    (Access.readOf .sweep none (a.slot i) 1 (.slotState i))

/-- Slot i is read whole: `orphan` for a slot that read TAKEN in a first sweep (R180). -/
def State.readSlotWhole (s : State) (a : Area) (i : Nat) (orphan : Bool) : State :=
  ({ s with sweep := { s.sweep with phase := .readingSlot i } }).presentSweep
    (Access.readOf .sweep none (a.slot i) 128 (.slotWhole i (a.slot i) orphan true))

/-- A sweep begins: starved flags and blocked set cleared, slot 0 first (R152, R173). -/
def State.beginSweep (s : State) (first : Bool) : State :=
  match s.area with
  | some a =>
    (({ s with sweep := { s.sweep with first := first, blocked := 0 } }).mapPages fun g =>
      { g with starved := false }).readSlotState a 0
  | none => s

/-- A sweep is requested: it begins at once, or is the pending sweep (R173). -/
def State.requestSweep (s : State) (first : Bool) : State :=
  if s.sweep.phase = .idle then s.beginSweep first
  else { s with sweep := { s.sweep with pending := true } }

/-- The sweep timer runs from its full interval (R173). -/
def State.startSweepTimer (s : State) : State :=
  match s.area with
  | some a => { s with sweep := { s.sweep with timer := some (s.elapsed + a.sweepUs * Config.ticksPerUs) } }
  | none => s

/-- The last slot has been handled: the sweep ends, and a pending one begins (R173). -/
def State.finishSweep (s : State) : State :=
  let s' := { s with sweep := { s.sweep with phase := .idle, pending := false } }
  if s.sweep.pending then s'.beginSweep false else s'

/-- The slot after slot i is read, or the sweep ends (R173). -/
def State.nextSlot (s : State) (i : Nat) : State :=
  match s.area with
  | some a => if i + 1 < a.slotCount then s.readSlotState a (i + 1) else s.finishSweep
  | none => s.finishSweep

/-- A slot read of a sweep. -/
def Purpose.isSlotRead : Purpose → Bool
  | .slotState _ | .slotWhole .. => true
  | _ => false

/-- A slot state read of a sweep. -/
def Purpose.isSlotState : Purpose → Bool
  | .slotState _ => true
  | _ => false

/-- A whole-slot read whose sweep has ended. -/
def Purpose.orphanSweep : Purpose → Purpose
  | .slotWhole i a o _ => .slotWhole i a o false
  | p => p

/-- A halt or a fault ends sweeping: timer stopped, pending sweep dropped, slot reads not issued
dropped; a whole-slot read in flight will still be handled (R169, R170, R173). -/
def State.endSweeping (s : State) : State :=
  let s := s.makeStale Purpose.isSlotState
  { s with
    sweep := { s.sweep with phase := .idle, pending := false, timer := none }
    hmp := { s.hmp with
      sweepQ := s.hmp.sweepQ.filter fun a => !a.purpose.isSlotRead
      inFlight := s.hmp.inFlight.map fun x =>
        { x with acc := { x.acc with purpose := x.acc.purpose.orphanSweep } } } }

/-! ## Marks of held jobs (R170, R184) -/

/-- The held job an access of the JOB class, or a TAKEN write, belongs to. -/
def Purpose.jid : Purpose → Option Nat
  | .taken j | .profileRead j _ | .programRead j _ _ | .writeData j _ | .data j _ | .statusRec j _ =>
    some j
  | .result h | .done h => some h.jid
  | _ => none

/-- The station whose payload read or data write an access is. -/
def Purpose.dataOf : Purpose → Option (Nat × StationNo)
  | .profileRead j n | .programRead j n _ | .writeData j n | .data j n | .statusRec j n => some (j, n)
  | _ => none

/-- A result or DONE write of a held job. -/
def Purpose.resultOf : Purpose → Option HeldJob
  | .result h | .done h => some h
  | _ => none

/-- A result or DONE write failed: its job is marked; a job already released is held again, unless
another job with its slot is held (R170; log 14). -/
def State.markWriteFail (s : State) (h : HeldJob) : State :=
  if (s.heldJob h.jid).isSome then s.modHeld h.jid fun h => { h with writeFail := true }
  else if s.holdsSlot h.slot then s
  else s.addHeld { h with writeFail := true, doneIssued := true }

/-- The held job that owns a failed access is marked (R170). -/
def State.markFailure (s : State) (p : Purpose) : State :=
  match p.dataOf, p.resultOf, p with
  | some (j, n), _, _ => s.modHeld j fun h => { h with memFail := h.memFail ||| (1#8 <<< n.val) }
  | none, some h, _ => s.markWriteFail h
  | none, none, .taken j => s.modHeld j fun h => { h with takenFail := true }
  | none, none, _ => s

/-- The result and DONE writes of a job not yet issued are withdrawn. -/
def State.withdraw (s : State) (jid : Nat) : State :=
  { s with hmp := { s.hmp with
      jobQ := s.hmp.jobQ.filter fun a => (a.purpose.resultOf.map HeldJob.jid) != some jid } }

/-- The job leaves the head of a station's queue. -/
def popHead (jid : Nat) (t : Station) : Station :=
  if t.headJid = some jid then { t with queue := t.queue.tail, head := .waiting } else t

/-- The results of a job with a failed payload read or data write become MEMORY at the stations
concerned, and it leaves their heads, unless its DONE write has been issued (R170). Another access of the
job that still waits (the other part of an ARM's program read, a data write) stays and is issued in its
turn, the data of a read discarded: the spec does not say what becomes of it, and the choice is the
model's (log 48). -/
def State.endMemory (s : State) (h : HeldJob) : State :=
  if h.memFail = 0 ∨ h.doneIssued = true then s
  else
    let s := (maskStations h.memFail).foldl (fun s n => s.modStation n (popHead h.jid)) (s.withdraw h.jid)
    (s.modHeld h.jid fun h =>
      { h with
        results := Vector.ofFn fun n =>
          if inMask h.memFail n then some (Res.ended .memory) else h.resultAt n
        formed := none, memFail := 0 }).finishJob h.jid

/-- Failed result or DONE writes are made again, result first; a failed TAKEN write is issued again
ahead of both (R170; log 15). -/
def State.retryWrites (s : State) (h : HeldJob) : State :=
  if h.takenFail then
    ((s.withdraw h.jid).modHeld h.jid fun h =>
      { h with taken := .waiting, takenFail := false, writeFail := false }).presentSweep
        (Access.writeOf .sweep none h.slot (leBytes 1 2) (.taken h.jid))
  else if h.writeFail then
    ((s.withdraw h.jid).modHeld h.jid fun h => { h with writeFail := false }).presentResult h.jid
  else s

/-- The marked jobs are dealt with (R170, R184), in the order in which they came to be held, and so their
result and DONE writes are presented: the rules give no order among jobs, and the choice is the model's
(log 58). -/
def State.dealMarks (s : State) : State :=
  let s := s.held.foldl State.endMemory s
  s.held.foldl State.retryWrites s

/-- A job with an access still waiting. -/
def State.waits (s : State) (jid : Nat) : Bool :=
  (s.hmp.sweepQ ++ s.hmp.jobQ).any fun a => a.purpose.jid == some jid

/-- The marks of a job whose waiting access will now be granted are forgotten, those of every other job
stay (R170; log 19, log 44). -/
def State.forgetMarks (s : State) : State :=
  { s with held := s.held.map fun h =>
      if s.waits h.jid then { h with memFail := 0, writeFail := false, takenFail := false } else h }

end Sys2Proof.Machine
end

