-- ==== Sys2Proof/Machine/Run.lean ====
section
/-! DEFINITION. The register window, starts, halts, host-memory faults, resumptions and resets
(Chapter 10, R163, R183, R184). -/

namespace Sys2Proof.Machine

/-! ## Reads of the register window (R164, Table 12-1) -/

/-- The eight registers (Table 10-2). -/
inductive Reg where
  | control | status | areaBaseLow | areaBaseHigh | wake | attention | faultAddressLow
  | faultAddressHigh
deriving DecidableEq, Repr

/-- STATUS run state codes. -/
def RunState.code : RunState → Nat
  | .stopped => 0 | .running => 1 | .faulted => 2

/-- STATUS start check codes. -/
def StartCheck.code : StartCheck → Nat
  | .none => 0 | .ok => 1 | .alignment => 2 | .signature => 3 | .slotCount => 4 | .entryCount => 5
  | .region => 6 | .overlap => 7

/-- STATUS fault requester class codes. -/
def FaultClass.code : FaultClass → Nat
  | .none => 0 | .sweep => 1 | .job => 2 | .page => 3

/-- What a read of a register gives; it changes nothing (R182). -/
def State.readRegister (s : State) : Reg → Word32
  | .control => BitVec.ofNat 32 (bit s.run + 65536 * s.attMask.toNat)
  | .status => BitVec.ofNat 32 (s.runState.code + 16 * s.startCheck.code + 256 * s.faultClass.code
      + 4096 * s.faultStation.val)
  | .areaBaseLow => s.areaBaseLow
  | .areaBaseHigh => s.areaBaseHigh
  | .wake => 0
  | .attention => s.attention.setWidth 32
  | .faultAddressLow => s.faultAddr.setWidth 32
  | .faultAddressHigh => (s.faultAddr >>> 32).setWidth 32

/-- The Work Area address of AREA BASE LOW and HIGH. -/
def State.areaBase (s : State) : Word64 := s.areaBaseHigh ++ s.areaBaseLow

/-! ## Starts (R167, R168) -/

/-- A start fails its checks (R167). -/
def State.failStart (s : State) (why : StartCheck) : State :=
  ({ s with start := .none, startCheck := why, run := false }).setAttn .areaInvalid

/-- A start begins, RUN being 1 (R167). -/
def State.beginStart (s : State) : State :=
  if s.areaBase.toNat % 64 = 0 then
    ({ s with start := .reading }).presentSweep
      (Access.readOf .sweep none s.areaBase 64 .descriptorRead)
  else s.failStart .alignment

/-- The descriptor at `base` has arrived: a check fails, or the capability write is presented
(R167, R168 steps 1 and 2). -/
def State.descriptorArrives (s : State) (base : Word64) (data : List Byte) : State :=
  match descriptorCheck base.toNat data with
  | .ok =>
    ({ s with start := .writing }).presentSweep
      (Access.writeOf .sweep none (base + 32) (capabilityBytes (areaOf data).sweepUs)
        (.capability (areaOf data)))
  | why => s.failStart why

/-- QUIESCEs that wait in their drain may end, the device being RUNNING (R36). -/
def State.quiesceAll (s : State) : State := s.eachStation State.quiesceCheck

/-- The capability write has been issued (R168 steps 3 and 4, R184). What becomes of the marks is the
model's choice where the spec is silent. In a start that follows R184 every marked job is dealt with, one
with an access waiting or marked by an earlier fault included (log 46). In any other start the marks of a
job with an access waiting are forgotten and those of every other job stay, whether they come from a fault
whose RUN was cleared (log 19) or from one taken during a start (log 44). -/
def State.acceptStart (s : State) (a : Area) : State :=
  let s := { s with area := some a, startCheck := .ok, cursor := 0, runState := .running, start := .none }
  let s := if s.dealAtStart then ({ s with dealAtStart := false }).dealMarks else s.forgetMarks
  (s.startSweepTimer.requestSweep true).quiesceAll

/-- An access of a start. -/
def Purpose.isStart : Purpose → Bool
  | .descriptorRead | .capability _ => true
  | _ => false

/-- A start in progress is given up: its waiting accesses are dropped, its read in flight is discarded
on arrival (R167). -/
def State.dropStart (s : State) : State :=
  let s := s.makeStale Purpose.isStart
  { s with start := .none
           hmp := { s.hmp with sweepQ := s.hmp.sweepQ.filter fun a => !a.purpose.isStart } }

/-! ## Halts (R169, R159) -/

/-- An access a halt or a resumption still grants (R160). -/
def Purpose.isSeal : Purpose → Bool
  | .sealPart | .sealFull _ | .filling => true
  | _ => false

/-- Some such access waits. -/
def State.sealsWait (s : State) : Bool :=
  allStations.any fun n => (s.station n).pageQ.any fun a => a.purpose.isSeal

/-- The seal writes of a halt have been issued: STOPPED, and a start begins if RUN is 1 again (R169). -/
def State.finishHalt (s : State) : State :=
  let s := { s with runState := .stopped, halting := false }
  if s.run then s.beginStart else s

/-- A halt from RUNNING begins (R169). -/
def State.beginHalt (s : State) : State :=
  let s := s.endSweeping.freezePages.mapPages fun g => { g with starved := false, episode := false }
  let s := { s.eachStation (fun s n => s.beginSeal n .halt) with halting := true }
  if s.sealsWait then s else s.finishHalt

/-! ## Host-memory faults (R163, R183, R184) -/

/-- The requester class STATUS shows. -/
def AccessClass.fault : AccessClass → FaultClass
  | .sweep => .sweep | .job => .job | .page => .page

/-- The waiting seal writes of a resumption are dropped; the next RESUME makes them again (R183). -/
def State.dropSeals (s : State) : State := { s.mapStations cutPage with resuming := false }

/-- The first failure while the device is not FAULTED, or one during a resumption, is a host-memory
fault (R163, R183, R184; log 28). A fault inside a halt ends the halt and leaves RUN as it stands: RUN 1,
set again during the halt, stays 1 and the start the halt owed does not begin, a case the spec does not
speak of (log 16). A start of R184 that a fault ends still owes its marks (log 51). -/
def State.hostFault (s : State) (a : Access) : State :=
  if s.runState = .faulted ∧ s.resuming = false then s
  else
    let s := ({ s with faultAddr := a.addr, faultClass := a.cls.fault
                       faultStation := a.station.getD 0 }).setAttn .hostMemoryFault
    match s.runState with
    | .faulted => s.dropSeals
    | .running =>
      { s.endSweeping.freezePages with runState := .faulted, halting := false, startFault := false }
    | .stopped =>
      { s.dropStart with runState := .faulted, startFault := s.start != .none }

/-- An access failed: the fault, and the mark of the held job that owns it (R163, R170). -/
def State.failAccess (s : State) (a : Access) : State := (s.hostFault a).markFailure a.purpose

/-! ## RESUME and clearing RUN in FAULTED (R170, R159) -/

/-- The seal writes of a resumption have been issued (R170). All marked jobs are dealt with and the device
is RUNNING in this one step, so no failure comes between two of them: R183 speaks of jobs ended and jobs
not yet reached, and that this never shows is the model's choice (log 45). -/
def State.finishResume (s : State) : State :=
  let s := { s.dealMarks with runState := .running, resuming := false }
  (s.startSweepTimer.requestSweep false).quiesceAll

/-- RESUME in FAULTED with RUN 1 (R170). A second RESUME while the seal writes of an earlier one still wait
has no effect: the spec does not say whether it acts again, and the choice is the model's (log 49). -/
def State.takeResume (s : State) : State :=
  if s.startFault then { s with runState := .stopped, run := false, startFault := false }
  else if s.resuming then s
  else
    let s := { s.eachStation (fun s n => (s.beginSeal n .fault).modStation n (sealDetached n)) with
      resuming := true }
    if s.sealsWait then s else s.finishResume

/-- The device becomes STOPPED from FAULTED with its pages forgotten (R159, R170). -/
def State.leaveFaulted (s : State) : State :=
  { s.mapStations forgetPage with runState := .stopped, resuming := false, startFault := false }

/-! ## CONTROL writes (R165) -/

/-- RUN is cleared (R165 step 3). Where this gives up a start that followed R184, the marks still wait for
the next successful start, as R184 says of a start that fails its checks; for a start given up so, and for
one ended by a fault (`State.hostFault`), the spec does not say it, and the choice is the model's
(log 51). -/
def State.clearRun (s : State) : State :=
  let s := { s with run := false }
  match s.runState with
  | .running => if s.halting then s else s.beginHalt
  | .faulted => s.leaveFaulted
  | .stopped => if s.start = .none then s else { s.dropStart with startCheck := .none }

/-- RUN is set (R165 step 3, R184). In FAULTED, R184 has no page open; one that a fault inside a halt left
open or detached is forgotten unsealed, as where RUN is cleared in FAULTED: the model's choice (log 50). -/
def State.setRun (s : State) : State :=
  let s := { s with run := true }
  match s.runState with
  | .stopped => if s.start = .none then s.beginStart else s
  | .running => s
  | .faulted => { s.leaveFaulted with dealAtStart := true }.beginStart

/-- The attention mask a CONTROL write gives (R165 step 2). -/
def maskOf (v : Word32) : BitVec 11 := (v >>> 16).setWidth 11

/-- A CONTROL write whose SOFT RESET bit is 0, as one event (R165). -/
def State.writeControl (s : State) (v : Word32) : State :=
  let s := { s with attMask := maskOf v }
  let s := if regBit v 0 = s.run then s else if regBit v 0 then s.setRun else s.clearRun
  if regBit v 1 ∧ s.runState = .faulted ∧ s.run then s.takeResume else s

/-! ## Resets (R164, R171, R131) -/

/-- A write issued before a reset still reaches PC memory, and belongs to nobody (R171). -/
def IssuedWrite.disown (w : IssuedWrite) : IssuedWrite :=
  { w with acc := { w.acc with purpose := .stale } }

/-- The state after power-on reset, with the bench lines as they stand (R131). PC memory's accesses end
with the reset; the fixture's inputs stay as they are (log 8, log 30). -/
def State.powerReset (s : State) (lines : BitVec 4) : State :=
  { State.reset with
    elapsed := s.elapsed, connectors := s.connectors, lines := lines, pending := s.pending
    nextJid := s.nextJid, hmp := { HostPort.reset with nextId := s.hmp.nextId } }

/-- The state after a soft reset (R171): the time base, the station map and the accesses already issued
are kept. -/
def State.takeSoftReset (s : State) (lines : BitVec 4) : State :=
  { s.powerReset lines with
    tb := s.tb, stationMap := s.stationMap
    hmp := { HostPort.reset with
      nextId := s.hmp.nextId
      inFlight := s.hmp.inFlight.map (·.staleWhen fun _ => true)
      writes := s.hmp.writes.map IssuedWrite.disown } }

/-- A CONTROL write, its SOFT RESET bit first (R165). -/
def State.takeControl (s : State) (v : Word32) (lines : BitVec 4) : State :=
  if regBit v 2 then s.takeSoftReset lines else s.writeControl v

end Sys2Proof.Machine
end

