-- ==== Sys2Proof/Machine/HostPort.lean ====
section
/-! DEFINITION. HMP: which accesses may be granted, the arbiter, what the issue of an access brings
about, and the ends of accesses (R160 to R163). -/

namespace Sys2Proof.Machine

/-! ## What may be granted (R160) -/

/-- The arbiter may grant this access now. -/
def State.grantable (s : State) (a : Access) : Bool :=
  match s.runState with
  | .running => !s.halting || a.purpose.isSeal
  | .faulted => s.resuming && a.purpose.isSeal
  | .stopped => s.start != .none && a.purpose.isStart

/-- The SWEEP access whose turn it is. -/
def State.nextSweep (s : State) : Option Access := s.hmp.sweepQ.find? s.grantable

/-- The JOB access whose turn it is: presentation order (R160). -/
def State.nextJob (s : State) : Option Access := s.hmp.jobQ.find? s.grantable

/-- The PAGE access of station n whose turn it is. -/
def State.nextPageOf (s : State) (n : StationNo) : Option Access :=
  (s.station n).pageQ.find? s.grantable

/-- The station with a PAGE access whose turn it is (R161). -/
def State.pageStation (s : State) : Option StationNo :=
  (cyclic s.hmp.stationPtr).find? fun n => (s.nextPageOf n).isSome

/-! ## The arbiter (R161, R162) -/

/-- The classes in cyclic order, starting after one (R161). -/
def classesAfter : AccessClass → List AccessClass
  | .sweep => [.job, .page, .sweep]
  | .job => [.page, .sweep, .job]
  | .page => [.sweep, .job, .page]

/-- A class has an access waiting. -/
def State.waiting (s : State) : AccessClass → Bool
  | .sweep => s.nextSweep.isSome
  | .job => s.nextJob.isSome
  | .page => s.pageStation.isSome

/-- Some station's staging queue holds 6,144 bytes or more (R162). -/
def State.pressure (s : State) : Bool :=
  allStations.any fun n => decide (Config.pressureBytes ≤ (s.station n).cap.used)

/-- SWEEP or JOB under pressure, in the order after the non-page pointer (R162). -/
def State.nonPageClass (s : State) : Option AccessClass :=
  ((classesAfter s.hmp.nonPagePtr).filter (· != .page)).find? s.waiting

/-- The class of the next grant (R161, R162). -/
def State.grantClass (s : State) : Option AccessClass :=
  if s.pressure then
    if s.waiting .page ∧ s.hmp.burst < 3 then some .page
    else match s.nonPageClass with
      | some k => some k
      | none => if s.waiting .page then some .page else none
  else (classesAfter s.hmp.classPtr).find? s.waiting

/-- The pointers and the burst count after a grant (R161). -/
def HostPort.granted (h : HostPort) (a : Access) : HostPort :=
  match a.cls, a.station with
  | .page, some n => { h with classPtr := .page, stationPtr := n, burst := min 3 (h.burst + 1) }
  | .page, none => { h with classPtr := .page, burst := min 3 (h.burst + 1) }
  | k, _ => { h with classPtr := k, nonPagePtr := k, burst := 0 }

/-- An access leaves the queue it waits in. -/
def State.dequeue (s : State) (a : Access) : State :=
  match a.cls, a.station with
  | .sweep, _ => { s with hmp := { s.hmp with sweepQ := s.hmp.sweepQ.erase a } }
  | .job, _ => { s with hmp := { s.hmp with jobQ := s.hmp.jobQ.erase a } }
  | .page, some n => s.modStation n fun t => { t with pageQ := t.pageQ.erase a }
  | .page, none => s

/-- An access is issued: it joins the reads in flight or the writes, under the next number (log 4,
log 23). -/
def HostPort.issue (h : HostPort) (a : Access) (now : Nat) : HostPort :=
  match a.data with
  | none => { h with inFlight := h.inFlight ++ [⟨h.nextId, now, a⟩], nextId := h.nextId + 1 }
  | some _ => { h with writes := h.writes ++ [⟨h.nextId, a, false⟩], nextId := h.nextId + 1 }

/-! ## What an issue brings about -/

/-- A TAKEN write has been issued: results already formed are presented (R178). -/
def State.takenIssued (s : State) (jid : Nat) : State :=
  (s.modHeld jid fun h => { h with taken := .issued }).presentResult jid

/-- A DONE write has been issued: the held job is released, JOB DONE set under NOTIFY (R178). -/
def State.doneIssued (s : State) (h : HeldJob) : State :=
  let s := s.releaseHeld h.jid
  if h.notify then s.setAttn .jobDone else s

/-- The effect of an issue on the requester (R153, R156, R168, R178). -/
def State.issueEffect (s : State) (a : Access) : State :=
  match a.purpose, a.station with
  | .capability area, _ => s.acceptStart area
  | .taken jid, _ => s.takenIssued jid
  | .done h, _ => s.doneIssued h
  | .record true, some n => s.withStation n removeRecord
  | .sealFull true, some n => s.detachedSealed n
  | .sealFull false, some n => s.pageSealed n
  | _, _ => s

/-- A halt or a resumption whose seal writes have all been issued completes (R169, R170). -/
def State.settleSeals (s : State) : State :=
  if s.sealsWait then s
  else if s.halting then s.finishHalt
  else if s.resuming then s.finishResume
  else s

/-- An access is granted and issued. -/
def State.grant (s : State) (a : Access) : State :=
  let s := s.dequeue a
  let s := { s with hmp := (s.hmp.granted a).issue a s.elapsed }
  (s.issueEffect a).settleSeals

/-- The access the arbiter grants next, if any. -/
def State.nextGrant (s : State) : Option Access :=
  match s.grantClass with
  | some .sweep => s.nextSweep
  | some .job => s.nextJob
  | some .page => s.pageStation.bind s.nextPageOf
  | none => none

/-- The memory arbiter grants one access, if one may be granted (R160 to R162). -/
def State.arbitrate (s : State) : State :=
  match s.nextGrant with
  | some a => s.grant a
  | none => s

/-! ## Ends of accesses (R160, R163; log 4) -/

/-- The read in flight with this number. -/
def State.readInFlight (s : State) (id : Nat) : Option InFlight :=
  s.hmp.inFlight.find? fun x => x.id == id

/-- The read is no longer in flight. -/
def State.endRead (s : State) (id : Nat) : State :=
  { s with hmp := { s.hmp with inFlight := s.hmp.inFlight.filter fun x => x.id != id } }

/-- A completion arrives within 50 ms of the issue (R163). -/
def InFlight.inTime (x : InFlight) (now : Nat) : Bool :=
  decide (now ≤ x.issuedAt + Config.readTimeoutTicks)

/-- The data of read `id` arrives: `f` takes it up when the read is of the kind `p` expects and the data
has its length; the data of a read nobody waits for is discarded (R38, R163, R167). -/
def State.completeRead (s : State) (id len : Nat) (f : Access → State → Option State) : State :=
  match s.readInFlight id with
  | some x =>
    if x.inTime s.elapsed then
      if x.acc.purpose = .stale then s.endRead id
      else if x.acc.len = len then (f x.acc (s.endRead id)).getD s
      else s
    else s
  | none => s

/-- The write with this number is marked failed. -/
def IssuedWrite.failWhen (id : Nat) (w : IssuedWrite) : IssuedWrite :=
  if w.id = id then { w with failed := true } else w

/-- An error completion arrives (R163). -/
def State.errorCompletion (s : State) (id : Nat) : State :=
  match s.readInFlight id with
  | some x => if x.inTime s.elapsed then (s.endRead id).failAccess x.acc else s
  | none =>
    match s.hmp.writes.find? fun w => w.id == id && !w.failed with
    | some w =>
      ({ s with hmp := { s.hmp with writes := s.hmp.writes.map (IssuedWrite.failWhen id) } }).failAccess w.acc
    | none => s

/-- No completion arrived within 50 ms of a read's issue (R163). -/
def State.readTimesOut (s : State) (id : Nat) : State :=
  match s.readInFlight id with
  | some x =>
    if x.issuedAt + Config.readTimeoutTicks ≤ s.elapsed then (s.endRead id).failAccess x.acc else s
  | none => s

end Sys2Proof.Machine
end

