-- ==== Sys2Proof/Machine/Jobs.lean ====
section
/-! DEFINITION. JSD on slots: the checks at the read, immediate and device jobs, the take of queued
jobs, orphaned slots, and the station status record (R3 to R5, R26, R39, R40, R42, R172 to R180). -/

namespace Sys2Proof.Machine

/-! ## Holding a job -/

/-- A job comes to be held with nothing formed yet. -/
def newHeld (jid : Nat) (slot : Word64) (v : SlotView) (results : Vector (Option Res) 8)
    (own : Option Res) (taken : TakenState) : HeldJob where
  jid := jid
  slot := slot
  kind := v.kind
  mask := v.header.mask
  notify := v.header.notify
  hostRef := v.header.hostRef
  results := results
  own := own
  taken := taken
  formed := none
  memFail := 0
  writeFail := false
  takenFail := false
  doneIssued := false

/-- No station has a result. -/
def noResults : Vector (Option Res) 8 := Vector.replicate 8 none

/-- The same result at each station of a mask. -/
def resultsAt (m : Mask8) (r : Res) : Vector (Option Res) 8 :=
  Vector.ofFn fun n => if inMask m n then some r else none

/-- Hold a job under the next number. -/
def State.hold (s : State) (slot : Word64) (v : SlotView) (results : Vector (Option Res) 8)
    (own : Option Res) (taken : TakenState) : State :=
  { s.addHeld (newHeld s.nextJid slot v results own taken) with nextJid := s.nextJid + 1 }

/-- A job ends at once with a result of its own, written back by R178 (R174, R175, R180). -/
def State.endAtOnce (s : State) (slot : Word64) (v : SlotView) (results : Vector (Option Res) 8)
    (r : Res) : State :=
  (s.hold slot v results (some r) .notNeeded).finishJob s.nextJid

/-! ## Table 2-2 -/

/-- A station's answer to an immediate kind by its state: none where the table says it executes. -/
def StationState.immediateRefusal (t : StationState) (j : Job) : Option ResultCode :=
  match j, t with
  | .enable, .off | .status _, _ => none
  | .enable, .ready | .enable, .quiescing | .enable, .parked => some .state
  | .abandon, .off => some .state
  | .abandon, .ready | .abandon, .quiescing | .abandon, .parked => none
  | _, .ready | _, .quiescing => none
  | _, .off | _, .parked => some .unavailable

/-- A station takes a queued kind. -/
def StationState.takes (t : StationState) (j : Job) : Bool :=
  match t with
  | .ready => true
  | .parked => j == .unpark
  | .off | .quiescing => false

/-! ## The station status record (R39, R40, Table 12-12) -/

/-- Byte 7 of a status record. -/
def statusFlags (t : Station) : Nat :=
  bit t.bpu.hold + 2 * bit t.lp.up + 4 * bit t.bpu.held.isSome + 8 * bit t.au.holder
    + 16 * bit t.pg.page.isSome + 32 * bit t.cap.loss

/-- The 64 bytes of a station status record. -/
def statusBytes (conn : ConnectorNo) (t : Station) : List Byte :=
  leBytes 1 t.state.code ++ leBytes 1 conn.val ++ leBytes 1 t.bpu.state.code
    ++ leBytes 1 ((t.profile.map fun p => p.powerMode.code).getD 0) ++ leBytes 1 t.bpu.cls.toNat
    ++ leBytes 1 t.bpu.latched.code ++ leBytes 1 t.bpu.retry ++ leBytes 1 (statusFlags t)
    ++ leBytes 1 t.au.boardRun.code ++ leBytes 1 t.cap.state.code ++ leBytes 2 t.cap.state.remaining
    ++ leBytes 1 t.ts.state.code ++ leBytes 1 t.ts.state.step
    ++ leBytes 1 ((t.bpu.held.map ProgressCode.width).getD 0) ++ leBytes 1 t.queue.length
    ++ leBytes 4 ((t.bpu.held.map fun h => h.value.toNat).getD 0)
    ++ leBytes 2 t.cap.used ++ leBytes 2 (historyBytes t.cap.history)
    ++ leBytes 4 t.cap.pend.records ++ leBytes 4 t.cap.pend.bytes
    ++ leBytes 1 t.au.entries.length ++ leBytes 1 t.au.retired.length ++ leBytes 2 t.cap.seq.toNat
    ++ leBytes 4 ((t.pg.page.map OpenPage.serial).getD 0)
    ++ [t.lp.health.flags, 0] ++ t.lp.health.counters ++ zeros 12

/-! ## Immediate jobs at one station (R175) -/

/-- Result codes of what an immediate job did at a station, with the state it leaves. -/
abbrev Done := State × Res

/-- ENABLE at an OFF station (R28). -/
def State.doEnable (s : State) (n : StationNo) : Done := (s.withStation n enableStation, Res.okv 0)

/-- A payload read of a job at station n. -/
def Purpose.isPayloadOf (n : StationNo) : Purpose → Bool
  | .profileRead _ m | .programRead _ m _ | .writeData _ m => m == n
  | _ => false

/-- Payload reads of station n are dropped when waiting and discarded when they arrive (R37, R38; log 18).
READ and BLOCK READ data writes that wait are left where they are and still issued: R38 and R76 speak only
of accesses already issued, and the choice is the model's (log 41). So it is that a payload read already
issued, should it fail, faults the device and marks no job: R38 speaks of data that arrives, R170 of the
held job that owns the read (log 56). -/
def State.dropPayloads (s : State) (n : StationNo) : State :=
  let s := s.makeStale (Purpose.isPayloadOf n)
  { s with hmp := { s.hmp with
      jobQ := s.hmp.jobQ.filter fun a => !a.purpose.isPayloadOf n } }

/-- ABANDON at a station (R37). -/
def State.doAbandon (s : State) (n : StationNo) : Done :=
  let value := (s.station n).queue.length
  (((s.abandonPage n).dropPayloads n).withStation n abandonStation, Res.okv value)

/-- STATUS at a station (R39), the address of its record taken modulo 2^64 (log 47). -/
def State.doStatus (s : State) (jid : Nat) (buf : Word64) (n : StationNo) : Done :=
  let t := s.station n
  (s.presentJob (Access.writeOf .job none (buf + BitVec.ofNat 64 (64 * n.val))
    (statusBytes (s.connectorOf n) t) (.statusRec jid n)), Res.okv t.cap.used)

/-- The MARK record of a MARK job (R11, R138). -/
def jobMark (value : Word32) (hostRef : Word64) (e : Env) (c : Ctx) : Ctx :=
  offerRec e (SrcRec.now e (.mark value .job hostRef) RecFlags.none) c

/-- MARK at a station: the value is 1 when the record was admitted (R138). -/
def State.doMark (s : State) (value : Word32) (hostRef : Word64) (n : StationNo) : Done :=
  let s' := s.withStation n (jobMark value hostRef)
  (s', Res.okv (bit ((s.station n).cap.state.admitting && !(s'.station n).cap.loss)))

/-- CAPTURE STOP at a station (R136; log 39). -/
def State.doStop (s : State) (post : Nat) (n : StationNo) : Done :=
  (s.withStation n fun _ => stopCapture post, Res.okv (bit ((s.station n).cap.state != .stopped)))

/-- DISARM at a station (R118). -/
def State.doDisarm (s : State) (n : StationNo) : Done :=
  (s.modStation n disarmStation, Res.okv (bit ((s.station n).ts.state.code == 1)))

/-- FLUSH at a station (R158). -/
def State.doFlush (s : State) (n : StationNo) : Done :=
  (s.modStation n (·.sealRequest .flush), Res.okv (s.station n).cap.used)

/-- One station's part of an immediate job: Table 2-2 decides, then the kind's rule (R175). -/
def State.immediateAt (s : State) (jid : Nat) (j : Job) (f : State → StationNo → Done)
    (n : StationNo) : State :=
  match (s.station n).state.immediateRefusal j with
  | some code => s.recordResult n jid (Res.ended code)
  | none =>
    let d := f s n
    d.1.recordResult n jid d.2

/-- An immediate job at each station of its mask, ascending (R175). -/
def State.immediate (s : State) (slot : Word64) (v : SlotView) (j : Job)
    (f : Nat → State → StationNo → Done) : State :=
  (maskStations v.header.mask).foldl (fun s' n => s'.immediateAt s.nextJid j (f s.nextJid) n)
    (s.hold slot v noResults none .notNeeded)

/-- What each immediate kind does at a station. -/
def Job.doAt (j : Job) (v : SlotView) (jid : Nat) (s : State) (n : StationNo) : Done :=
  match j with
  | .enable => s.doEnable n
  | .abandon => s.doAbandon n
  | .status buf => s.doStatus jid buf n
  | .mark value => s.doMark value v.header.hostRef n
  | .captureStop post => s.doStop post n
  | .disarm => s.doDisarm n
  | .flush => s.doFlush n
  | _ => (s, Res.ended .none)

/-! ## Device jobs (R3 to R5, R42) -/

/-- A load takes effect: every station's reference becomes invalid (R5). -/
def State.loadTime (s : State) (t : Tick) : State :=
  ({ s with tb := t, pendingLoad := none }).mapStations fun u =>
    { u with cap := u.cap.invalidate .timeLoad }

/-- A device job's effect and result. -/
def Job.device (j : Job) (s : State) : Done :=
  match j with
  | .timeLoadImmediate p => (s.loadTime (p.setWidth 48), Res.okv (bit s.pendingLoad.isSome))
  | .timeLoadOnSync p =>
    ({ s with pendingLoad := some (p.setWidth 48) }, Res.okv (bit s.pendingLoad.isSome))
  | .stationMap cs =>
    if allStations.all fun n => (s.station n).state == .off then
      ({ s with stationMap := Vector.ofFn fun n =>
          ⟨(cs.getD n.val 0).toNat % 8, Nat.mod_lt _ (by decide)⟩ }, Res.okv 0)
    else (s, Res.ended .state)
  | _ => (s, Res.ended .none)

/-! ## The take of a queued job (R176) -/

/-- The stations of a mask that take a queued job. -/
def State.takingStations (s : State) (m : Mask8) (j : Job) : List StationNo :=
  (maskStations m).filter fun n => (s.station n).state.takes j

/-- The results of a taken job: UNAVAILABLE at the stations that do not take it (R176). -/
def State.unavailableResults (s : State) (m : Mask8) (j : Job) : Vector (Option Res) 8 :=
  Vector.ofFn fun n =>
    if inMask m n && !(s.station n).state.takes j then some (Res.ended .unavailable) else none

/-- The job joins a station's queue; QUIESCE makes the station QUIESCING (R35, R176). -/
def joinQueue (q : QJob) (t : Station) : Station :=
  { t with queue := t.queue ++ [q], state := if q.job = .quiesce then .quiescing else t.state }

/-- A queued job is ended UNAVAILABLE, left POSTED or taken (R176). -/
def State.takeQueued (s : State) (slot : Word64) (v : SlotView) (j : Job) : State :=
  let m := v.header.mask
  let taking := s.takingStations m j
  if taking.isEmpty then
    (s.hold slot v (s.unavailableResults m j) none .notNeeded).finishJob s.nextJid
  else if taking.any fun n =>
      inMask s.sweep.blocked n || decide (Config.maxQueue ≤ (s.station n).queue.length) then
    { s with sweep := { s.sweep with blocked := s.sweep.blocked ||| m } }
  else
    let q : QJob := ⟨s.nextJid, v.header.hostRef, j⟩
    (taking.foldl (fun s n => s.modStation n (joinQueue q))
      (s.hold slot v (s.unavailableResults m j) none .waiting)).presentSweep
        (Access.writeOf .sweep none slot (leBytes 1 2) (.taken s.nextJid))

/-! ## A whole slot (R173, R174, R180) -/

/-- The kind code names a device kind (Table 10-5). -/
def isDeviceKind (k : Nat) : Bool := k == 22 || k == 23

/-- A posted job whose kind is known and whose mask and fields pass is executed or taken (R174 to
R176). -/
def State.runJob (s : State) (slot : Word64) (v : SlotView) (j : Job) : State :=
  match j.cls with
  | .immediate => s.immediate slot v j (j.doAt v)
  | .queued => s.takeQueued slot v j
  | .device =>
    let d := j.device s
    d.1.endAtOnce slot v noResults d.2

/-- The mask check (R174 step 2). -/
def SlotView.maskOk (v : SlotView) : Bool := (v.header.mask == 0) == isDeviceKind v.kind

/-- A posted slot is handled (R174). -/
def State.handlePosted (s : State) (slot : Word64) (v : SlotView) : State :=
  match v.job with
  | .badKind => s.endAtOnce slot v noResults (Res.ended .badKind)
  | .refused => s.endAtOnce slot v noResults (Res.ended .badParameter)
  | .job j =>
    if v.maskOk && j.fieldsOk then s.runJob slot v j
    else s.endAtOnce slot v noResults (Res.ended .badParameter)

/-- An orphaned slot is written back ABANDONED (R180). -/
def State.handleOrphan (s : State) (slot : Word64) (v : SlotView) : State :=
  s.endAtOnce slot v (resultsAt v.header.mask (Res.ended .abandoned)) (Res.ended .abandoned)

/-- A whole slot has arrived: it is handled unless it no longer reads the state it was read for, or its
address is held; then the sweep goes on (R173, R179, R180; log 29, log 31). -/
def State.slotArrives (s : State) (v : SlotView) (a : Access) : Option State :=
  match a.purpose with
  | .slotWhole i slot orphan live =>
    let s' :=
      if v.state ≠ (if orphan then 2 else 1) ∨ s.holdsSlot slot then s
      else if orphan then s.handleOrphan slot v
      else s.handlePosted slot v
    some (if live then s'.nextSlot i else s')
  | _ => none

/-- The state of a slot has arrived (R173, R180). -/
def State.slotStateArrives (s : State) (data : List Byte) (a : Access) : Option State :=
  match a.purpose, s.area with
  | .slotState i, some area =>
    let held := s.holdsSlot (area.slot i)
    if field data 0 1 = 1 ∧ held = false then some (s.readSlotWhole area i false)
    else if field data 0 1 = 2 ∧ s.sweep.first ∧ held = false then some (s.readSlotWhole area i true)
    else some (s.nextSlot i)
  | _, _ => none

/-- The slot of a typed job command: POSTED with this header and job (log 5). -/
def postedView (h : JobHeader) (j : Job) : SlotView := ⟨1, j.kind, h, .job j⟩

/-- Read `id` returns a slot that holds this job, POSTED (log 5). -/
def State.jobArrives (s : State) (id : Nat) (h : JobHeader) (j : Job) : State :=
  s.completeRead id 128 fun a s => s.slotArrives (postedView h j) a

end Sys2Proof.Machine
end

