-- ==== Sys2Proof/Machine/ExecRegister.lean ====
section
/-! DEFINITION. Meanings of the register window's commands (Chapter 10, R164 to R171, R181, R182). -/

namespace Sys2Proof.Machine

/-- What a command answers: the block has no command that stops it. -/
abbrev Answer := Host.Outcome State Fault Refusal

/-- POWER_ON_RESET (R164, R131). -/
def execPowerOnReset (lines : BitVec 4) (s : State) : Answer := .next (s.powerReset lines)

/-- SOFT_RESET: a CONTROL write (R165 step 1, R171; log 6). -/
def execSoftReset (v : Word32) (lines : BitVec 4) (s : State) : Answer := .next (s.takeControl v lines)

/-- ATTENTION_MASK_WRITE: a CONTROL write (R165 step 2, R182; log 6). -/
def execAttentionMaskWrite (v : Word32) (s : State) : Answer := .next (s.takeControl v s.lines)

/-- START: a CONTROL write (R165 step 3, R167, R184; log 6). -/
def execStart (v : Word32) (s : State) : Answer := .next (s.takeControl v s.lines)

/-- HALT: a CONTROL write (R165 step 3, R167, R169, R170; log 6). -/
def execHalt (v : Word32) (s : State) : Answer := .next (s.takeControl v s.lines)

/-- RESUME: a CONTROL write (R165 step 4, R170; log 6). -/
def execResume (v : Word32) (s : State) : Answer := .next (s.takeControl v s.lines)

/-- WAKE: any value requests a sweep while RUNNING (R164, R173). -/
def execWake (_v : Word32) (s : State) : Answer :=
  .next (if s.draining then s.requestSweep false else s)

/-- ATTENTION_CLEAR: each 1 clears the matching bit (R181). -/
def execAttentionClear (v : Word32) (s : State) : Answer :=
  .next { s with attention := s.attention &&& ~~~(v.setWidth 11) }

/-- REGISTER_WRITE: AREA BASE is stored, STATUS and FAULT ADDRESS ignore the write (R164). -/
def execRegisterWrite (r : PlainReg) (v : Word32) (s : State) : Answer :=
  match r with
  | .areaBaseLow => .next { s with areaBaseLow := v }
  | .areaBaseHigh => .next { s with areaBaseHigh := v }
  | .status | .faultAddressLow | .faultAddressHigh => .next s

end Sys2Proof.Machine
end

