-- ==== Sys2Proof/Machine/ExecPort.lean ====
section
/-! DEFINITION. Meanings of the host-memory port's commands and of the read completions (R160 to R163,
R167, R173, R174, R30, R78, R116, R151). -/

namespace Sys2Proof.Machine

/-- DESCRIPTOR_READ_DONE (R167, R168). -/
def execDescriptorReadDone (id : Nat) (data : List Byte) (s : State) : Answer :=
  .next (s.completeRead id data.length fun a s =>
    if a.purpose = .descriptorRead ∧ s.start = .reading then some (s.descriptorArrives a.addr data)
    else none)

/-- ACCESS_GRANT (R160 to R162). -/
def execAccessGrant (s : State) : Answer := .next s.arbitrate

/-- ERROR_COMPLETION (R163). -/
def execErrorCompletion (id : Nat) (s : State) : Answer := .next (s.errorCompletion id)

/-- READ_TIMEOUT (R163). -/
def execReadTimeout (id : Nat) (s : State) : Answer := .next (s.readTimesOut id)

/-- SWEEP_TIMER_EXPIRY: the timer restarts and a sweep is requested (R173). -/
def execSweepTimerExpiry (s : State) : Answer :=
  .next (if due s.sweep.timer s.elapsed then s.startSweepTimer.requestSweep false else s)

/-- SLOT_STATE_READ_DONE (R173, R180). -/
def execSlotStateReadDone (id : Nat) (data : List Byte) (s : State) : Answer :=
  .next (s.completeRead id data.length fun a s => s.slotStateArrives data a)

/-- SLOT_READ_DONE (R173 to R180). -/
def execSlotReadDone (id : Nat) (data : List Byte) (s : State) : Answer :=
  .next (s.completeRead id data.length fun a s => s.slotArrives (slotView data) a)

/-- A payload read of a job returns: the station whose head still waits for it goes on, otherwise the
data is discarded. -/
def State.payloadArrives (s : State) (jid : Nat) (n : StationNo) (f : Env → Ctx → Ctx) : State :=
  if (s.station n).headJid = some jid then s.withStation n f else s

/-- PROFILE_READ_DONE (R30). -/
def execProfileReadDone (id : Nat) (data : List Byte) (s : State) : Answer :=
  .next (s.completeRead id data.length fun a s =>
    match a.purpose with
    | .profileRead jid n =>
      some (s.payloadArrives jid n fun e c =>
        if c.st.head = .profileRead then profileArrives e data c else c)
    | _ => none)

/-- WRITE_DATA_READ_DONE (R78). -/
def execWriteDataReadDone (id : Nat) (data : List Byte) (s : State) : Answer :=
  .next (s.completeRead id data.length fun a s =>
    match a.purpose with
    | .writeData jid n =>
      some (s.payloadArrives jid n fun e c =>
        if c.st.head = .writeDataRead then writeDataArrives e data c else c)
    | _ => none)

/-- PROGRAM_READ_DONE: one part of the program record (R115, R116; log 9). -/
def execProgramReadDone (id : Nat) (data : List Byte) (s : State) : Answer :=
  .next (s.completeRead id data.length fun a s =>
    match a.purpose with
    | .programRead jid n part => some (s.payloadArrives jid n fun e => programPart e part data)
    | _ => none)

/-- ENTRY_READ_DONE (R151, R152). -/
def execEntryReadDone (id : Nat) (data : List Byte) (s : State) : Answer :=
  .next (s.completeRead id data.length fun a s =>
    match a.purpose, s.acq, s.area with
    | .entryRead i, some q, some area =>
      if q.index = i then some (s.entryArrives area q data) else none
    | _, _, _ => none)

end Sys2Proof.Machine
end

