-- ==== Sys2Proof/Machine/ExecJobs.lean ====
section
/-! DEFINITION. Meanings of the immediate and device jobs, each the arrival of a whole-slot read that
returns the job POSTED (R174, R175; log 5), and of the SYNC edge (R4). -/

namespace Sys2Proof.Machine

/-- ENABLE (R28). -/
def execEnable (id : Nat) (h : JobHeader) (s : State) : Answer := .next (s.jobArrives id h .enable)

/-- ABANDON (R37, R38). -/
def execAbandon (id : Nat) (h : JobHeader) (s : State) : Answer := .next (s.jobArrives id h .abandon)

/-- STATUS (R39, R40). -/
def execStatus (id : Nat) (h : JobHeader) (buf : Word64) (s : State) : Answer :=
  .next (s.jobArrives id h (.status buf))

/-- MARK (R138). -/
def execMark (id : Nat) (h : JobHeader) (value : Word32) (s : State) : Answer :=
  .next (s.jobArrives id h (.mark value))

/-- CAPTURE_STOP (R136). -/
def execCaptureStop (id : Nat) (h : JobHeader) (post : BitVec 16) (s : State) : Answer :=
  .next (s.jobArrives id h (.captureStop post.toNat))

/-- DISARM (R118). -/
def execDisarm (id : Nat) (h : JobHeader) (s : State) : Answer := .next (s.jobArrives id h .disarm)

/-- FLUSH (R158). -/
def execFlush (id : Nat) (h : JobHeader) (s : State) : Answer := .next (s.jobArrives id h .flush)

/-- TIME_LOAD_IMMEDIATE (R3). -/
def execTimeLoadImmediate (id : Nat) (h : JobHeader) (preset : Word64) (s : State) : Answer :=
  .next (s.jobArrives id h (.timeLoadImmediate preset))

/-- TIME_LOAD_ON_SYNC (R4). -/
def execTimeLoadOnSync (id : Nat) (h : JobHeader) (preset : Word64) (s : State) : Answer :=
  .next (s.jobArrives id h (.timeLoadOnSync preset))

/-- STATION_MAP (R42). -/
def execStationMap (id : Nat) (h : JobHeader) (connectors : List Byte) (s : State) : Answer :=
  .next (s.jobArrives id h (.stationMap connectors))

/-- SYNC_EDGE: a pending load takes effect (R4, R5). -/
def execSyncEdge (s : State) : Answer :=
  match s.pendingLoad with
  | some p => .next (s.loadTime p)
  | none => .next s

end Sys2Proof.Machine
end

