-- ==== Sys2Proof/Machine/ExecHeads.lean ====
section
/-! DEFINITION. Meanings of the queued jobs at the head of a station's queue: each acts when the head
has not been checked yet and is a job of that row (R27, R177; log 5). -/

namespace Sys2Proof.Machine

/-- CONFIGURE (R30). -/
def execConfigure (n : StationNo) (s : State) : Answer :=
  .next (s.withStation n fun e c =>
    match c.st.waitingJob with
    | some (.configure a) => gated (.configure a) (configureJob e a) c
    | _ => c)

/-- PARK (R32). -/
def execPark (n : StationNo) (s : State) : Answer :=
  .next (s.withStation n fun e c =>
    match c.st.waitingJob with
    | some .park => gated .park (parkJob e) c
    | _ => c)

/-- UNPARK (R34). -/
def execUnpark (n : StationNo) (s : State) : Answer :=
  .next (s.withStation n fun e c =>
    match c.st.waitingJob with
    | some .unpark => gated .unpark (unparkJob e) c
    | _ => c)

/-- WAKE_INTERVAL_END (R34). -/
def execWakeIntervalEnd (n : StationNo) (s : State) : Answer := .next (s.withStation n wakeEnds)

/-- QUIESCE (R36): steps 1 and 2, and the end of a drain with nothing to drain. -/
def execQuiesce (n : StationNo) (s : State) : Answer :=
  .next ((s.withStation n fun e c =>
    match c.st.waitingJob with
    | some .quiesce => gated .quiesce (quiesceJob e) c
    | _ => c).quiesceCheck n)

/-- POWER_ON (R111). -/
def execPowerOn (n : StationNo) (s : State) : Answer :=
  .next (s.withStation n fun e c =>
    match c.st.waitingJob with
    | some .powerOn => gated .powerOn (powerOnJob e) c
    | _ => c)

/-- POWER_OFF (R112). -/
def execPowerOff (n : StationNo) (s : State) : Answer :=
  .next (s.withStation n fun e c =>
    match c.st.waitingJob with
    | some .powerOff => gated .powerOff (powerOffJob e) c
    | _ => c)

/-- SET_MODE (R112, R107). -/
def execSetMode (n : StationNo) (s : State) : Answer :=
  .next (s.withStation n fun e c =>
    match c.st.waitingJob with
    | some (.setMode m) => gated (.setMode m) (setModeJob e m) c
    | _ => c)

/-- RESET_PULSE (R113, R109). -/
def execResetPulse (n : StationNo) (s : State) : Answer :=
  .next (s.withStation n fun e c =>
    match c.st.waitingJob with
    | some (.resetPulse w) => gated (.resetPulse w) (resetPulseJob e w) c
    | _ => c)

/-- RESET_HOLD (R113, R108). -/
def execResetHold (n : StationNo) (s : State) : Answer :=
  .next (s.withStation n fun e c =>
    match c.st.waitingJob with
    | some .resetHold => gated .resetHold (resetHoldJob e) c
    | _ => c)

/-- RESET_RELEASE (R113, R108). -/
def execResetRelease (n : StationNo) (s : State) : Answer :=
  .next (s.withStation n fun e c =>
    match c.st.waitingJob with
    | some .resetRelease => gated .resetRelease (resetReleaseJob e) c
    | _ => c)

/-- READ (R76, R77). -/
def execRead (n : StationNo) (s : State) : Answer :=
  .next (s.withStation n fun e c =>
    match c.st.waitingJob with
    | some (.read a k b) => gated (.read a k b) (startAccess e [⟨.read, a, [], k, 0⟩]) c
    | _ => c)

/-- WRITE_INLINE (R76, R78). -/
def execWriteInline (n : StationNo) (s : State) : Answer :=
  .next (s.withStation n fun e c =>
    match c.st.waitingJob with
    | some (.writeInline a k ws) => gated (.writeInline a k ws) (startAccess e [⟨.write, a, ws, k, 0⟩]) c
    | _ => c)

/-- WRITE_BUFFER (R76, R78). -/
def execWriteBuffer (n : StationNo) (s : State) : Answer :=
  .next (s.withStation n fun e c =>
    match c.st.waitingJob with
    | some (.writeBuffer a k b) => gated (.writeBuffer a k b) (writeBufferJob e k b) c
    | _ => c)

/-- BLOCK_READ (R76, R80): request words are read here. -/
def execBlockRead (n : StationNo) (s : State) : Answer :=
  .next (s.withStation n fun e c =>
    match c.st.waitingJob with
    | some (.blockRead a k b) =>
      gated (.blockRead a k b) (startAccess e (blockRequests a c.st.prof.requestWords k)) c
    | _ => c)

/-- BOARD_CONTROL (R76, R79). -/
def execBoardControl (n : StationNo) (s : State) : Answer :=
  .next (s.withStation n fun e c =>
    match c.st.waitingJob with
    | some (.boardControl code) => gated (.boardControl code) (startAccess e [controlReq code]) c
    | _ => c)

/-- PING (R76, R79). -/
def execPing (n : StationNo) (s : State) : Answer :=
  .next (s.withStation n fun e c =>
    match c.st.waitingJob with
    | some .ping => gated .ping (startAccess e [⟨.ping, 0, [], 0, 0⟩]) c
    | _ => c)

/-- CONSOLE_SEND (R95). -/
def execConsoleSend (n : StationNo) (s : State) : Answer :=
  .next (s.withStation n fun e c =>
    match c.st.waitingJob with
    | some (.consoleSend k bs) => gated (.consoleSend k bs) (sendConsole e k bs) c
    | _ => c)

/-- ARM (R115). -/
def execArm (n : StationNo) (s : State) : Answer :=
  .next (s.withStation n fun e c =>
    match c.st.waitingJob with
    | some (.arm a) => gated (.arm a) (armJob e a) c
    | _ => c)

/-- CAPTURE_START_IMMEDIATE (R135). -/
def execCaptureStartImmediate (n : StationNo) (s : State) : Answer :=
  .next (s.withStation n fun e c =>
    match c.st.waitingJob with
    | some .captureStartImmediate => gated .captureStartImmediate (captureImmediateJob e) c
    | _ => c)

/-- CAPTURE_START_TRIGGERED (R135). -/
def execCaptureStartTriggered (n : StationNo) (s : State) : Answer :=
  .next (s.withStation n fun _ c =>
    match c.st.waitingJob with
    | some .captureStartTriggered => gated .captureStartTriggered captureTriggeredJob c
    | _ => c)

end Sys2Proof.Machine
end

