-- ==== Sys2Proof/Machine/ExecLink.lean ====
section
/-! DEFINITION. Meanings of the board debug link's and the access unit's events (Chapters 3, 4). What
arrives on a link names its connector, timers and the transmitter the station (R41, log 25). -/

namespace Sys2Proof.Machine

/-- SIGNAL_ACQUIRED (R43). -/
def execSignalAcquired (c : ConnectorNo) (s : State) : Answer := .next (s.atConnector c fun _ => signalUp)

/-- SIGNAL_LOST (R44, R82). -/
def execSignalLost (c : ConnectorNo) (s : State) : Answer :=
  .next (s.atConnector c fun e x => parkCheck e (signalDown e x))

/-- START_DELIMITER (R46, R47). -/
def execStartDelimiter (c : ConnectorNo) (s : State) : Answer := .next (s.atConnector c fun _ => takeStart)

/-- END_DELIMITER_IN_IDLE (R47). -/
def execEndDelimiterInIdle (c : ConnectorNo) (s : State) : Answer := .next (s.atConnector c takeEndInIdle)

/-- PACKET_DISCARD (R47, R48). -/
def execPacketDiscard (c : ConnectorNo) (s : State) : Answer := .next (s.atConnector c endDiscarded)

/-- TRACE_PACKET (R54). -/
def execTracePacket (c : ConnectorNo) (s : State) : Answer := .next (s.atConnector c endTrace)

/-- PROGRESS_PACKET (R55). -/
def execProgressPacket (c : ConnectorNo) (s : State) : Answer := .next (s.atConnector c endProgress)

/-- RESPONSE_PACKET (R56, R68, R69, R72). -/
def execResponsePacket (c : ConnectorNo) (s : State) : Answer :=
  .next (s.atConnector c fun e x => parkCheck e (endResponse e x))

/-- NOTICE_PACKET (R57). -/
def execNoticePacket (c : ConnectorNo) (s : State) : Answer := .next (s.atConnector c endNotice)

/-- HEALTH_INTERVAL_EXPIRY (R60). -/
def execHealthIntervalExpiry (n : StationNo) (s : State) : Answer :=
  .next (s.withStation n fun e c => if due c.st.lp.quiet e.now then quietExpires e c else c)

/-- TRANSMIT_DONE (R63). -/
def execTransmitDone (n : StationNo) (s : State) : Answer := .next (s.withStation n fun _ => transmitted)

/-- BDL_DATA_BYTE (R46). -/
def execBdlDataByte (c : ConnectorNo) (b : Byte) (s : State) : Answer :=
  .next (s.atConnector c fun _ => takeDataByte b)

/-- RESPONSE_TIMEOUT_EXPIRY (R70, R72). -/
def execResponseTimeoutExpiry (n : StationNo) (tag : Fin 64) (s : State) : Answer :=
  .next (s.withStation n fun e c => parkCheck e (takeTimeout e tag c))

/-- RETIRE_EXPIRY (R71). -/
def execRetireExpiry (n : StationNo) (tag : Fin 64) (s : State) : Answer :=
  .next (s.withStation n fun e => takeRetireExpiry e tag)

end Sys2Proof.Machine
end

