-- ==== Sys2Proof/Machine/ExecConsole.lean ====
section
/-! DEFINITION. Meanings of the console's events (Chapter 5). What arrives on a console RX line names its
connector, the timer and the transmitter the station (R41, log 25). -/

namespace Sys2Proof.Machine

/-- CONSOLE_START_EDGE (R84). -/
def execConsoleStartEdge (c : ConnectorNo) (s : State) : Answer := .next (s.atConnector c startEdge)

/-- START_BIT_SAMPLE (R84, R88). -/
def execStartBitSample (c : ConnectorNo) (high : Bool) (s : State) : Answer :=
  .next (s.atConnector c fun e => startSample e high)

/-- CONSOLE_BYTE: the stop bit sample (R84 to R87, R93). -/
def execConsoleByte (c : ConnectorNo) (data : Byte) (stop : Bool) (s : State) : Answer :=
  .next (s.atConnector c fun e => stopSample e data stop)

/-- RX_RISE (R85). -/
def execRxRise (c : ConnectorNo) (s : State) : Answer := .next (s.atConnector c heldRise)

/-- BREAK (R85, R89). -/
def execBreakDetected (c : ConnectorNo) (s : State) : Answer := .next (s.atConnector c breakThreshold)

/-- IDLE_CLOSE_EXPIRY (R88). -/
def execIdleCloseExpiry (n : StationNo) (s : State) : Answer := .next (s.withStation n idleExpires)

/-- CONSOLE_BYTE_SENT (R94, R95). -/
def execConsoleByteSent (n : StationNo) (s : State) : Answer := .next (s.withStation n byteSent)

end Sys2Proof.Machine
end

