-- ==== Sys2Proof/Machine/ExecPower.lean ====
section
/-! DEFINITION. Meanings of the power inputs' edges and the power timers' ends (Chapter 6). The
fixture inputs name a connector, the timers a station (log 25). -/

namespace Sys2Proof.Machine

/-- `f` when a timer of the station's BPU is due (log 3). -/
def whenDue (timer : PowerUnit → Option Nat) (f : Env → Ctx → Ctx) (e : Env) (c : Ctx) : Ctx :=
  if due (timer c.st.bpu) e.now then f e c else c

/-- The raw PRESENT input takes a level and the straps read what they read: a change of the level
restarts the settle filter, which runs while the level differs from the settled value (R99). -/
def Connector.input (p : Connector) (level : Bool) (straps : BitVec 3) (now : Nat) : Connector :=
  { p with
    present := level, straps := straps
    settle :=
      if level = p.present then p.settle
      else if level = p.settled then none
      else some (now + Config.settleTicks) }

/-- PRESENT_INPUT_CHANGE (R99). -/
def execPresentInputChange (c : ConnectorNo) (level : Bool) (straps : BitVec 3) (s : State) : Answer :=
  .next (s.modConnector c fun p => p.input level straps s.elapsed)

/-- PRESENT_SETTLE_EXPIRY (R99, R106). -/
def execPresentSettleExpiry (c : ConnectorNo) (s : State) : Answer :=
  .next (if due (s.connector c).settle s.elapsed then
    (s.modConnector c fun p => { p with settled := p.present, settle := none }).atConnector c
      presentSettled
  else s)

/-- PWR_GOOD_RISE (R103). -/
def execPwrGoodRise (c : ConnectorNo) (s : State) : Answer :=
  .next (if (s.connector c).pwrGood then s
    else (s.modConnector c fun p => { p with pwrGood := true }).atConnector c goodRises)

/-- PWR_GOOD_FALL (R103). -/
def execPwrGoodFall (c : ConnectorNo) (s : State) : Answer :=
  .next (if (s.connector c).pwrGood then
      (s.modConnector c fun p => { p with pwrGood := false }).atConnector c goodFalls
    else s)

/-- OVERLOAD_RISE (R104). -/
def execOverloadRise (c : ConnectorNo) (s : State) : Answer :=
  .next (if (s.connector c).overload then s
    else (s.modConnector c fun p => { p with overload := true }).atConnector c overloadRises)

/-- OVERLOAD_FALL (R104). -/
def execOverloadFall (c : ConnectorNo) (s : State) : Answer :=
  .next (if (s.connector c).overload then
      (s.modConnector c fun p => { p with overload := false }).atConnector c fun _ => overloadFalls
    else s)

/-- INRUSH_WINDOW_CLOSE (R104). -/
def execInrushWindowClose (n : StationNo) (s : State) : Answer :=
  .next (s.withStation n (whenDue PowerUnit.inrush inrushCloses))

/-- OVERLOAD_FILTER_EXPIRY (R104). -/
def execOverloadFilterExpiry (n : StationNo) (s : State) : Answer :=
  .next (s.withStation n (whenDue PowerUnit.overload fun e => takeFault e .overload))

/-- AUTO_SETTLE_EXPIRY (R102). -/
def execAutoSettleExpiry (n : StationNo) (s : State) : Answer :=
  .next (s.withStation n (whenDue PowerUnit.autoSettle settleDecides))

/-- RAMP_TIMER_EXPIRY (R103, R104). -/
def execRampTimerExpiry (n : StationNo) (s : State) : Answer :=
  .next (s.withStation n (whenDue PowerUnit.ramp fun e => takeFault e .ramp))

/-- COOLDOWN_EXPIRY (R105). -/
def execCooldownExpiry (n : StationNo) (s : State) : Answer :=
  .next (s.withStation n (whenDue PowerUnit.cooldown cooldownExpires))

/-- RESET_DELAY_EXPIRY (R108). -/
def execResetDelayExpiry (n : StationNo) (s : State) : Answer :=
  .next (s.withStation n (whenDue PowerUnit.delay endAssertion))

/-- RESET_PULSE_EXPIRY (R109, R113). -/
def execResetPulseExpiry (n : StationNo) (s : State) : Answer :=
  .next (s.withStation n (whenDue PowerUnit.pulse pulseExpires))

end Sys2Proof.Machine
end

