-- ==== Sys2Proof/Machine/ExecSequencer.lean ====
section
/-! DEFINITION. Meanings of the step timer's end, the bench lines' edges and the drives' ends
(Chapter 7). -/

namespace Sys2Proof.Machine

/-- The step timer of a sequencer. -/
def SeqState.timer : SeqState → Option Nat
  | .armed _ _ t => t
  | .disarmed | .done => none

/-- STEP_TIMER_EXPIRY (R122). -/
def execStepTimerExpiry (n : StationNo) (s : State) : Answer :=
  .next (s.withStation n fun e c =>
    if due c.st.ts.state.timer e.now then stepTimerExpires e c else c)

/-- The observed level of a line. -/
def State.line (s : State) (l : LineNo) : Bool := s.lines.getLsbD l.val

/-- BENCH_LINE_RISE: the edge is reported to every station (R132; log 12). -/
def execBenchLineRise (l : LineNo) (s : State) : Answer :=
  .next (if s.line l then s
    else
      ({ s with lines := s.lines ||| (1#4 <<< l.val) }).eachStation fun s n =>
        s.withStation n fun e => report e (.benchLine l.val))

/-- This card pulls a line: some station of it drives the line (R131). -/
def State.pulls (s : State) (l : LineNo) : Bool :=
  allStations.any fun n => (s.station n).ts.drives[l.val].isSome

/-- BENCH_LINE_FALL: not while this card pulls the line (R131, R133; log 12). -/
def execBenchLineFall (l : LineNo) (s : State) : Answer :=
  .next (if s.pulls l then s else { s with lines := s.lines &&& ~~~(1#4 <<< l.val) })

/-- DRIVE_END (R133). -/
def execDriveEnd (n : StationNo) (l : LineNo) (s : State) : Answer :=
  .next (s.modStation n fun t =>
    if due t.ts.drives[l.val] s.elapsed then
      { t with ts := { t.ts with drives := t.ts.drives.set l.val none } }
    else t)

end Sys2Proof.Machine
end

