-- ==== Sys2Proof/Machine/ExecPages.lean ====
section
/-! DEFINITION. Meanings of PGM's own steps and of the idle flush timer's end (Chapter 9). -/

namespace Sys2Proof.Machine

/-- PAGE_ACQUISITION (R150; log 35). -/
def execPageAcquisition (s : State) : Answer := .next s.acquire

/-- DRAIN_STEP (R153, R154, R158). -/
def execDrainStep (n : StationNo) (s : State) : Answer :=
  .next (if s.draining then s.modStation n (drainStation n) else s)

/-- IDLE_FLUSH_EXPIRY (R157). -/
def execIdleFlushExpiry (n : StationNo) (s : State) : Answer :=
  .next (if s.draining ∧ due (s.station n).pg.idleFlush s.elapsed then
      s.modStation n (idleFlushStation n)
    else s)

end Sys2Proof.Machine
end

