-- ==== Sys2Proof/Machine/Dispatch.lean ====
section
/-! DEFINITION. The effect of a command on everything but the queue of waiting commands: one arm per
row of spec/opcode_table.json. -/

namespace Sys2Proof.Machine

def exec (i : Instr) (s : State) : Host.Outcome State Fault Refusal :=
  match i with
  | .powerOnReset lines => Sys2Proof.Machine.execPowerOnReset lines s
  | .softReset v lines => Sys2Proof.Machine.execSoftReset v lines s
  | .attentionMaskWrite v => Sys2Proof.Machine.execAttentionMaskWrite v s
  | .start v => Sys2Proof.Machine.execStart v s
  | .halt v => Sys2Proof.Machine.execHalt v s
  | .resume v => Sys2Proof.Machine.execResume v s
  | .wake v => Sys2Proof.Machine.execWake v s
  | .attentionClear v => Sys2Proof.Machine.execAttentionClear v s
  | .registerWrite r v => Sys2Proof.Machine.execRegisterWrite r v s
  | .descriptorReadDone id data => Sys2Proof.Machine.execDescriptorReadDone id data s
  | .accessGrant => Sys2Proof.Machine.execAccessGrant s
  | .errorCompletion id => Sys2Proof.Machine.execErrorCompletion id s
  | .readTimeout id => Sys2Proof.Machine.execReadTimeout id s
  | .sweepTimerExpiry => Sys2Proof.Machine.execSweepTimerExpiry s
  | .slotStateReadDone id data => Sys2Proof.Machine.execSlotStateReadDone id data s
  | .slotReadDone id data => Sys2Proof.Machine.execSlotReadDone id data s
  | .enable id h => Sys2Proof.Machine.execEnable id h s
  | .abandon id h => Sys2Proof.Machine.execAbandon id h s
  | .status id h buf => Sys2Proof.Machine.execStatus id h buf s
  | .mark id h value => Sys2Proof.Machine.execMark id h value s
  | .captureStop id h post => Sys2Proof.Machine.execCaptureStop id h post s
  | .disarm id h => Sys2Proof.Machine.execDisarm id h s
  | .flush id h => Sys2Proof.Machine.execFlush id h s
  | .configure n => Sys2Proof.Machine.execConfigure n s
  | .profileReadDone id data => Sys2Proof.Machine.execProfileReadDone id data s
  | .park n => Sys2Proof.Machine.execPark n s
  | .unpark n => Sys2Proof.Machine.execUnpark n s
  | .wakeIntervalEnd n => Sys2Proof.Machine.execWakeIntervalEnd n s
  | .quiesce n => Sys2Proof.Machine.execQuiesce n s
  | .powerOn n => Sys2Proof.Machine.execPowerOn n s
  | .powerOff n => Sys2Proof.Machine.execPowerOff n s
  | .setMode n => Sys2Proof.Machine.execSetMode n s
  | .resetPulse n => Sys2Proof.Machine.execResetPulse n s
  | .resetHold n => Sys2Proof.Machine.execResetHold n s
  | .resetRelease n => Sys2Proof.Machine.execResetRelease n s
  | .read n => Sys2Proof.Machine.execRead n s
  | .writeInline n => Sys2Proof.Machine.execWriteInline n s
  | .writeBuffer n => Sys2Proof.Machine.execWriteBuffer n s
  | .writeDataReadDone id data => Sys2Proof.Machine.execWriteDataReadDone id data s
  | .blockRead n => Sys2Proof.Machine.execBlockRead n s
  | .boardControl n => Sys2Proof.Machine.execBoardControl n s
  | .ping n => Sys2Proof.Machine.execPing n s
  | .consoleSend n => Sys2Proof.Machine.execConsoleSend n s
  | .arm n => Sys2Proof.Machine.execArm n s
  | .programReadDone id data => Sys2Proof.Machine.execProgramReadDone id data s
  | .captureStartImmediate n => Sys2Proof.Machine.execCaptureStartImmediate n s
  | .captureStartTriggered n => Sys2Proof.Machine.execCaptureStartTriggered n s
  | .timeLoadImmediate id h preset => Sys2Proof.Machine.execTimeLoadImmediate id h preset s
  | .timeLoadOnSync id h preset => Sys2Proof.Machine.execTimeLoadOnSync id h preset s
  | .stationMap id h connectors => Sys2Proof.Machine.execStationMap id h connectors s
  | .syncEdge => Sys2Proof.Machine.execSyncEdge s
  | .signalAcquired c => Sys2Proof.Machine.execSignalAcquired c s
  | .signalLost c => Sys2Proof.Machine.execSignalLost c s
  | .startDelimiter c => Sys2Proof.Machine.execStartDelimiter c s
  | .endDelimiterInIdle c => Sys2Proof.Machine.execEndDelimiterInIdle c s
  | .packetDiscard c => Sys2Proof.Machine.execPacketDiscard c s
  | .tracePacket c => Sys2Proof.Machine.execTracePacket c s
  | .progressPacket c => Sys2Proof.Machine.execProgressPacket c s
  | .responsePacket c => Sys2Proof.Machine.execResponsePacket c s
  | .noticePacket c => Sys2Proof.Machine.execNoticePacket c s
  | .healthIntervalExpiry n => Sys2Proof.Machine.execHealthIntervalExpiry n s
  | .transmitDone n => Sys2Proof.Machine.execTransmitDone n s
  | .responseTimeoutExpiry n tag => Sys2Proof.Machine.execResponseTimeoutExpiry n tag s
  | .retireExpiry n tag => Sys2Proof.Machine.execRetireExpiry n tag s
  | .consoleByte c data stop => Sys2Proof.Machine.execConsoleByte c data stop s
  | .rxRise c => Sys2Proof.Machine.execRxRise c s
  | .breakDetected c => Sys2Proof.Machine.execBreakDetected c s
  | .idleCloseExpiry n => Sys2Proof.Machine.execIdleCloseExpiry n s
  | .consoleByteSent n => Sys2Proof.Machine.execConsoleByteSent n s
  | .presentInputChange c level straps => Sys2Proof.Machine.execPresentInputChange c level straps s
  | .presentSettleExpiry c => Sys2Proof.Machine.execPresentSettleExpiry c s
  | .pwrGoodRise c => Sys2Proof.Machine.execPwrGoodRise c s
  | .pwrGoodFall c => Sys2Proof.Machine.execPwrGoodFall c s
  | .overloadRise c => Sys2Proof.Machine.execOverloadRise c s
  | .overloadFall c => Sys2Proof.Machine.execOverloadFall c s
  | .inrushWindowClose n => Sys2Proof.Machine.execInrushWindowClose n s
  | .overloadFilterExpiry n => Sys2Proof.Machine.execOverloadFilterExpiry n s
  | .autoSettleExpiry n => Sys2Proof.Machine.execAutoSettleExpiry n s
  | .rampTimerExpiry n => Sys2Proof.Machine.execRampTimerExpiry n s
  | .cooldownExpiry n => Sys2Proof.Machine.execCooldownExpiry n s
  | .resetDelayExpiry n => Sys2Proof.Machine.execResetDelayExpiry n s
  | .resetPulseExpiry n => Sys2Proof.Machine.execResetPulseExpiry n s
  | .stepTimerExpiry n => Sys2Proof.Machine.execStepTimerExpiry n s
  | .benchLineRise l => Sys2Proof.Machine.execBenchLineRise l s
  | .benchLineFall l => Sys2Proof.Machine.execBenchLineFall l s
  | .driveEnd n l => Sys2Proof.Machine.execDriveEnd n l s
  | .pageAcquisition => Sys2Proof.Machine.execPageAcquisition s
  | .entryReadDone id data => Sys2Proof.Machine.execEntryReadDone id data s
  | .drainStep n => Sys2Proof.Machine.execDrainStep n s
  | .idleFlushExpiry n => Sys2Proof.Machine.execIdleFlushExpiry n s
  | .bdlDataByte c b => Sys2Proof.Machine.execBdlDataByte c b s
  | .consoleStartEdge c => Sys2Proof.Machine.execConsoleStartEdge c s
  | .startBitSample c high => Sys2Proof.Machine.execStartBitSample c high s

end Sys2Proof.Machine
end

