-- ==== Sys2Proof/Machine/Step.lean ====
section
/-! DEFINITION. One step of the block: the command at the front of the queue is carried out, or, with
none waiting, one tick passes. -/

namespace Sys2Proof.Machine

/-- One tick of the internal reference: the time base counts on modulo 2^48 (R1; log 2). -/
def State.tick (s : State) : State := { s with tb := s.tb + 1, elapsed := s.elapsed + 1 }

/-- One step: the front command acts on the state with the rest of the queue; an empty queue lets a
tick pass. -/
def step (s : State) : Host.Outcome State Fault Refusal :=
  match s.pending with
  | [] => .next s.tick
  | c :: rest => exec c { s with pending := rest }

/-- `s` with the command a table word spells at the front of its queue. -/
def State.withFetchWord (s : State) (nbits w : Nat) : State :=
  match decodeTableWord nbits w with
  | some c => { s with pending := c :: s.pending }
  | none => s

end Sys2Proof.Machine
end

