-- ==== Sys2Proof/Machine/Outputs.lean ====
section
/-! DEFINITION. What the device drives at each fixture connector: the outputs of the station the
connector serves (R41, R63, R94, R97). -/

namespace Sys2Proof.Machine

/-- An output of the station a connector serves; `rest` where the map gives none. -/
def State.outputOf {α : Type} (s : State) (c : ConnectorNo) (rest : α) (f : Station → α) : α :=
  match s.stationOf c with
  | some n => f (s.station n)
  | none => rest

/-- PWR_EN at a connector (R41, R97). -/
def State.pwrEnAt (s : State) (c : ConnectorNo) : Bool := s.outputOf c false fun t => t.bpu.pwrEn

/-- BOARD_RESET at a connector, true when asserted (R41, R97). -/
def State.boardResetAt (s : State) (c : ConnectorNo) : Bool :=
  s.outputOf c true fun t => t.bpu.boardReset

/-- The console TX line at a connector (R41, R94). -/
def State.txLineAt (s : State) (c : ConnectorNo) : Bool :=
  s.outputOf c true fun t => t.cu.txLine s.elapsed

/-- The bytes of the request packet being sent on the link of a connector, none while nothing is sent
(R41, R62, R63). -/
def State.sendingAt (s : State) (c : ConnectorNo) : Option (List Byte) :=
  s.outputOf c none fun t => t.lp.sending

end Sys2Proof.Machine
end

