-- ==== Sys2Proof/Safety.lean ====
section
/-! DEFINITION. The words in which claims about the block are made: what a state with one station
changed is, what a record's offer does to a station, when a read is awaited, how a job is written
back, and the invariants of the block. -/

namespace Sys2Proof.Machine

/-! ## One station changed -/

/-- Station n becomes `u` and the attention register `a`; nothing else changes. -/
def State.put (s : State) (n : StationNo) (u : Station) (a : BitVec 11) : State :=
  { s.setStation n u with attention := a }

/-- The station is READY or QUIESCING: it works at jobs, and executes MARK, CAPTURE STOP, DISARM and
FLUSH (R27, Table 2-2). -/
def Station.working (t : Station) : Bool := t.state == .ready || t.state == .quiescing

/-- The sequencer of a station takes no report: it is not ARMED (R119). -/
def Station.unarmed (t : Station) : Prop := t.ts.current = none

/-! ## A record offered (R134, R137, R144) -/

/-- The attention bits an offer sets: LOSS when LOSS was entered (R144). -/
def CapOut.bits (o : CapOut) : BitVec 11 := if o.lossEntered then Attn.loss.mask else 0

/-- A station whose CAP gave `o`: the new CAP, and the seal request with reason STOPPED when one was
made (R137). -/
def Station.take (t : Station) (o : CapOut) : Station :=
  if o.sealReq then ({ t with cap := o.cap }).sealRequest .stopped else { t with cap := o.cap }

/-- What a station's CAP gives for an offered record at time base count `tb`. -/
def Station.offer (t : Station) (tb : Tick) (r : SrcRec) : CapOut :=
  t.cap.offer t.prof.timeShift tb r

/-- Station n offers `r` having become `u`, the attention register having become `a`. -/
def State.putOffer (s : State) (n : StationNo) (u : Station) (a : BitVec 11) (r : SrcRec) : State :=
  s.put n (u.take (u.offer s.tb r)) (a ||| (u.offer s.tb r).bits)

/-- A source record with the time base count as its entry time and no header flag. -/
def State.recordNow (s : State) (p : Payload) : SrcRec := ⟨p, RecFlags.none, s.tb, none⟩

/-- Station n becomes `u`, whose head job, number `jid`, ends there with result `r`: it leaves the queue
and JSD records the result (R177, R178). -/
def State.putEnd (s : State) (n : StationNo) (u : Station) (a : BitVec 11) (jid : Nat) (r : Res) :
    State :=
  (s.put n { u with queue := u.queue.tail, head := .waiting } a).recordResult n jid r

/-- Station n becomes `u` and offers `rec`; then its head job ends with result `r`. -/
def State.putOfferEnd (s : State) (n : StationNo) (u : Station) (a : BitVec 11) (rec : SrcRec)
    (jid : Nat) (r : Res) : State :=
  s.putEnd n (u.take (u.offer s.tb rec)) (a ||| (u.offer s.tb rec).bits) jid r

/-- The POWER EVENT record of an event a station has taken, from the state it leaves (R17, R98). -/
def State.powerRec (s : State) (ev : PowerEv) (b : PowerUnit) : SrcRec :=
  ⟨.powerEvent ev b.state b.cls ((ev.faultOf).getD b.latched) b.retry,
    ⟨false, false, false, ev.faultOf.isSome⟩, s.tb, none⟩

/-- A job of a READY or QUIESCING station has come to the head and is not yet checked there. -/
def Station.atHead (t : Station) (q : QJob) (j : Job) : Prop :=
  t.working = true ∧ t.head = .waiting ∧ q.job = j ∧ ∃ qs, t.queue = q :: qs

/-- The command row of a queued job at the head of station n. -/
def Job.headRow (j : Job) (n : StationNo) : Option Instr :=
  match j with
  | .configure _ => some (.configure n)
  | .park => some (.park n)
  | .unpark => some (.unpark n)
  | .quiesce => some (.quiesce n)
  | .powerOn => some (.powerOn n)
  | .powerOff => some (.powerOff n)
  | .setMode _ => some (.setMode n)
  | .resetPulse _ => some (.resetPulse n)
  | .resetHold => some (.resetHold n)
  | .resetRelease => some (.resetRelease n)
  | .read .. => some (.read n)
  | .writeInline .. => some (.writeInline n)
  | .writeBuffer .. => some (.writeBuffer n)
  | .blockRead .. => some (.blockRead n)
  | .boardControl _ => some (.boardControl n)
  | .ping => some (.ping n)
  | .consoleSend .. => some (.consoleSend n)
  | .arm _ => some (.arm n)
  | .captureStartImmediate => some (.captureStartImmediate n)
  | .captureStartTriggered => some (.captureStartTriggered n)
  | _ => none

/-- The single request of an access job other than BLOCK READ and WRITE from a buffer (R77 to R79). -/
def Job.onlyRequest : Job → Option ReqSpec
  | .read a k _ => some ⟨.read, a, [], k, 0⟩
  | .writeInline a k ws => some ⟨.write, a, ws, k, 0⟩
  | .boardControl code => some ⟨.control, BitVec.ofNat 64 code, [], 0, 0⟩
  | .ping => some ⟨.ping, 0, [], 0, 0⟩
  | _ => none

/-- The occupied entry of a request issued at `now` under a tag (Table 4-1). -/
def ReqSpec.entry (r : ReqSpec) (tag : Fin 64) (now timeout : Nat) (o : Owner) : Entry :=
  ⟨tag, r.op, r.addr, r.count, now, now + timeout * 1000, o, r.offset, r.words.take 8⟩

/-- The job is an access job, which needs the link (R76). -/
def Job.isAccess : Job → Bool
  | .read .. | .writeInline .. | .writeBuffer .. | .blockRead .. | .boardControl _ | .ping => true
  | _ => false

/-- Station n becomes `u` and then reports the condition `x` to its TS (R119). -/
def State.putReport (s : State) (n : StationNo) (u : Station) (a : BitVec 11) (x : Cond) : State :=
  s.withStation n fun e _ => report e x ⟨u, a, []⟩

/-- Station n becomes `u` and then reports the conditions `xs` to its TS, in order (R93, R119). -/
def State.putReports (s : State) (n : StationNo) (u : Station) (a : BitVec 11) (xs : List Cond) :
    State :=
  s.withStation n fun e _ => xs.foldl (fun c x => report e x c) ⟨u, a, []⟩

/-- Station n as it stands reports the condition `x` to its TS (R119). -/
def State.reportAt (s : State) (n : StationNo) (x : Cond) : State :=
  s.putReport n (s.station n) s.attention x

/-- Station n becomes `u`, offers the POWER EVENT record of `ev` and reports `ev` to its TS, steps 1 to 3 of
a power event (R98). A sequencer that is not ARMED takes nothing of it. -/
def State.putPower (s : State) (n : StationNo) (u : Station) (ev : PowerEv) : State :=
  (s.putOffer n u s.attention (s.powerRec ev u.bpu)).reportAt n (.power ev)

/-- The job `jid` at the head of station n ends there with result `r` (R177, R178). -/
def State.endAt (s : State) (n : StationNo) (jid : Nat) (r : Res) : State :=
  s.putEnd n (s.station n) s.attention jid r

/-! ## Requests issued (R63, R66, R67) -/

/-- A station that has issued the requests of a job with these, in order, under the tags R66 gives. -/
def Station.issued (t : Station) (now : Nat) (o : Owner) : List ReqSpec → Station
  | [] => t
  | r :: rest =>
    let tag := t.au.pickTag
    Station.issued
      { t with
        au := { t.au with
          entries := t.au.entries ++ [r.entry tag now t.prof.responseTimeout o]
          nextTag := tagAt tag.val 1 }
        lp := t.lp.enqueue ⟨tag, r⟩ false } now o rest

/-- The outstanding request table holds at most four entries and eight retired tags, all of different
tags (R65, R66). -/
def AccessUnit.bounded (a : AccessUnit) : Prop :=
  a.entries.length ≤ Config.maxEntries ∧ a.retired.length ≤ Config.maxRetired
    ∧ (a.entries.map Entry.tag ++ a.retired.map RetiredTag.tag).Nodup

/-- A station whose pending control holder's HALT takes a free entry (R74): the holder is empty again, the
request joins the transmit list at its front (R63). -/
def Station.haltIssued (t : Station) (now : Nat) : Station :=
  let tag := t.au.pickTag
  let r : ReqSpec := ⟨.control, 1, [], 0, 0⟩
  { t with
    au := { t.au with
      holder := false
      entries := t.au.entries ++ [r.entry tag now t.prof.responseTimeout .trigger]
      nextTag := tagAt tag.val 1 }
    lp := t.lp.enqueue ⟨tag, r⟩ true }

/-- An entry of station n that has come free goes to the HALT in the pending control holder, else to the
next request of the executing job, unless one of its requests has failed (R72 step 6, R74, R81). With the
link DOWN or the table full nothing is issued. -/
def State.offerFreed (s : State) (n : StationNo) : State :=
  let t := s.station n
  if t.lp.up = false ∨ 4 ≤ t.au.entries.length then s
  else if t.au.holder = true then s.put n (t.haltIssued s.elapsed) s.attention
  else match t.head, t.queue with
    | .access ⟨r :: rest, flying, none, oks, ticks⟩, q :: _ =>
      s.put n { t.issued s.elapsed (.job q.jid q.hostRef) [r] with
        head := .access ⟨rest, flying + 1, none, oks, ticks⟩ } s.attention
    | _, _ => s

/-- When an entry of the station comes free the executing job has no request to issue, or the table was
full, so that it can issue one at most. -/
def Station.issuesOne (t : Station) : Prop :=
  match t.head with
  | .access a => a.reqs = [] ∨ a.fail ≠ none ∨ (t.au.entries.length = 4 ∧ t.au.bounded)
  | _ => True

/-! ## Completions (R72) -/

/-- The ACCESS record of entry `x`'s completion, with its owner's host reference and its data words
(R18, R72). -/
def State.accessRec (s : State) (x : Entry) (o : AccessOutcome) (host : Word64) (words : List Word32)
    (corrected : Bool) : SrcRec :=
  ⟨.access x.tag x.op o (x.owner == .trigger) x.count host x.addr words,
    ⟨false, false, corrected, o != .ok⟩, s.tb, none⟩

/-- Station n becomes `u` with an entry completed; its ACCESS record `r` is offered when access logging is
on (R72). -/
def State.putLogged (s : State) (n : StationNo) (u : Station) (r : SrcRec) : State :=
  if u.prof.accessLogging then s.putOffer n u s.attention r else s.put n u s.attention

/-! ## Packets and power -/

/-- LP once a packet has ended with its header's correction counted and the quiet timer restarted, which
does not run in PARKED (R46, R50, R60; log 21). -/
def Station.packetEnds (t : Station) (corrected : Bool) (now : Nat) : LinkPort :=
  { t.lp with
    packet := none
    health := if corrected then t.lp.health.correct else t.lp.health
    quiet := if t.state = .parked then t.lp.quiet else some (now + t.prof.healthMs * 100000) }

/-- The inputs of connector c become `p`. -/
def State.withPin (s : State) (c : ConnectorNo) (p : Connector) : State :=
  { s with connectors := s.connectors.set c.val p }

/-- A power unit that has entered RAMPING at `now` under a profile and its connector's inputs (R101,
R104). -/
def PowerUnit.ramped (b : PowerUnit) (p : Profile) (pin : Connector) (now : Nat) : PowerUnit :=
  { b with
    state := .ramping, held := none, autoSettle := none, cooldown := none
    ramp := some (now + p.rampMs * 100000)
    inrush := if p.inrushMs = 0 then none else some (now + p.inrushMs * 100000)
    overload := if p.inrushMs = 0 ∧ pin.overload = true then some (now + p.overloadUs * 100)
      else b.overload }

/-- A power unit with the ramp, inrush, overload, delay and pulse timers cancelled, BOARD_RESET
asserted: the held progress code is none if it was released (R110). -/
def PowerUnit.cutPower (b : PowerUnit) : PowerUnit :=
  { b with
    ramp := none, inrush := none, overload := none, delay := none, pulse := none
    held := if b.state = .on ∧ b.ctl = .released then none else b.held }

/-- A power unit that has become unpowered and SEATED (R107, R112). -/
def PowerUnit.off (b : PowerUnit) : PowerUnit := { b.cutPower with state := .seated, cooldown := none }

/-- A power unit in COOLDOWN by the fault `k`, until `till` (R104). -/
def PowerUnit.faulted (b : PowerUnit) (k : FaultKind) (till : Nat) : PowerUnit :=
  { b.cutPower with state := .cooldown, cooldownFault := k, cooldown := some till }

/-- The job at the head of station n, where there is one, ends there with result `r` (R177, R178). -/
def State.endFirst (s : State) (n : StationNo) (r : Res) : State :=
  match (s.station n).queue with
  | [] => s
  | q :: _ => s.endAt n q.jid r

/-- CU of station n is told that the power state left ON by the fault `k` or none, step 4 of a power event
(R98): an open line closes with CUT (R90, R91); a CONSOLE SEND at the head has its queue emptied and ends
POWER FAULT with the bytes sent (R96). -/
def State.putLeft (s : State) (n : StationNo) (k : FaultKind) : State :=
  let t := s.station n
  let framing := t.cu.line.any LineByte.framing
  let flags : LineFlags := { LineFlags.none with cut := true, framing := framing }
  let cutRec : SrcRec := ⟨.consoleLine flags 0 (t.cu.line.map LineByte.val),
    { RecFlags.none with sourceError := framing }, s.tb, some t.cu.origin⟩
  let offered := s.putOffer n t s.attention cutRec
  let cut := if t.cu.line = [] then s else
    offered.put n { offered.station n with cu := { t.cu with line := [], idle := none } }
      offered.attention
  match t.head with
  | .consoleSend _ sent =>
    let u := cut.station n
    (cut.put n { u with cu := { u.cu with sendQ := [], tx := none } } cut.attention).endFirst n
      ⟨.powerFault, false, k.code, sent⟩
  | _ => cut

/-- A POWER ON or RESET PULSE at the head of station n ends POWER FAULT with the kind `k` (R111, R113). -/
def State.endPower (s : State) (n : StationNo) (k : FaultKind) : State :=
  match (s.station n).head with
  | .ramp _ | .pulse _ _ => s.endFirst n ⟨.powerFault, false, k.code, 0⟩
  | _ => s

/-- The reset delay or pulse of station n has ended (R108, R109): HELD under the hold flag, else RELEASED
with the RESET RELEASED event. -/
def State.putReleased (s : State) (n : StationNo) : State :=
  let t := s.station n
  if t.bpu.hold = true then
    s.put n { t with bpu := { t.bpu with delay := none, pulse := none, ctl := .held } } s.attention
  else
    s.putPower n { t with bpu := { t.bpu with delay := none, pulse := none, ctl := .released } }
      .resetReleased

/-- Station n, having become `t` in RAMPING, finds PWR_GOOD asserted (R103): it is ON with the retry count 0
and the reset delay running, POWER GOOD is taken, a POWER ON at the head ends OK with the milliseconds since
RAMP START (R111), and a reset delay of 0 expires at once (R108). -/
def State.putGood (s : State) (n : StationNo) (t : Station) : State :=
  let b : PowerUnit := { t.bpu with
    state := .on, ramp := none, retry := 0, ctl := .delay
    delay := some (s.elapsed + t.prof.resetDelayMs * 100000) }
  let good := s.putPower n { t with bpu := b } .powerGood
  let done := match t.head with
    | .ramp started => good.endFirst n (Res.okv ((s.elapsed - started) / 100000))
    | _ => good
  if t.prof.resetDelayMs = 0 then done.putReleased n else done

/-- Station n, having become `t`, enters RAMPING (R101); with PWR_GOOD already asserted POWER GOOD follows
RAMP START at once (R103). -/
def State.putRamp (s : State) (n : StationNo) (t : Station) : State :=
  let pin := s.connector (s.connectorOf n)
  let ramping := s.putPower n { t with bpu := t.bpu.ramped t.prof pin s.elapsed } .rampStart
  if pin.pwrGood = true then ramping.putGood n (ramping.station n) else ramping

/-- Station n, having become `t`, is at the end of its auto settle time (R102): a board of an allowed class
with no latched fault ramps, any other stays as it is, the timer stopped. -/
def State.putDecided (s : State) (n : StationNo) (t : Station) : State :=
  if t.prof.classMask.getLsbD t.bpu.cls.toNat = true ∧ t.bpu.latched = .none then s.putRamp n t
  else s.put n { t with bpu := { t.bpu with autoSettle := none } } s.attention

/-- Station n, having become `t`, starts its auto settle timer; a time of 0 expires at once (R102). -/
def State.putSettle (s : State) (n : StationNo) (t : Station) : State :=
  if t.prof.autoSettleMs = 0 then s.putDecided n t
  else
    s.put n { t with bpu := { t.bpu with
      autoSettle := some (s.elapsed + t.prof.autoSettleMs * 100000) } } s.attention

/-- Station n takes a change of its power mode from `old` to `new`, being `t` with the new mode in its
profile (R107): the latched fault NONE and the retry count 0; a powered station in a change to OFF, or one
in COOLDOWN in a change to OFF or away from AUTO, becomes SEATED with the OFF event, CU being told where it
left ON; a SEATED one stops its auto settle timer in those changes and starts it in a change to AUTO. -/
def State.putMode (s : State) (n : StationNo) (t : Station) (old new : PowerMode) : State :=
  let b : PowerUnit := { t.bpu with latched := .none, retry := 0 }
  let ends : Bool := new == .off || (old == .auto && new == .manual)
  if (new = .off ∧ (t.bpu.state = .ramping ∨ t.bpu.state = .on)) ∨ (ends ∧ t.bpu.state = .cooldown) then
    let off := s.putPower n { t with bpu := b.off } .off
    if t.bpu.state = .on then off.putLeft n .none else off
  else if ends ∧ t.bpu.state = .seated then
    s.put n { t with bpu := { b with autoSettle := none } } s.attention
  else if new = .auto ∧ t.bpu.state = .seated then
    s.putSettle n { t with bpu := b }
  else s.put n { t with bpu := b } s.attention

/-- A power unit whose board has gone (R106). -/
def PowerUnit.removed (b : PowerUnit) : PowerUnit :=
  { b.cutPower with
    state := .absent, latched := .none, retry := 0, autoSettle := none, cooldown := none }

/-! ## Reads awaited (R160, R163) -/

/-- Read `id` was issued for access `a` and 50 ms have not passed since. -/
def State.awaits (s : State) (id : Nat) (a : Access) : Prop :=
  ∃ x, s.readInFlight id = some x ∧ x.acc = a ∧ x.inTime s.elapsed = true

/-- Read `id` is the whole read of posted slot i at `slot`, by a sweep that still runs when `live`,
and no held job has that slot. -/
def State.awaitsSlot (s : State) (id i : Nat) (slot : Word64) (live : Bool) : Prop :=
  s.awaits id (Access.readOf .sweep none slot 128 (.slotWhole i slot false live))
    ∧ s.holdsSlot slot = false

/-- The sweep goes on after slot i when it still runs (R173). -/
def State.afterSlot (s : State) (i : Nat) (live : Bool) : State := if live then s.nextSlot i else s

/-! ## Jobs written back (R178) -/

/-- The two writes of a job's results: bytes 64 to 95 of its slot, then the state DONE. -/
def HeldJob.backWrites (h : HeldJob) (bytes : List Byte) : List Access :=
  [Access.writeOf .job none (h.slot + 64) bytes (.result h),
   Access.writeOf .job none h.slot (leBytes 1 3) (.done h)]

/-- Station n's result in a job of mask `m`: `r n` where the mask names the station. -/
def perStation (m : Mask8) (r : StationNo → Res) : Vector (Option Res) 8 :=
  Vector.ofFn fun n => if inMask m n then some (r n) else none

/-- A job from slot `slot` with header `h` is held in `u` with these per-station results and own
result, its result bytes formed at time base count `tb`, and presented after the JOB accesses `q`. -/
def State.writtenBack (u : State) (q : List Access) (slot : Word64) (h : JobHeader)
    (per : Vector (Option Res) 8) (own : Option Res) (tb : Tick) : Prop :=
  ∃ hj ∈ u.held, hj.slot = slot ∧ hj.mask = h.mask ∧ hj.notify = h.notify ∧ hj.results = per
    ∧ hj.own = own ∧ hj.formed = some (resultBytes per hj.overall tb)
    ∧ u.hmp.jobQ = q ++ hj.backWrites (resultBytes per hj.overall tb)

/-- `u` is `s` after a job executed in its sweep, whose whole-slot read was `id`: read `id` is done and
one more job was held; beside the stations, the attention register and the waiting JOB accesses nothing
else changed (R175). -/
def State.afterExecuted (s u : State) (id : Nat) : Prop :=
  u = { s.endRead id with
    stations := u.stations, attention := u.attention, held := u.held, nextJid := s.nextJid + 1
    hmp := { (s.endRead id).hmp with jobQ := u.hmp.jobQ } }

/-! ## Failures and marked jobs (R163, R170, R183, R184) -/

/-- The command brings the failure of access `a`: an error completion of its read within 50 ms of the
issue, 50 ms of that read without a completion, or an error completion of its write. -/
def State.failsBy (s : State) (c : Instr) (a : Access) : Prop :=
  (∃ id x, s.readInFlight id = some x ∧ x.acc = a
      ∧ (c = .errorCompletion id ∧ s.elapsed ≤ x.issuedAt + 5000000
        ∨ c = .readTimeout id ∧ x.issuedAt + 5000000 ≤ s.elapsed))
    ∨ ∃ id w, c = .errorCompletion id ∧ s.readInFlight id = none
      ∧ (s.hmp.writes.find? fun w => w.id == id && !w.failed) = some w ∧ w.acc = a

/-- A held job that no failure has marked. -/
def HeldJob.unmarked (h : HeldJob) : Prop :=
  h.memFail = 0 ∧ h.writeFail = false ∧ h.takenFail = false

/-- `t` has dealt with the marked job `h` of `s` (R170). A failed payload read or data write, its DONE
write not issued: the results at the stations concerned are MEMORY, the job has left their heads, and it is
written back anew when every named station has a result. Failed result or DONE writes: both made again,
result first. A failed TAKEN write: made again, the result writes after it. -/
def State.dealtWith (s t : State) (h : HeldJob) : Prop :=
  let others := s.hmp.jobQ.filter fun x => x.purpose.resultOf.map HeldJob.jid != some h.jid
  let holds (h' : HeldJob) : Prop := t.held = s.held.map fun x => if x.jid = h.jid then h' else x
  let ends : Prop := h.memFail ≠ 0 ∧ h.doneIssued = false
  let per : Vector (Option Res) 8 := Vector.ofFn fun n =>
    if inMask h.memFail n then some (Res.ended .memory) else h.resultAt n
  let ended : HeldJob := { h with results := per, formed := none, memFail := 0 }
  let h1 : HeldJob := if ¬ ends then h
    else if ended.complete then { ended with formed := some (resultBytes per ended.overall s.tb) }
    else ended
  (∀ n, if ends ∧ inMask h.memFail n ∧ (s.station n).headJid = some h.jid then
      (t.station n).queue = (s.station n).queue.tail ∧ (t.station n).head = .waiting
    else (t.station n).queue = (s.station n).queue ∧ (t.station n).head = (s.station n).head)
  ∧ (h.takenFail = false → ends ∨ h.writeFail = true →
    holds { h1 with writeFail := false }
      ∧ t.hmp.jobQ = others ++ (match h1.formed with
        | some bytes =>
          if h.taken = .waiting then [] else { h1 with writeFail := false }.backWrites bytes
        | none => []))
  ∧ (h.takenFail = true →
    holds { h1 with taken := .waiting, takenFail := false, writeFail := false }
      ∧ t.hmp.jobQ = others
      ∧ Access.writeOf .sweep none h.slot [2] (.taken h.jid) ∈ t.hmp.sweepQ)

/-! ## Firings (R12, R124 to R128) -/

/-- The capture state is RECORDING or STOPPING. -/
def CaptureState.records : CaptureState → Bool
  | .recording | .stopping _ => true
  | _ => false

/-- The stop-capture action with post count n (R126, R136). -/
def Capture.stopped (c : Capture) (n : Nat) : Capture :=
  match c.state with
  | .stopped => c
  | .watching => { c with state := .stopped, history := [] }
  | .recording | .stopping _ => { c with state := if n = 0 then .stopped else .stopping n }

/-- `c` is the capture that a firing of step i of program p leaves in station `u`, before the RESET ASSERTED
record of a pulse it starts: START CAPTURE, TRIGGER RECORD, MARK and STOP CAPTURE, those of the set `acts`,
in that order (R124). The TRIGGER record (R12, R127) names the step, the target, the cause, the condition
kind, the set and its actions done: START CAPTURE unless capture was RECORDING or STOPPING, which sets
ALREADY RECORDING; STOP CAPTURE unless capture is STOPPED where it stands in the order; HALT BOARD with the
link UP and an entry free or the holder empty, and with neither CONTROL OVERRUN is set; PULSE RESET in ON
with the controller RELEASED; every other action. -/
def Station.fires (u : Station) (s : State) (p : Program) (i : Fin 4) (kind : CondKind) (tgt : Target)
    (cause : Cause) (acts : BitVec 8) (c : Capture) : Prop :=
  let k := u.prof.timeShift
  let full : Bool := decide (4 ≤ u.au.entries.length)
  ∃ done : BitVec 8,
    let trigger := s.recordNow (.trigger i tgt cause kind acts done
      (acts.getLsbD 0 && u.cap.state.records)
      (acts.getLsbD 4 && u.lp.up && full && u.au.holder))
    let begun := if acts.getLsbD 0 then (u.cap.start k s.tb).cap else u.cap
    let noted := if acts.getLsbD 1 then (begun.offer k s.tb trigger).cap else begun
    let marked := if acts.getLsbD 2 then
      (noted.offer k s.tb (s.recordNow (.mark p.marker (.step i) 0))).cap else noted
    (∀ j < 8, done.getLsbD j = (acts.getLsbD j && match j with
      | 0 => !u.cap.state.records
      | 3 => marked.state != .stopped
      | 4 => u.lp.up && (!full || !u.au.holder)
      | 5 => u.bpu.state == .on && u.bpu.ctl == .released
      | _ => true))
    ∧ c = if acts.getLsbD 3 then marked.stopped p.postCount else marked

/-- A RESET PULSE is at the head, its pulse running. -/
def Head.isPulse : Head → Bool
  | .pulse _ _ => true
  | _ => false

/-! ## Invariants -/

/-- CAP of a station keeps its bounds (R140, R142). -/
def Capture.bounded (c : Capture) : Prop :=
  c.used ≤ Config.stagingSize
    ∧ (c.loss = false → c.used + Config.stagingReserve ≤ Config.stagingSize)
    ∧ historyBytes c.history ≤ c.historySize
    ∧ (c.state ≠ .watching → c.history = [])

/-- Every station's CAP keeps its bounds. -/
def State.captureInv (s : State) : Prop := ∀ n, (s.station n).cap.bounded

/-- A page's used bytes lie in its data area and are a sum of padded sizes; the record in hand fits
the remainder (R149, R153, R154). -/
def PageState.bounded (g : PageState) : Prop :=
  (∀ p, g.page = some p → p.used ≤ Config.pageData ∧ p.used % 8 = 0)
    ∧ ∀ r, g.inHand = some r → ∃ p, g.page = some p ∧ r.size ≤ p.remainder

/-- The bounds of the stations' tables, queues and pages, of the station map, the serials and the
arbiter's burst count (R41, R65, R149, R161, R177). -/
def State.boundsInv (s : State) : Prop :=
  (∀ n, (s.station n).au.bounded ∧ (s.station n).queue.length ≤ Config.maxQueue
      ∧ (s.station n).pg.bounded)
    ∧ s.stationMap.toList.Nodup ∧ 1 ≤ s.nextSerial ∧ s.nextSerial ≤ Config.max32
    ∧ s.hmp.burst ≤ 3

/-- Every request in a station's transmit list occupies an entry of its outstanding table, each another,
so that the list holds at most four (R63). -/
def State.transmitInv (s : State) : Prop :=
  ∀ n, ((s.station n).lp.txList.map TxReq.tag).Nodup
    ∧ ∀ r ∈ (s.station n).lp.txList, ∃ x ∈ (s.station n).au.entries, x.tag = r.tag

/-- Every access waiting, in flight or written. -/
def State.accesses (s : State) : List Access :=
  s.hmp.sweepQ ++ s.hmp.jobQ ++ (allStations.flatMap fun n => (s.station n).pageQ)
    ++ s.hmp.inFlight.map InFlight.acc ++ s.hmp.writes.map IssuedWrite.acc

/-- The held jobs have different numbers, all below the next, and different slots (R179); no result or DONE
write and no place in a queue belongs to a job not yet numbered. -/
def State.jobsInv (s : State) : Prop :=
  (s.held.map HeldJob.jid).Nodup ∧ (s.held.map HeldJob.slot).Nodup
    ∧ (∀ h ∈ s.held, h.jid < s.nextJid)
    ∧ (∀ n, ∀ q ∈ (s.station n).queue, q.jid < s.nextJid)
    ∧ ∀ a ∈ s.accesses, ∀ h, a.purpose.resultOf = some h → h.jid < s.nextJid

end Sys2Proof.Machine
end

