-- ==== Sys2Proof/Certificates/Slice0/Obligations.lean ====
section
/-! DEFINITION. The statements about the PL-1840 for the provers, in the order of OBLIGATIONS.json. -/

open Sys2Proof Sys2Proof.Machine

/-! ## The queue of commands -/

/-- A step carries out the command at the front of the queue on the state with the queue's rest. -/
def Obligations.StepRunsFrontCommand : Prop :=
  ∀ (s : State) (c : Instr) (rest : List Instr), s.pending = c :: rest →
    step s = exec c { s with pending := rest }

/-- On an empty queue one tick passes: the time base counts on modulo 2^48. The model's choice (log 2)
over R1. -/
def Obligations.IdleStepCountsOneTick : Prop :=
  ∀ s : State, s.pending = [] →
    ∃ t, step s = .next t ∧ t.tb.toNat = (s.tb.toNat + 1) % 2 ^ 48 ∧ t.elapsed = s.elapsed + 1
      ∧ t = { s with tb := t.tb, elapsed := t.elapsed }

/-- Every command answers a next state in every state, and leaves the waiting commands as they are: nothing
the spec names stops the block. That a command the device has no occasion for changes nothing is log 1
(DEDUCED) and that the resets keep the queue is log 26 (DESIGN CHOICE): both are the model's choice, not
the spec's words. -/
def Obligations.EveryCommandAnswersAndKeepsQueue : Prop :=
  ∀ (i : Instr) (s : State), ∃ t, exec i s = .next t ∧ t.pending = s.pending

/-! ## Resets and the register window -/

/-- Power-on reset: every register reads 0, ATTN is inactive, time base, map, arbiter, cursor and serial
take their reset values, nothing is held, waits or is in flight, every station is as after reset, the
bench lines are as they stand, and at every connector power is off, BOARD_RESET asserted, the TX line
high and the link silent. The model's choice, not the spec's words: the fixture's inputs are kept (log
8, DESIGN CHOICE), no read is in flight afterwards (log 30, DEDUCED), and the reset values the spec does
not give, which Station.reset holds (latched fault NONE, retry count 0, next tag 0 and the others of log
32, DESIGN CHOICE; the first lost unit time of an empty pending loss, log 54, and the value of the
invalid reference R, log 55, both DESIGN CHOICE). -/
def Obligations.PowerOnResetClearsEverything : Prop :=
  (∀ (s : State) (lines : BitVec 4),
    ∃ t, exec (.powerOnReset lines) s = .next t
      ∧ (∀ r, t.readRegister r = 0) ∧ t.attnActive = false
      ∧ t.tb = 0 ∧ t.pendingLoad = none ∧ t.area = none ∧ t.held = []
      ∧ t.start = .none ∧ t.halting = false ∧ t.resuming = false ∧ t.acq = none
      ∧ t.startFault = false ∧ t.dealAtStart = false ∧ t.sweep.first = false ∧ t.sweep.blocked = 0
      ∧ t.sweep.phase = .idle ∧ t.sweep.timer = none ∧ t.sweep.pending = false
      ∧ (∀ n : StationNo, t.connectorOf n = n) ∧ t.cursor = 0 ∧ t.nextSerial = 1
      ∧ t.hmp.sweepQ = [] ∧ t.hmp.jobQ = [] ∧ t.hmp.inFlight = []
      ∧ t.hmp.classPtr = .page ∧ t.hmp.nonPagePtr = .job ∧ t.hmp.stationPtr = 7 ∧ t.hmp.burst = 0
      ∧ (∀ n, t.station n = Station.reset)
      ∧ t.lines = lines ∧ t.connectors = s.connectors)
    ∧ (∀ (s : State) (lines : BitVec 4), ∃ t, exec (.powerOnReset lines) s = .next t
         ∧ ∀ c, t.pwrEnAt c = false ∧ t.boardResetAt c = true ∧ t.txLineAt c = true
           ∧ t.sendingAt c = none)

/-- A write of 1 to SOFT RESET, in any run state: as power-on reset, but the station map and the time base
are kept, and the accesses issued before run on for nobody. No start, halt or resumption is under way,
no fault waits to be dealt with, and no sweep runs or is pending, its timer stopped. That every station
is Station.reset rests on logs 32, 54 and 55 (each DESIGN CHOICE) for the reset values the spec does not
give: the model's choice. -/
def Obligations.SoftResetKeepsMapAndTime : Prop :=
  ∀ (s : State) (v : Word32) (lines : BitVec 4), regBit v 2 = true →
    ∃ t, exec (.softReset v lines) s = .next t
      ∧ (∀ r, t.readRegister r = 0) ∧ t.attnActive = false
      ∧ t.tb = s.tb ∧ t.stationMap = s.stationMap ∧ t.pendingLoad = none
      ∧ t.runState = .stopped ∧ t.start = .none ∧ t.area = none ∧ t.held = [] ∧ t.acq = none
      ∧ t.halting = false ∧ t.resuming = false ∧ t.startFault = false ∧ t.dealAtStart = false
      ∧ t.sweep.phase = .idle ∧ t.sweep.timer = none ∧ t.sweep.pending = false
      ∧ t.sweep.first = false ∧ t.sweep.blocked = 0
      ∧ t.cursor = 0 ∧ t.nextSerial = 1 ∧ t.hmp.sweepQ = [] ∧ t.hmp.jobQ = []
      ∧ t.hmp.classPtr = .page ∧ t.hmp.nonPagePtr = .job ∧ t.hmp.stationPtr = 7 ∧ t.hmp.burst = 0
      ∧ (∀ n, t.station n = Station.reset) ∧ t.lines = lines
      ∧ t.hmp.inFlight.map InFlight.id = s.hmp.inFlight.map InFlight.id
      ∧ (∀ x ∈ t.hmp.inFlight, x.acc.purpose = .stale)
      ∧ t.hmp.writes.map (fun w => (w.id, w.acc.addr, w.acc.data))
          = s.hmp.writes.map (fun w => (w.id, w.acc.addr, w.acc.data))

/-- ATTN is active exactly when some attention bit is set whose mask bit is set; a CONTROL write that
leaves RUN as held and resumes nothing writes the mask alone, so ATTN follows at once. -/
def Obligations.AttnFollowsBitsAndMask : Prop :=
  (∀ s : State, s.attnActive = true ↔
      ∃ a : Attn, s.attention.getLsbD a.num = true ∧ s.attMask.getLsbD a.num = true)
    ∧ ∀ (s : State) (v : Word32), regBit v 2 = false → regBit v 0 = s.run →
      (regBit v 1 = true → s.runState = .faulted → s.run = false) →
      ∃ t, exec (.attentionMaskWrite v) s = .next t ∧ t = { s with attMask := t.attMask }
        ∧ ∀ i : Fin 11, t.attMask.getLsbD i.val = v.getLsbD (16 + i.val)

/-- ATTENTION: each 1 written clears the matching bit and each 0 leaves it; AREA BASE LOW and HIGH are
stored and read back; writes to STATUS and FAULT ADDRESS are ignored. Nothing else changes. What a read
of each register gives (Table 12-1): CONTROL has RUN in bit 0 and the attention mask in bits 16 to 26,
its RESUME and SOFT RESET bits reading 0; STATUS the codes of run state, start check, fault requester
class and fault station; AREA BASE LOW and HIGH what was written; WAKE 0; ATTENTION the attention bits;
FAULT ADDRESS the recorded address. -/
def Obligations.PlainRegisterWrites : Prop :=
  ((∀ (s : State) (v : Word32), ∃ t, exec (.attentionClear v) s = .next t
      ∧ t = { s with attention := t.attention }
      ∧ ∀ i : Fin 11, t.attention.getLsbD i.val
          = (s.attention.getLsbD i.val && !v.getLsbD i.val))
    ∧ (∀ (s : State) (v : Word32),
        exec (.registerWrite .areaBaseLow v) s = .next { s with areaBaseLow := v }
        ∧ exec (.registerWrite .areaBaseHigh v) s = .next { s with areaBaseHigh := v })
    ∧ ∀ (s : State) (r : PlainReg) (v : Word32), r ≠ .areaBaseLow → r ≠ .areaBaseHigh →
        exec (.registerWrite r v) s = .next s)
    ∧ (∀ s : State,
         (∀ i : Fin 32, (s.readRegister .control).getLsbD i.val
           = if i.val = 0 then s.run else decide (16 ≤ i.val) && s.attMask.getLsbD (i.val - 16))
         ∧ (s.readRegister .status).toNat
             = (match s.runState with | .stopped => 0 | .running => 1 | .faulted => 2)
               + 16 * (match s.startCheck with
                 | .none => 0 | .ok => 1 | .alignment => 2 | .signature => 3 | .slotCount => 4
                 | .entryCount => 5 | .region => 6 | .overlap => 7)
               + 256 * (match s.faultClass with
                 | .none => 0 | .sweep => 1 | .job => 2 | .page => 3)
               + 4096 * s.faultStation.val
         ∧ s.readRegister .areaBaseLow = s.areaBaseLow
         ∧ s.readRegister .areaBaseHigh = s.areaBaseHigh
         ∧ s.readRegister .wake = 0
         ∧ (∀ i : Fin 32, (s.readRegister .attention).getLsbD i.val = s.attention.getLsbD i.val)
         ∧ s.readRegister .faultAddressHigh ++ s.readRegister .faultAddressLow = s.faultAddr
         ∧ ∀ v,
           (∃ t, exec (.registerWrite .areaBaseLow v) s = .next t ∧ t.readRegister .areaBaseLow = v)
           ∧ ∃ t, exec (.registerWrite .areaBaseHigh v) s = .next t
             ∧ t.readRegister .areaBaseHigh = v)

/-- RUN set in STOPPED begins a start: at a Work Area address that is a multiple of 64 the descriptor is
read, else the start fails ALIGNMENT with no access made. RUN set during a halt only sets the bit; at
the issue of the halt's last seal or FILLING write, RUN being 1, the device is STOPPED and the start
begins, or fails ALIGNMENT with RUN 0 (R165, R169). RUN set in FAULTED with RUN 0 makes the device
STOPPED, its pages forgotten, and begins a start that will deal with the marked jobs. The model's
choice, not the spec's words: that pages still open or detached there are forgotten unsealed (log 50,
DESIGN CHOICE), R184 saying that no page is open there. -/
def Obligations.StartReadsDescriptor : Prop :=
  ((∀ (s : State) (v : Word32), regBit v 0 = true → regBit v 2 = false →
     s.run = false → s.runState = .stopped → s.start = .none →
     (s.areaBase.toNat % 64 = 0 → ∃ t, exec (.start v) s = .next t
         ∧ t = { s with
             run := true, attMask := maskOf v, start := .reading
             hmp := { s.hmp with sweepQ := s.hmp.sweepQ
               ++ [⟨.sweep, none, s.areaBaseHigh ++ s.areaBaseLow, 64, none, .descriptorRead⟩] } })
     ∧ (s.areaBase.toNat % 64 ≠ 0 → ∃ t, exec (.start v) s = .next t
         ∧ t = { s with
             run := false, attMask := maskOf v, startCheck := .alignment
             attention := s.attention ||| Attn.areaInvalid.mask }))
    ∧ ((∀ (s : State) (v : Word32), regBit v 0 = true → regBit v 1 = false → regBit v 2 = false →
           s.run = false → s.runState = .running →
           exec (.start v) s = .next { s with run := true, attMask := maskOf v })
         ∧ ∀ (s : State) (v : Word32), regBit v 0 = true → regBit v 2 = false →
           s.run = false → s.runState = .faulted → s.areaBase.toNat % 64 = 0 →
           ∃ t, exec (.start v) s = .next t ∧ t.runState = .stopped ∧ t.run = true ∧ t.start = .reading
             ∧ t.dealAtStart = true ∧ t.held = s.held ∧ t.area = s.area
             ∧ t.hmp.sweepQ = s.hmp.sweepQ
                 ++ [⟨.sweep, none, s.areaBaseHigh ++ s.areaBaseLow, 64, none, .descriptorRead⟩]
             ∧ ∀ n, (t.station n).pg.page = none ∧ (t.station n).pg.detached = none
               ∧ (t.station n).cap = (s.station n).cap))
    ∧ (∀ (s : State) (n : StationNo) (addr : Word64) (d : List Byte) (w : Purpose),
         s.runState = .running → s.halting = true → s.run = true → w.isSeal = true →
         s.nextGrant = some (Access.writeOf .page (some n) addr d w) →
         let att := s.attention ||| (if w = .sealFull true ∨ w = .sealFull false then
           Attn.pageSealed.mask else 0)
         ∃ t, exec .accessGrant s = .next t
           ∧ (t.sealsWait = true → t.runState = .running ∧ t.halting = true ∧ t.run = true
             ∧ t.start = s.start ∧ t.attention = att ∧ t.hmp.sweepQ = s.hmp.sweepQ)
           ∧ (t.sealsWait = false → t.runState = .stopped ∧ t.halting = false
             ∧ (s.areaBase.toNat % 64 = 0 → t.run = true ∧ t.start = .reading ∧ t.attention = att
               ∧ t.startCheck = s.startCheck
               ∧ t.hmp.sweepQ = s.hmp.sweepQ
                 ++ [⟨.sweep, none, s.areaBaseHigh ++ s.areaBaseLow, 64, none, .descriptorRead⟩])
             ∧ (s.areaBase.toNat % 64 ≠ 0 → t.run = false ∧ t.start = .none
               ∧ t.startCheck = .alignment ∧ t.attention = att ||| Attn.areaInvalid.mask
               ∧ t.hmp.sweepQ = s.hmp.sweepQ)))

/-- The descriptor arrives. Its checks in the order of Table 10-3: SIGNATURE; SLOT COUNT, 8 to 256; ENTRY
COUNT, 16 to 4,096; ALIGNMENT, job board and page list at multiples of 64; REGION, nothing past 2^64 -
1; OVERLAP, no byte shared by two of the descriptor, the job board and the page list. The first that
fails ends the start with its code, AREA INVALID set and RUN 0. With none failing the capability fields
are written, the sweep interval in force 100 for 0 and else clamped to 10 to 65,535, for the area that
the descriptor's fields name (Table 12-3). -/
def Obligations.DescriptorIsChecked : Prop :=
  ∀ (s : State) (id : Nat) (d : List Byte) (base : Word64), d.length = 64 → s.start = .reading →
    s.awaits id ⟨.sweep, none, base, 64, none, .descriptorRead⟩ →
    let slots := field d 4 2
    let entries := field d 6 2
    let board := field d 8 8
    let list := field d 16 8
    let share (a la b lb : Nat) : Prop := ∃ x, a ≤ x ∧ x < a + la ∧ b ≤ x ∧ x < b + lb
    let signature : Prop := field d 0 4 ≠ 0x38314C50
    let slotCount : Prop := slots < 8 ∨ 256 < slots
    let entryCount : Prop := entries < 16 ∨ 4096 < entries
    let alignment : Prop := board % 64 ≠ 0 ∨ list % 64 ≠ 0
    let region : Prop := 2 ^ 64 < base.toNat + 64 ∨ 2 ^ 64 < board + 128 * slots
      ∨ 2 ^ 64 < list + 16 * entries
    let overlap : Prop := share base.toNat 64 board (128 * slots)
      ∨ share base.toNat 64 list (16 * entries) ∨ share board (128 * slots) list (16 * entries)
    let fails (why : StartCheck) : Prop :=
      exec (.descriptorReadDone id d) s = .next { s.endRead id with
        start := .none, startCheck := why, run := false
        attention := s.attention ||| Attn.areaInvalid.mask }
    (signature → fails .signature)
    ∧ (¬ signature → slotCount → fails .slotCount)
    ∧ (¬ signature → ¬ slotCount → entryCount → fails .entryCount)
    ∧ (¬ signature → ¬ slotCount → ¬ entryCount → alignment → fails .alignment)
    ∧ (¬ signature → ¬ slotCount → ¬ entryCount → ¬ alignment → region → fails .region)
    ∧ (¬ signature → ¬ slotCount → ¬ entryCount → ¬ alignment → ¬ region → overlap → fails .overlap)
    ∧ (¬ signature → ¬ slotCount → ¬ entryCount → ¬ alignment → ¬ region → ¬ overlap →
      let us := if field d 24 4 = 0 then 100 else max 10 (min 65535 (field d 24 4))
      exec (.descriptorReadDone id d) s = .next { s.endRead id with
        start := .writing
        hmp := { (s.endRead id).hmp with sweepQ := s.hmp.sweepQ ++ [⟨.sweep, none, base + 32, 16,
          some (leBytes 1 8 ++ [0] ++ leBytes 2 8192 ++ leBytes 2 8192 ++ leBytes 2 1 ++ leBytes 4 us
            ++ [0, 0, 0, 0]),
          .capability ⟨BitVec.ofNat 64 board, slots, BitVec.ofNat 64 list, entries, us⟩⟩] } })

/-- RUN cleared in RUNNING: sweeping ends, every starved flag is cleared, every record in hand is cut off,
and every open page's header and FULL writes with reason HALT are presented. With no seal or FILLING
write to grant the device is STOPPED at once; else it is RUNNING until they are issued. The area, the
held jobs, captures and job queues are kept. RUN cleared in FAULTED: STOPPED at once, pages forgotten
unsealed, records stay staged, jobs stay held. RUN cleared during a start: the start is given up, the
start check reads NONE, the area in force stays. The model's choice: the header of an OFF station's page
that holds no record has the time shift of the default profile, 4 (log 43, DESIGN CHOICE), the spec
giving an OFF station none. -/
def Obligations.HaltSealsOpenPages : Prop :=
  (∀ (s : State) (v : Word32), regBit v 0 = false → regBit v 2 = false →
     s.run = true → s.runState = .running → s.halting = false →
     ∃ t, exec (.halt v) s = .next t ∧ t.run = false ∧ t.area = s.area ∧ t.held = s.held
       ∧ t.sweep.phase = .idle ∧ t.sweep.pending = false ∧ t.sweep.timer = none ∧ t.acq = none
       ∧ (∀ n, (t.station n).cap = (s.station n).cap ∧ (t.station n).queue = (s.station n).queue
           ∧ (t.station n).state = (s.station n).state ∧ (t.station n).head = (s.station n).head
           ∧ (t.station n).pg.mark = (s.station n).pg.mark
           ∧ (t.station n).pg.page = (s.station n).pg.page
           ∧ (t.station n).pg.starved = false ∧ (t.station n).pg.inHand = none
           ∧ (t.station n).pageQ = ((s.station n).pageQ.filter fun a => !a.purpose.isCut)
               ++ ((s.station n).pg.page.elim [] fun p =>
                 sealWrites p n .halt (s.station n).prof.timeShift false))
       ∧ (if t.sealsWait then t.runState = .running ∧ t.halting = true
           else t.runState = .stopped ∧ t.halting = false))
    ∧ ((∀ (s : State) (v : Word32), regBit v 0 = false → regBit v 2 = false → s.run = true →
           s.runState = .faulted →
           ∃ t, exec (.halt v) s = .next t ∧ t.runState = .stopped ∧ t.run = false ∧ t.held = s.held
             ∧ t.area = s.area ∧ t.resuming = false
             ∧ ∀ n, (t.station n).pg.page = none ∧ (t.station n).pg.detached = none
               ∧ (t.station n).pg.inHand = none ∧ (t.station n).cap = (s.station n).cap
               ∧ (t.station n).queue = (s.station n).queue)
         ∧ ∀ (s : State) (v : Word32), regBit v 0 = false → regBit v 2 = false → s.run = true →
           s.runState = .stopped → s.start ≠ .none →
           ∃ t, exec (.halt v) s = .next t ∧ t.runState = .stopped ∧ t.run = false ∧ t.start = .none
             ∧ t.startCheck = .none ∧ t.area = s.area ∧ t.held = s.held ∧ t.stations = s.stations
             ∧ (∀ a ∈ t.hmp.sweepQ, a.purpose.isStart = false)
             ∧ ∀ x ∈ t.hmp.inFlight, x.acc.purpose.isStart = false)

/-- RESUME in FAULTED with RUN 1: after a fault taken during a start the device is STOPPED with RUN 0;
otherwise every open page's seal with reason FAULT and every detached page's with reason ABANDON are
presented, and while such writes wait the device stays FAULTED. RESUME in FAULTED with no page to seal
and no marked job: RUNNING, the sweep timer runs from its full interval, and a sweep that is not a first
sweep begins with slot 0. Marked jobs. RESUME with no page to seal and one marked job deals with it: a
failed payload read or data write ends it MEMORY at the stations concerned and leaves their heads; a
failed result or DONE write has both made again, result first; a failed TAKEN write is made again. The
issue of the capability write in a start that follows a write of RUN 1 in FAULTED deals with it likewise
(R184). The issue of a FULL write in a resumption, of an open or a detached page: the page is gone and
PAGE SEALED set; while another seal write waits the device stays FAULTED, and at the last one it becomes
RUNNING, the marked jobs are dealt with and the sweep begins. Where R155, R170 and R184 are silent this
is the model's choice: logs 14, 15, 43, 45, 46 and 48. -/
def Obligations.ResumeSealsPages : Prop :=
  ((((∀ (s : State) (v : Word32), regBit v 0 = true → regBit v 1 = true → regBit v 2 = false →
       s.run = true → s.runState = .faulted → s.startFault = true →
       exec (.resume v) s = .next { s with
         attMask := maskOf v, runState := .stopped, run := false, startFault := false })
     ∧ ∀ (s : State) (v : Word32), regBit v 0 = true → regBit v 1 = true → regBit v 2 = false →
       s.run = true → s.runState = .faulted → s.startFault = false → s.resuming = false →
       (∃ n, (s.station n).pg.page ≠ none ∨ (s.station n).pg.detached ≠ none
         ∨ ∃ x ∈ (s.station n).pageQ, x.purpose.isSeal = true) →
       ∃ t, exec (.resume v) s = .next t ∧ t.runState = .faulted ∧ t.resuming = true
         ∧ t.held = s.held
         ∧ ∀ n, (t.station n).pageQ = (s.station n).pageQ
             ++ ((s.station n).pg.page.elim [] fun p =>
               sealWrites p n .fault (s.station n).prof.timeShift false)
             ++ ((s.station n).pg.detached.elim [] fun p => sealWrites p n .abandon p.shift true))
    ∧ (∀ (s : State) (v : Word32) (a : Area), regBit v 0 = true → regBit v 1 = true →
         regBit v 2 = false → s.run = true → s.runState = .faulted → s.startFault = false →
         s.resuming = false → s.area = some a → s.sweep.phase = .idle →
         (∀ n, (s.station n).pg.page = none ∧ (s.station n).pg.detached = none
           ∧ (s.station n).pageQ = [] ∧ (s.station n).head ≠ .quiesceDrain) →
         (∀ h ∈ s.held, h.memFail = 0 ∧ h.writeFail = false ∧ h.takenFail = false) →
         ∃ t, exec (.resume v) s = .next t ∧ t.runState = .running ∧ t.resuming = false
           ∧ t.run = true ∧ t.held = s.held ∧ t.area = s.area
           ∧ t.sweep = ⟨.readingState 0, false, s.sweep.pending, 0,
               some (s.elapsed + a.sweepUs * 100)⟩
           ∧ t.hmp.sweepQ = s.hmp.sweepQ ++ [⟨.sweep, none, a.jobBoard, 1, none, .slotState 0⟩]
           ∧ t.hmp.jobQ = s.hmp.jobQ
           ∧ ∀ n, (t.station n).pg.starved = false ∧ (t.station n).cap = (s.station n).cap))
    ∧ ((∀ (s : State) (v : Word32) (a : Area) (h : HeldJob), regBit v 0 = true → regBit v 1 = true →
           regBit v 2 = false → s.run = true → s.runState = .faulted → s.startFault = false →
           s.resuming = false → s.area = some a → s.sweep.phase = .idle →
           (∀ n, (s.station n).pg.page = none ∧ (s.station n).pg.detached = none
             ∧ (s.station n).pageQ = [] ∧ (s.station n).head ≠ .quiesceDrain) →
           s.jobsInv → h ∈ s.held → (∀ x ∈ s.held, x.jid ≠ h.jid → x.unmarked) →
           ∃ t, exec (.resume v) s = .next t ∧ t.runState = .running ∧ t.resuming = false
             ∧ s.dealtWith t h ∧ t.sweep.phase = .readingState 0 ∧ t.sweep.first = false
             ∧ t.attention = s.attention)
         ∧ ∀ (s : State) (addr : Word64) (d : List Byte) (a : Area) (h : HeldJob),
           s.runState = .stopped → s.halting = false → s.resuming = false → s.dealAtStart = true →
           s.sweep.phase = .idle → (∀ n, (s.station n).head ≠ .quiesceDrain) →
           s.nextGrant = some (Access.writeOf .sweep none addr d (.capability a)) →
           s.jobsInv → h ∈ s.held → (∀ x ∈ s.held, x.jid ≠ h.jid → x.unmarked) →
           ∃ t, exec .accessGrant s = .next t ∧ t.runState = .running ∧ t.dealAtStart = false
             ∧ s.dealtWith t h ∧ t.sweep.phase = .readingState 0 ∧ t.sweep.first = true))
    ∧ (∀ (s : State) (n : StationNo) (addr : Word64) (d : List Byte) (detached : Bool) (a : Area),
         s.runState = .faulted → s.resuming = true → s.halting = false → s.area = some a →
         s.sweep.phase = .idle → (∀ m, (s.station m).head ≠ .quiesceDrain) →
         (detached = false → (s.station n).pg.sealing ≠ some .quiesce) →
         s.nextGrant = some (Access.writeOf .page (some n) addr d (.sealFull detached)) →
         ∃ t, exec .accessGrant s = .next t ∧ t.attention = s.attention ||| Attn.pageSealed.mask
           ∧ (t.station n).pg.page = (if detached then (s.station n).pg.page else none)
           ∧ (t.station n).pg.detached = (if detached then none else (s.station n).pg.detached)
           ∧ (t.sealsWait = true → t.runState = .faulted ∧ t.resuming = true ∧ t.held = s.held
             ∧ t.sweep = s.sweep)
           ∧ (t.sealsWait = false → t.runState = .running ∧ t.resuming = false
             ∧ t.sweep = ⟨.readingState 0, false, s.sweep.pending, 0,
                 some (s.elapsed + a.sweepUs * 100)⟩
             ∧ ((∀ h ∈ s.held, h.unmarked) → t.held = s.held ∧ t.hmp.jobQ = s.hmp.jobQ)
             ∧ ∀ h ∈ s.held, s.jobsInv → (∀ x ∈ s.held, x.jid ≠ h.jid → x.unmarked) →
               s.dealtWith t h))

/-- The first failure while RUNNING is a host-memory fault: the address, class and station are recorded,
HOST MEMORY FAULT is set, the device is FAULTED, sweeping ends, records in hand are cut off, open pages
stay open. It comes by an error completion in time or by 50 ms without one. A further failure while
FAULTED and not resuming changes neither the recorded address nor the requester and sets no bit, by an
error completion or by a read's 50 ms. Whichever access fails and however, a fault is taken in RUNNING,
in STOPPED, in a start and in a resumption: address, class and station are recorded, HOST MEMORY FAULT
is set, the device is FAULTED, RUN and the start check stay. A fault in STOPPED with no start changes no
station; one in a start gives the start up; one in a resumption ends it, its waiting seal writes dropped
and every page kept. In every run state the held job that owns the failed access is marked (R170), a job
already released by its DONE write being held again. The model's choice, not the spec's words, each
DEDUCED: that a fault inside a halt makes the device FAULTED, ends the halt and leaves RUN as it stands
(log 16); that a fault in a start leaves the start check as it was (log 20); that the recorded station
of an access of no station is 0 (log 28); and that a released job whose result or DONE write fails is
held again, marked, unless another held job has its slot (log 14). That the failure of a payload read
whose job ABANDON ended at its station marks no job is the model's choice too (log 56, DESIGN CHOICE).
-/
def Obligations.FailureFaultsRunningDevice : Prop :=
  ((∀ (s : State) (id : Nat) (x : InFlight) (c : Instr), s.runState = .running →
     s.readInFlight id = some x →
     (c = .errorCompletion id ∧ s.elapsed ≤ x.issuedAt + 5000000
       ∨ c = .readTimeout id ∧ x.issuedAt + 5000000 ≤ s.elapsed) →
     ∃ t, exec c s = .next t ∧ t.runState = .faulted ∧ t.faultAddr = x.acc.addr
       ∧ t.faultClass = x.acc.cls.fault ∧ t.faultStation = x.acc.station.getD 0
       ∧ t.attention = s.attention ||| Attn.hostMemoryFault.mask
       ∧ t.sweep.phase = .idle ∧ t.sweep.pending = false ∧ t.sweep.timer = none ∧ t.acq = none
       ∧ t.run = s.run ∧ t.area = s.area ∧ t.readInFlight id = none
       ∧ ∀ n, (t.station n).pg.inHand = none ∧ (t.station n).pg.idleFlush = none
         ∧ (t.station n).pg.page = (s.station n).pg.page
         ∧ (t.station n).cap = (s.station n).cap ∧ (t.station n).queue = (s.station n).queue)
    ∧ (∀ (s : State) (id : Nat) (c : Instr), c = .errorCompletion id ∨ c = .readTimeout id →
         s.runState = .faulted → s.resuming = false →
         ∃ t, exec c s = .next t ∧ t.runState = .faulted
           ∧ t.faultAddr = s.faultAddr ∧ t.faultClass = s.faultClass ∧ t.faultStation = s.faultStation
           ∧ t.attention = s.attention ∧ t.stations = s.stations))
    ∧ ((∀ (s : State) (c : Instr) (a : Access), s.failsBy c a →
           (s.runState = .faulted → s.resuming = true) →
           ∃ t, exec c s = .next t ∧ t.runState = .faulted ∧ t.faultAddr = a.addr
             ∧ t.faultClass = (match a.cls with | .sweep => .sweep | .job => .job | .page => .page)
             ∧ t.faultStation = a.station.getD 0
             ∧ t.attention = s.attention ||| Attn.hostMemoryFault.mask
             ∧ t.run = s.run ∧ t.area = s.area ∧ t.startCheck = s.startCheck
             ∧ (∀ n, (t.station n).pg.page = (s.station n).pg.page
               ∧ (t.station n).pg.detached = (s.station n).pg.detached
               ∧ (t.station n).cap = (s.station n).cap ∧ (t.station n).queue = (s.station n).queue
               ∧ (t.station n).head = (s.station n).head)
             ∧ (s.runState = .running → t.halting = false ∧ t.startFault = false ∧ t.acq = none
               ∧ t.sweep.phase = .idle ∧ t.sweep.pending = false ∧ t.sweep.timer = none
               ∧ ∀ n, (t.station n).pg.inHand = none ∧ (t.station n).pg.sealing = none)
             ∧ (s.runState = .stopped → s.start = .none →
               t.startFault = false ∧ t.stations = s.stations)
             ∧ (s.runState = .stopped → s.start ≠ .none →
               t.startFault = true ∧ t.start = .none ∧ t.stations = s.stations
               ∧ ∀ x ∈ t.hmp.sweepQ, x.purpose.isStart = false)
             ∧ (s.runState = .faulted → t.resuming = false ∧ t.startFault = s.startFault
               ∧ t.sweep = s.sweep
               ∧ ∀ n, (t.station n).pageQ = (s.station n).pageQ.filter fun x => !x.purpose.isCut))
         ∧ ∀ (s : State) (c : Instr) (a : Access), s.failsBy c a →
           ∃ t, exec c s = .next t
             ∧ (∀ j n, (a.purpose = .profileRead j n ∨ (∃ k, a.purpose = .programRead j n k)
                 ∨ a.purpose = .writeData j n ∨ a.purpose = .data j n ∨ a.purpose = .statusRec j n) →
               t.held = s.held.map fun h =>
                 if h.jid = j then { h with memFail := h.memFail ||| (1#8 <<< n.val) } else h)
             ∧ (∀ h, a.purpose = .result h ∨ a.purpose = .done h →
               ((∃ x ∈ s.held, x.jid = h.jid) → t.held = s.held.map fun x =>
                 if x.jid = h.jid then { x with writeFail := true } else x)
               ∧ ((∀ x ∈ s.held, x.jid ≠ h.jid) → (∃ x ∈ s.held, x.slot = h.slot) → t.held = s.held)
               ∧ ((∀ x ∈ s.held, x.jid ≠ h.jid) → (∀ x ∈ s.held, x.slot ≠ h.slot) →
                 t.held = s.held ++ [{ h with writeFail := true, doneIssued := true }]))
             ∧ (∀ j, a.purpose = .taken j → t.held = s.held.map fun h =>
                 if h.jid = j then { h with takenFail := true } else h)
             ∧ (a.purpose.jid = none → t.held = s.held))

/-! ## Sweeps and slots -/

/-- A sweep request: with no sweep in progress a sweep begins, starved flags and blocked set cleared,
with the read of slot 0's state; in a sweep it sets the pending sweep. WAKE requests one while RUNNING
and is ignored otherwise; the sweep timer's end requests one and restarts the timer. -/
def Obligations.SweepRequestsBeginOrPend : Prop :=
  (∀ (s : State) (v : Word32), s.runState ≠ .running → exec (.wake v) s = .next s)
    ∧ (∀ (s : State) (v : Word32), s.runState = .running → s.halting = false →
        s.sweep.phase ≠ .idle →
        exec (.wake v) s = .next { s with sweep := { s.sweep with pending := true } })
    ∧ (∀ (s : State) (a : Area), s.area = some a → due s.sweep.timer s.elapsed = true →
        s.sweep.phase ≠ .idle →
        exec .sweepTimerExpiry s = .next { s with sweep :=
          { s.sweep with pending := true, timer := some (s.elapsed + a.sweepUs * 100) } })
    ∧ ∀ (s : State) (a : Area) (c : Instr), s.area = some a → s.sweep.phase = .idle →
        ((∃ v, c = .wake v) ∧ s.runState = .running ∧ s.halting = false
          ∨ c = .sweepTimerExpiry ∧ due s.sweep.timer s.elapsed = true) →
        ∃ t, exec c s = .next t
          ∧ t = { s with sweep := t.sweep, stations := t.stations, hmp := { s.hmp with
              sweepQ := s.hmp.sweepQ ++ [⟨.sweep, none, a.jobBoard, 1, none, .slotState 0⟩] } }
          ∧ t.sweep.phase = .readingState 0 ∧ t.sweep.first = false ∧ t.sweep.blocked = 0
          ∧ t.sweep.pending = s.sweep.pending
          ∧ t.sweep.timer = (if c = .sweepTimerExpiry then some (s.elapsed + a.sweepUs * 100)
              else s.sweep.timer)
          ∧ ∀ n, t.station n
              = { s.station n with pg := { (s.station n).pg with starved := false } }

/-- The state of slot i arrives. POSTED with no held job of its address: the whole slot is read. TAKEN
likewise in a first sweep: it is read as an orphan. Any other: the next slot's state is read, or after
the last slot the sweep ends, a pending sweep beginning at once. -/
def Obligations.SlotStateDecidesSlot : Prop :=
  ∀ (s : State) (a : Area) (id i : Nat) (b : Byte), s.area = some a →
    s.awaits id ⟨.sweep, none, a.slot i, 1, none, .slotState i⟩ →
    let r := s.endRead id
    let free := !s.holdsSlot (a.slot i)
    let posted := b == 1 && free
    let orphan := b == 2 && s.sweep.first && free
    (posted || orphan →
      exec (.slotStateReadDone id [b]) s = .next { r with
        sweep := { s.sweep with phase := .readingSlot i }
        hmp := { r.hmp with sweepQ := s.hmp.sweepQ
          ++ [⟨.sweep, none, a.slot i, 128, none, .slotWhole i (a.slot i) orphan true⟩] } })
    ∧ (!posted && !orphan → i + 1 < a.slotCount →
      exec (.slotStateReadDone id [b]) s = .next { r with
        sweep := { s.sweep with phase := .readingState (i + 1) }
        hmp := { r.hmp with sweepQ := s.hmp.sweepQ
          ++ [⟨.sweep, none, a.slot (i + 1), 1, none, .slotState (i + 1)⟩] } })
    ∧ (!posted && !orphan → a.slotCount ≤ i + 1 → s.sweep.pending = false →
      exec (.slotStateReadDone id [b]) s = .next { r with
        sweep := { s.sweep with phase := .idle } })
    ∧ (!posted && !orphan → a.slotCount ≤ i + 1 → s.sweep.pending = true →
      ∃ t, exec (.slotStateReadDone id [b]) s = .next t
        ∧ t.sweep = { s.sweep with
            phase := .readingState 0, pending := false, first := false, blocked := 0 }
        ∧ t.hmp.sweepQ = s.hmp.sweepQ ++ [⟨.sweep, none, a.slot 0, 1, none, .slotState 0⟩]
        ∧ ∀ n, (t.station n).pg.starved = false)

/-- A whole slot that no longer reads POSTED, or whose address is held (log 29, DEDUCED: the model's choice,
R173 speaking of the state read), is passed over: nothing but the sweep goes on. The checks of a posted
job: a kind byte outside 1 to 23 ends it BAD KIND; a device kind with a mask, a station kind without
one, and a refused field end it BAD PARAMETER. It is written back with that overall result, no station
is changed, and the sweep goes on. An orphaned slot of a first sweep is written back ABANDONED, overall
and at each named station. Which fields are refused (Tables 10-6 and 4-3): a code field whose value
Table 12-5 does not list; a STATUS buffer not at a multiple of 8; a READ, WRITE BUFFER or BLOCK READ
buffer not at a multiple of 4; a word count outside 1 to 64, 1 to 4 inline or 1 to 4,096 for BLOCK READ;
a control code outside 1 to 3; a byte count outside 1 to 32; a preset of 2^48 or more; and connector
numbers above 7 or equal. The model's choice: that for a WRITE the buffer address is checked with source
BUFFER only, Table 4-3 not saying for which source it holds (log 53, DESIGN CHOICE). -/
def Obligations.RefusedJobIsWrittenBack : Prop :=
  ((∀ (s : State) (id i : Nat) (slot : Word64) (live : Bool) (d : List Byte), d.length = 128 →
     s.awaits id (Access.readOf .sweep none slot 128 (.slotWhole i slot false live)) →
     (field d 0 1 ≠ 1 ∨ s.holdsSlot slot = true) →
     exec (.slotReadDone id d) s = .next ((s.endRead id).afterSlot i live))
    ∧ (∀ (s : State) (id i : Nat) (slot : Word64) (live : Bool) (d : List Byte), s.jobsInv →
         d.length = 128 → s.awaitsSlot id i slot live → field d 0 1 = 1 →
         let v := slotView d
         let back (code : ResultCode) : Prop :=
           ∃ u : State, exec (.slotReadDone id d) s = .next (u.afterSlot i live)
             ∧ u = { s.endRead id with
                 held := u.held, nextJid := s.nextJid + 1
                 hmp := { (s.endRead id).hmp with jobQ := u.hmp.jobQ } }
             ∧ u.writtenBack s.hmp.jobQ slot v.header noResults (some (Res.ended code)) s.tb
         (field d 1 1 = 0 ∨ 23 < field d 1 1 → back .badKind)
         ∧ (1 ≤ field d 1 1 → field d 1 1 ≤ 21 → field d 2 1 = 0 → back .badParameter)
         ∧ (field d 1 1 = 22 ∨ field d 1 1 = 23 → field d 2 1 ≠ 0 → back .badParameter)
         ∧ (v.job = .refused → back .badParameter)
         ∧ ∀ j, v.job = .job j → j.fieldsOk = false → back .badParameter)
    ∧ (∀ (s : State) (id i : Nat) (slot : Word64) (live : Bool) (d : List Byte), s.jobsInv →
         d.length = 128 → s.holdsSlot slot = false → field d 0 1 = 2 →
         s.awaits id (Access.readOf .sweep none slot 128 (.slotWhole i slot true live)) →
         ∃ u : State, exec (.slotReadDone id d) s = .next (u.afterSlot i live)
           ∧ u = { s.endRead id with
               held := u.held, nextJid := s.nextJid + 1
               hmp := { (s.endRead id).hmp with jobQ := u.hmp.jobQ } }
           ∧ u.writtenBack s.hmp.jobQ slot (slotView d).header
               (perStation (slotView d).header.mask fun _ => Res.ended .abandoned)
               (some (Res.ended .abandoned)) s.tb))
    ∧ ((∀ d : List Byte, (slotView d).job = .refused ↔
             (field d 1 1 = 12 ∧ (field d 16 1 = 0 ∨ 3 < field d 16 1
               ∨ (field d 16 1 = 3 ∧ 2 < field d 17 1)))
             ∨ (field d 1 1 = 13 ∧ (field d 16 1 = 0 ∨ 3 < field d 16 1))
             ∨ (field d 1 1 = 15 ∧ 1 < field d 26 1)
             ∨ ((field d 1 1 = 21 ∨ field d 1 1 = 22) ∧ 1 < field d 16 1))
         ∧ (∀ buf : Word64, (Job.status buf).fieldsOk = true ↔ buf.toNat % 8 = 0)
         ∧ (∀ (a buf : Word64) (k : Nat),
             ((Job.read a k buf).fieldsOk = true ↔ 1 ≤ k ∧ k ≤ 64 ∧ buf.toNat % 4 = 0)
             ∧ ((Job.writeBuffer a k buf).fieldsOk = true ↔ 1 ≤ k ∧ k ≤ 64 ∧ buf.toNat % 4 = 0)
             ∧ ((Job.blockRead a k buf).fieldsOk = true ↔ 1 ≤ k ∧ k ≤ 4096 ∧ buf.toNat % 4 = 0))
         ∧ (∀ (a : Word64) (k : Nat) (ws : List Word32),
             (Job.writeInline a k ws).fieldsOk = true ↔ 1 ≤ k ∧ k ≤ 4)
         ∧ (∀ code : Nat, (Job.boardControl code).fieldsOk = true ↔ 1 ≤ code ∧ code ≤ 3)
         ∧ (∀ (k : Nat) (bs : List Byte), (Job.consoleSend k bs).fieldsOk = true ↔ 1 ≤ k ∧ k ≤ 32)
         ∧ (∀ p : Word64, ((Job.timeLoadImmediate p).fieldsOk = true ↔ p.toNat < 2 ^ 48)
             ∧ ((Job.timeLoadOnSync p).fieldsOk = true ↔ p.toNat < 2 ^ 48))
         ∧ (∀ cs : List Byte, (Job.stationMap cs).fieldsOk = true
             ↔ cs.length = 8 ∧ (∀ c ∈ cs, c.toNat ≤ 7) ∧ cs.Nodup)
         ∧ ∀ j : Job, j ∈ [.enable, .abandon, .disarm, .flush, .park, .unpark, .quiesce, .powerOn,
               .powerOff, .resetHold, .resetRelease, .ping, .captureStartImmediate,
               .captureStartTriggered]
             ∨ (∃ v, j = .mark v) ∨ (∃ n, j = .captureStop n) ∨ (∃ a, j = .configure a)
             ∨ (∃ m, j = .setMode m) ∨ (∃ w, j = .resetPulse w) ∨ (∃ a, j = .arm a) →
           j.fieldsOk = true)

/-- A queued job that passes its checks. Unavailable everywhere: written back UNAVAILABLE. A taking station
blocked or with four jobs: left POSTED, its mask joins the blocked set. Otherwise taken: it joins the
end of each taking station's queue, QUIESCE making the station QUIESCING, the others of its mask get
UNAVAILABLE, and TAKEN is written to its slot. Which job a slot's bytes give: the kind byte and the
parameters at the offsets of Table 12-5, inline words and bytes in their order. -/
def Obligations.QueuedJobIsTakenOrLeftPosted : Prop :=
  (∀ (s : State) (id i : Nat) (slot : Word64) (live : Bool) (d : List Byte) (j : Job), s.jobsInv →
    d.length = 128 → s.awaitsSlot id i slot live → field d 0 1 = 1 → (slotView d).job = .job j →
    j.cls = .queued → (slotView d).header.mask ≠ 0 → j.fieldsOk = true →
    let h := (slotView d).header
    let takes (n : StationNo) : Bool := inMask h.mask n
      && ((s.station n).state == .ready || ((s.station n).state == .parked && j == .unpark))
    let full (n : StationNo) : Bool :=
      inMask s.sweep.blocked n || decide (4 ≤ (s.station n).queue.length)
    let r := s.endRead id
    ((∀ n, takes n = false) →
      ∃ u : State, exec (.slotReadDone id d) s = .next (u.afterSlot i live)
        ∧ u = { r with
            held := u.held, nextJid := s.nextJid + 1, hmp := { r.hmp with jobQ := u.hmp.jobQ } }
        ∧ u.writtenBack s.hmp.jobQ slot h
            (perStation h.mask fun _ => Res.ended .unavailable) none s.tb)
    ∧ ((∃ n, takes n && full n) →
      exec (.slotReadDone id d) s = .next (State.afterSlot
        { r with sweep := { s.sweep with blocked := s.sweep.blocked ||| h.mask } } i live))
    ∧ ((∃ n, takes n = true) → (∀ n, (takes n && full n) = false) →
      ∃ (u : State) (hj : HeldJob), exec (.slotReadDone id d) s = .next (u.afterSlot i live)
        ∧ u = { r with
            held := s.held ++ [hj], nextJid := s.nextJid + 1, stations := u.stations
            hmp := { r.hmp with sweepQ := s.hmp.sweepQ
              ++ [⟨.sweep, none, slot, 1, some [2], .taken s.nextJid⟩] } }
        ∧ hj.jid = s.nextJid ∧ hj.slot = slot ∧ hj.mask = h.mask ∧ hj.hostRef = h.hostRef
        ∧ hj.notify = h.notify ∧ hj.own = none ∧ hj.formed = none
        ∧ ∀ n, hj.resultAt n
              = (if inMask h.mask n && !takes n then some (Res.ended .unavailable) else none)
          ∧ u.station n
              = (if takes n then
                  { s.station n with
                    queue := (s.station n).queue ++ [⟨s.nextJid, h.hostRef, j⟩]
                    state := if j = .quiesce then .quiescing else (s.station n).state }
                else s.station n)))
    ∧ (∀ d : List Byte, d.length = 128 →
         let v := slotView d
         let addr := BitVec.ofNat 64 (field d 16 8)
         let count := field d 24 2
         let buf := BitVec.ofNat 64 (field d 32 8)
         let op := field d 16 1
         let gives (kind : Nat) (j : Job) : Prop := field d 1 1 = kind → v.job = .job j
         let givesOp (kind o : Nat) (j : Job) : Prop := field d 1 1 = kind → op = o → v.job = .job j
         v.header.mask.toNat = field d 2 1 ∧ v.header.notify = (byteAt d 3).getLsbD 0
         ∧ v.header.hostRef.toNat = field d 8 8
         ∧ gives 1 .enable ∧ gives 2 .abandon ∧ gives 3 (.status addr)
         ∧ gives 4 (.mark (BitVec.ofNat 32 (field d 16 4))) ∧ gives 5 (.captureStop (field d 16 2))
         ∧ gives 6 .disarm ∧ gives 7 .flush ∧ gives 8 (.configure addr) ∧ gives 9 .park
         ∧ gives 10 .unpark ∧ gives 11 .quiesce
         ∧ givesOp 12 1 .powerOn ∧ givesOp 12 2 .powerOff
         ∧ (field d 17 1 = 0 → givesOp 12 3 (.setMode .off))
         ∧ (field d 17 1 = 1 → givesOp 12 3 (.setMode .manual))
         ∧ (field d 17 1 = 2 → givesOp 12 3 (.setMode .auto))
         ∧ givesOp 13 1 (.resetPulse (field d 18 2)) ∧ givesOp 13 2 .resetHold
         ∧ givesOp 13 3 .resetRelease ∧ gives 14 (.read addr count buf)
         ∧ (field d 26 1 = 1 → gives 15 (.writeBuffer addr count buf))
         ∧ (field d 1 1 = 15 → field d 26 1 = 0 → ∃ ws, v.job = .job (.writeInline addr count ws)
           ∧ ws.length = min count 4
           ∧ ∀ i w, ws[i]? = some w → w.toNat = field d (40 + 4 * i) 4)
         ∧ gives 16 (.blockRead addr count buf) ∧ gives 17 (.boardControl op) ∧ gives 18 .ping
         ∧ (field d 1 1 = 19 → ∃ bs, v.job = .job (.consoleSend op bs) ∧ bs.length = min op 32
           ∧ ∀ i b, bs[i]? = some b → b.toNat = field d (24 + i) 1)
         ∧ gives 20 (.arm addr) ∧ givesOp 21 0 .captureStartImmediate
         ∧ givesOp 21 1 .captureStartTriggered
         ∧ givesOp 22 0 (.timeLoadImmediate (BitVec.ofNat 64 (field d 24 8)))
         ∧ givesOp 22 1 (.timeLoadOnSync (BitVec.ofNat 64 (field d 24 8)))
         ∧ (field d 1 1 = 23 → ∃ cs, v.job = .job (.stationMap cs) ∧ cs.length = 8
           ∧ ∀ i b, cs[i]? = some b → b.toNat = field d (16 + i) 1))

/-! ## The memory arbiter -/

/-- Under pressure, page draining takes three grants for every one of the other classes (R162): which
class is granted, from what waits, the burst count and the non-page pointer. With no pressure the grant
goes round SWEEP, JOB, PAGE after the class pointer; among PAGE accesses, under pressure or not, it goes
round the stations after the station pointer (R161). -/
def Obligations.ArbiterChoosesClassAndStation : Prop :=
  (∀ s : State, (∃ n, 6144 ≤ (s.station n).cap.used) →
     (s.waiting .page = true → s.hmp.burst < 3 → s.grantClass = some .page)
     ∧ ((s.waiting .page = false ∨ 3 ≤ s.hmp.burst) → s.waiting .sweep = true →
         s.waiting .job = true → s.hmp.nonPagePtr = .job → s.grantClass = some .sweep)
     ∧ ((s.waiting .page = false ∨ 3 ≤ s.hmp.burst) → s.waiting .sweep = true →
         s.waiting .job = true → s.hmp.nonPagePtr = .sweep → s.grantClass = some .job)
     ∧ ((s.waiting .page = false ∨ 3 ≤ s.hmp.burst) → s.waiting .sweep = true →
         s.waiting .job = false → s.grantClass = some .sweep)
     ∧ ((s.waiting .page = false ∨ 3 ≤ s.hmp.burst) → s.waiting .sweep = false →
         s.waiting .job = true → s.grantClass = some .job)
     ∧ (3 ≤ s.hmp.burst → s.waiting .page = true → s.waiting .sweep = false →
         s.waiting .job = false → s.grantClass = some .page))
    ∧ (∀ s : State,
         let order : List AccessClass := match s.hmp.classPtr with
           | .page => [.sweep, .job, .page]
           | .sweep => [.job, .page, .sweep]
           | .job => [.page, .sweep, .job]
         ((∀ n, (s.station n).cap.used < 6144) → s.grantClass = order.find? s.waiting)
           ∧ (s.grantClass = some .page → s.nextGrant = s.pageStation.bind s.nextPageOf)
           ∧ ∀ n, s.pageStation = some n →
               (s.nextPageOf n).isSome = true
               ∧ ∀ m : StationNo, (s.nextPageOf m).isSome = true →
                   (n.val + 7 - s.hmp.stationPtr.val) % 8 ≤ (m.val + 7 - s.hmp.stationPtr.val) % 8)

/-- A grant issues one access: a read comes to be in flight and a write joins the device's writes in
issue order, under the next number; the pointers and the burst count follow (R160, R161). With nothing
grantable nothing changes. -/
def Obligations.GrantIssuesOneAccess : Prop :=
  (∀ s : State, s.nextGrant = none → exec .accessGrant s = .next s)
    ∧ ∀ (s : State) (a : Access), s.nextGrant = some a →
      ∃ t, exec .accessGrant s = .next t ∧ t.hmp.nextId = s.hmp.nextId + 1
        ∧ t.hmp.inFlight = s.hmp.inFlight
            ++ (if a.data = none then [⟨s.hmp.nextId, s.elapsed, a⟩] else [])
        ∧ t.hmp.writes = s.hmp.writes
            ++ (if a.data = none then [] else [⟨s.hmp.nextId, a, false⟩])
        ∧ t.hmp.classPtr = a.cls
        ∧ t.hmp.nonPagePtr = (if a.cls = .page then s.hmp.nonPagePtr else a.cls)
        ∧ t.hmp.burst = (if a.cls = .page then min 3 (s.hmp.burst + 1) else 0)
        ∧ t.hmp.stationPtr
            = (if a.cls = .page then a.station.getD s.hmp.stationPtr else s.hmp.stationPtr)

/-- The issue of the capability write accepts the start: RUNNING, the area in force, start check OK, the
cursor 0, the sweep timer running, and the first sweep begun with slot 0 (R168). The issue of a DONE
write releases the held job and sets JOB DONE when its slot had NOTIFY. The issue of a TAKEN write lets
results already formed be presented, result before DONE (R178). -/
def Obligations.JobIssuesTakeEffect : Prop :=
  (∀ (s : State) (addr : Word64) (d : List Byte) (a : Area), s.runState = .stopped →
     s.halting = false → s.resuming = false → s.sweep.phase = .idle →
     s.nextGrant = some (Access.writeOf .sweep none addr d (.capability a)) →
     ∃ t, exec .accessGrant s = .next t ∧ t.runState = .running ∧ t.area = some a
       ∧ t.startCheck = .ok ∧ t.start = .none ∧ t.cursor = 0 ∧ t.nextSerial = s.nextSerial
       ∧ t.run = s.run ∧ t.sweep.phase = .readingState 0 ∧ t.sweep.first = true
       ∧ t.sweep.timer = some (s.elapsed + a.sweepUs * 100)
       ∧ ∃ q, t.hmp.sweepQ = q ++ [⟨.sweep, none, a.jobBoard, 1, none, .slotState 0⟩])
    ∧ ((∀ (s : State) (h : HeldJob), s.runState = .running → s.halting = false → s.resuming = false →
           s.nextGrant = some (Access.writeOf .job none h.slot [3] (.done h)) →
           ∃ t, exec .accessGrant s = .next t
             ∧ t.held = s.held.filter (fun x => x.jid != h.jid)
             ∧ t.attention = (if h.notify then s.attention ||| Attn.jobDone.mask else s.attention)
             ∧ t.stations = s.stations ∧ t.runState = .running)
         ∧ ∀ (s : State) (h : HeldJob) (bytes : List Byte) (addr : Word64), s.runState = .running →
           s.halting = false → s.resuming = false → s.jobsInv → h ∈ s.held → h.formed = some bytes →
           s.nextGrant = some (Access.writeOf .sweep none addr [2] (.taken h.jid)) →
           ∃ t hj, exec .accessGrant s = .next t ∧ hj = { h with taken := .issued } ∧ hj ∈ t.held
             ∧ t.hmp.jobQ = s.hmp.jobQ ++ hj.backWrites bytes ∧ t.stations = s.stations)

/-! ## Immediate and device jobs -/

/-- ENABLE: each named OFF station becomes READY with every block in its enable state, SEATED when its
connector's settled PRESENT is asserted, and the result is OK; other named stations give STATE and stay
as they are. The model's choice, where R28 gives a READY station no value: the history size in force is
0, the reset controller HELD and the cooldown fault NONE (log 32, DESIGN CHOICE), the first lost unit
time of its empty pending loss 0 (log 54, DESIGN CHOICE) and the value of its invalid reference R 0 (log
55, DESIGN CHOICE). -/
def Obligations.EnablePutsStationsReady : Prop :=
  ∀ (s : State) (id i : Nat) (slot : Word64) (live : Bool) (h : JobHeader), s.jobsInv →
    s.awaitsSlot id i slot live → h.mask ≠ 0 →
    ∃ u : State, exec (.enable id h) s = .next (u.afterSlot i live) ∧ s.afterExecuted u id
      ∧ u.attention = s.attention
      ∧ u.writtenBack s.hmp.jobQ slot h
          (perStation h.mask fun n =>
            if (s.station n).state = .off then Res.okv 0 else Res.ended .state) none s.tb
      ∧ ∀ n, u.station n =
          if inMask h.mask n ∧ (s.station n).state = .off then
            let pin := s.connector (s.connectorOf n)
            { state := .ready
              profile := some Profile.default
              queue := []
              head := .waiting
              lp := ⟨true, false, none, Health.empty, some (s.elapsed + 1000000), [], none⟩
              au := ⟨[], [], false, 0, .unknown⟩
              cu := { (s.station n).cu with
                rx := .idle, line := [], idle := none, patterns := [], sendQ := [], tx := none }
              bpu := { PowerUnit.reset with
                state := if pin.settled then .seated else .absent
                cls := if pin.settled then pin.straps else 7 }
              ts := { (s.station n).ts with state := .disarmed, program := none }
              cap := Capture.reset
              pg := { (s.station n).pg with mark := none, starved := false, episode := false }
              pageQ := (s.station n).pageQ }
          else s.station n

/-- ABANDON while RUNNING, in a halt too: each named station not OFF is OFF at once, with capture, jobs,
table, power and receivers emptied; its open page's seal with reason ABANDON is presented, a seal begun
for another reason taken back, the record in hand cut off; the result value is the number of its jobs,
each of which ends ABANDONED there. OFF stations give STATE. ABANDON of one station while FAULTED, no
resumption under way: the open page is detached, so the station holds none, and no seal is presented
(R38). The model's deduction, not the spec's words: that a seal begun for another reason is taken back
and made again, and that this holds in a halt too (log 18, DEDUCED). That the first lost unit time of an
empty pending loss is 0 is the model's choice (log 54, DESIGN CHOICE). The model's choice: an empty
detached page keeps for its header the time shift in force at the ABANDON (log 43, DESIGN CHOICE). -/
def Obligations.AbandonPutsStationsOff : Prop :=
  (∀ (s : State) (id i : Nat) (slot : Word64) (live : Bool) (h : JobHeader), s.jobsInv →
     s.awaitsSlot id i slot live → h.mask ≠ 0 → s.runState = .running →
     ∃ (u : State) (q : List Access), exec (.abandon id h) s = .next (u.afterSlot i live)
       ∧ u.writtenBack q slot h
           (perStation h.mask fun n =>
             if (s.station n).state = .off then Res.ended .state
             else Res.okv (s.station n).queue.length) none s.tb
       ∧ ∀ n, let t := s.station n
         if inMask h.mask n ∧ t.state ≠ .off then
           (u.station n).state = .off ∧ (u.station n).profile = none ∧ (u.station n).queue = []
           ∧ (u.station n).head = .waiting
           ∧ (u.station n).cap.state = .stopped ∧ (u.station n).cap.staging = []
           ∧ (u.station n).cap.history = [] ∧ (u.station n).cap.loss = false
           ∧ (u.station n).cap.pend = ⟨0, 0, 0⟩ ∧ (u.station n).cap.seq = t.cap.seq
           ∧ (u.station n).cap.ref.valid = false ∧ (u.station n).cap.ref.reason = .enable
           ∧ (u.station n).au
               = { t.au with entries := [], retired := [], holder := false, boardRun := .unknown }
           ∧ (u.station n).lp.up = false ∧ (u.station n).lp.rxOn = false
           ∧ (u.station n).cu.rx = .off ∧ (u.station n).cu.line = [] ∧ (u.station n).cu.sendQ = []
           ∧ (u.station n).bpu.state = .inactive ∧ (u.station n).bpu.held = none
           ∧ (u.station n).ts = ⟨.disarmed, none, Vector.replicate 4 none⟩
           ∧ (u.station n).pg.page = t.pg.page ∧ (u.station n).pg.inHand = none
           ∧ (u.station n).pg.mark = none ∧ (u.station n).pg.starved = false
           ∧ (u.station n).pageQ = (t.pageQ.filter fun a => !a.purpose.isCut)
               ++ (t.pg.page.elim [] fun p => sealWrites p n .abandon t.prof.timeShift false)
           ∧ ∀ p ∈ t.queue, ∀ hj ∈ u.held, hj.jid = p.jid →
               hj.resultAt n = some (Res.ended .abandoned)
         else u.station n = t)
    ∧ (∀ (s : State) (id i : Nat) (slot : Word64) (live : Bool) (h : JobHeader) (n : StationNo)
         (p : OpenPage), s.awaitsSlot id i slot live → inMask h.mask n = true →
         s.runState = .faulted → s.resuming = false → (s.station n).state ≠ .off →
         (s.station n).pg.page = some p →
         ∃ u : State, exec (.abandon id h) s = .next (u.afterSlot i live)
           ∧ (u.station n).state = .off ∧ (u.station n).pg.page = none
           ∧ (u.station n).pg.detached = some { p with
               shift := if p.count = 0 then (s.station n).prof.timeShift else p.shift }
           ∧ (u.station n).pageQ = (s.station n).pageQ.filter fun a => !a.purpose.isCut)

/-- STATUS: the 64-byte record of each named station, in ascending station number, is presented as a JOB
write at the buffer address plus 64 times the station number, before the result and DONE writes; no
station changes; the value is the sum of the staging bytes. Fields of a station status record (Table
12-12), for a station within its bounds. The model's choice: the power fields of an OFF station are
those BPU last held, with power mode OFF (log 22, DEDUCED). The address of a record is a sum modulo 2^64
for every buffer address, the spec giving no refusal where it passes 2^64 - 1 (log 47, DESIGN CHOICE:
the model's choice). -/
def Obligations.StatusWritesRecords : Prop :=
  ((∀ (s : State) (id i : Nat) (slot : Word64) (live : Bool) (h : JobHeader) (buf : Word64),
     s.jobsInv → s.awaitsSlot id i slot live → h.mask ≠ 0 → buf.toNat % 8 = 0 →
     ∃ u : State, exec (.status id h buf) s = .next (u.afterSlot i live) ∧ s.afterExecuted u id
       ∧ u.stations = s.stations ∧ u.attention = s.attention
       ∧ u.writtenBack
           (s.hmp.jobQ ++ (maskStations h.mask).map fun n =>
             Access.writeOf .job none (buf + BitVec.ofNat 64 (64 * n.val))
               (statusBytes (s.connectorOf n) (s.station n)) (.statusRec s.nextJid n))
           slot h (perStation h.mask fun n => Res.okv (s.station n).cap.used) none s.tb)
    ∧ (∀ (c : ConnectorNo) (t : Station), t.cap.bounded → t.au.bounded → t.queue.length ≤ 4 →
         let d := statusBytes c t
         d.length = 64 ∧ field d 0 1 = t.state.code ∧ field d 1 1 = c.val
           ∧ field d 2 1 = t.bpu.state.code ∧ field d 4 1 = t.bpu.cls.toNat
           ∧ field d 5 1 = t.bpu.latched.code ∧ field d 8 1 = t.au.boardRun.code
           ∧ field d 9 1 = t.cap.state.code ∧ field d 12 1 = t.ts.state.code
           ∧ field d 13 1 = t.ts.state.step ∧ field d 15 1 = t.queue.length
           ∧ field d 20 2 = t.cap.used ∧ field d 32 1 = t.au.entries.length
           ∧ field d 33 1 = t.au.retired.length ∧ field d 34 2 = t.cap.seq.toNat))
    ∧ (∀ (c : ConnectorNo) (t : Station), t.cap.bounded → t.au.bounded → t.queue.length ≤ 4 →
         t.cap.historySize ≤ 8192 → t.bpu.retry ≤ 7 → (∀ h, t.bpu.held = some h → h.width ≤ 4) →
         (∀ m, t.cap.state = .stopping m → m ≤ 65535) → t.cap.pend.records ≤ 4294967295 →
         t.cap.pend.bytes ≤ 4294967295 → (∀ p, t.pg.page = some p → p.serial ≤ 4294967295) →
         t.lp.health.corrected ≤ 65535 → t.lp.health.discarded ≤ 65535 →
         t.lp.health.filtered ≤ 65535 → t.lp.health.late ≤ 65535 → t.lp.health.unmatched ≤ 65535 →
         let d := statusBytes c t
         field d 3 1 = (match t.profile.map Profile.powerMode with
             | some .manual => 1 | some .auto => 2 | some .off | none => 0)
           ∧ field d 6 1 = t.bpu.retry
           ∧ (∀ i : Fin 8, (byteAt d 7).getLsbD i.val = [t.bpu.hold, t.lp.up, t.bpu.held.isSome,
               t.au.holder, t.pg.page.isSome, t.cap.loss, false, false][i.val]?.getD false)
           ∧ field d 10 2 = (match t.cap.state with
             | .stopping m => m | .stopped | .watching | .recording => 0)
           ∧ field d 14 1 = (t.bpu.held.map ProgressCode.width).getD 0
           ∧ field d 16 4 = (t.bpu.held.map fun h => h.value.toNat).getD 0
           ∧ field d 22 2 = historyBytes t.cap.history
           ∧ field d 24 4 = t.cap.pend.records ∧ field d 28 4 = t.cap.pend.bytes
           ∧ field d 36 4 = (t.pg.page.map OpenPage.serial).getD 0
           ∧ byteAt d 40 = t.lp.health.flags ∧ field d 41 1 = 0
           ∧ field d 42 2 = t.lp.health.corrected ∧ field d 44 2 = t.lp.health.discarded
           ∧ field d 46 2 = t.lp.health.filtered ∧ field d 48 2 = t.lp.health.late
           ∧ field d 50 2 = t.lp.health.unmatched
           ∧ ∀ b ∈ d.drop 52, b = 0)

/-- MARK: at each named READY or QUIESCING station a MARK record with the value, origin JOB and the host
reference is offered at the present count; the value is 1 where the offer was admitted to staging. OFF
and PARKED stations give UNAVAILABLE and stay as they are. -/
def Obligations.MarkJobOffersMarks : Prop :=
  ∀ (s : State) (id i : Nat) (slot : Word64) (live : Bool) (h : JobHeader) (value : Word32),
    s.jobsInv → s.awaitsSlot id i slot live → h.mask ≠ 0 →
    let r := s.recordNow (.mark value .job h.hostRef)
    let o (n : StationNo) : CapOut := (s.station n).offer s.tb r
    ∃ u : State, exec (.mark id h value) s = .next (u.afterSlot i live) ∧ s.afterExecuted u id
      ∧ (∀ n, u.station n = if inMask h.mask n ∧ (s.station n).working then
          (s.station n).take (o n) else s.station n)
      ∧ (u.attention = if ∃ n, inMask h.mask n ∧ (s.station n).working ∧ (o n).lossEntered = true then
          s.attention ||| Attn.loss.mask else s.attention)
      ∧ u.writtenBack s.hmp.jobQ slot h
          (perStation h.mask fun n => if (s.station n).working then
            Res.okv (if (s.station n).cap.state.admitting ∧ (o n).cap.loss = false then 1 else 0)
            else Res.ended .unavailable) none s.tb

/-- CAPTURE STOP with post count p at each named READY or QUIESCING station, by R136's table; that its value
is 1 in every STOPPING, where the post count written equals the remaining one too, is the model's choice
(log 39, DEDUCED). DISARM and FLUSH at each named READY or QUIESCING station: DISARM leaves the
sequencer DISARMED with no program and no pattern, its value 1 where it was ARMED; FLUSH makes a seal
request with reason FLUSH for the records now staged, its value the staging bytes. -/
def Obligations.StopDisarmAndFlushExecute : Prop :=
  (∀ (s : State) (id i : Nat) (slot : Word64) (live : Bool) (h : JobHeader) (post : BitVec 16),
     s.jobsInv → s.awaitsSlot id i slot live → h.mask ≠ 0 →
     ∃ u : State, exec (.captureStop id h post) s = .next (u.afterSlot i live)
       ∧ s.afterExecuted u id ∧ u.attention = s.attention
       ∧ u.writtenBack s.hmp.jobQ slot h
           (perStation h.mask fun n => if (s.station n).working then
             Res.okv (if (s.station n).cap.state = .stopped then 0 else 1)
             else Res.ended .unavailable) none s.tb
       ∧ ∀ n, let t := s.station n
         if inMask h.mask n ∧ t.working then
           u.station n = (match t.cap.state with
             | .stopped => t
             | .watching => { t with cap := { t.cap with state := .stopped, history := [] } }
             | .recording | .stopping _ =>
               if post = 0 then
                 { t with
                   cap := { t.cap with state := .stopped }
                   pg := { t.pg with
                     mark := if t.cap.staging = [] ∧ t.pg.page = none then none
                       else some ⟨t.cap.staging.length, .stopped⟩ } }
               else { t with cap := { t.cap with state := .stopping post.toNat } })
         else u.station n = t)
    ∧ (∀ (s : State) (id i : Nat) (slot : Word64) (live : Bool) (h : JobHeader), s.jobsInv →
         s.awaitsSlot id i slot live → h.mask ≠ 0 →
         (∃ u : State, exec (.disarm id h) s = .next (u.afterSlot i live) ∧ s.afterExecuted u id
           ∧ u.attention = s.attention
           ∧ (∀ n, u.station n = if inMask h.mask n ∧ (s.station n).working then
               { s.station n with
                 ts := { (s.station n).ts with state := .disarmed, program := none }
                 cu := { (s.station n).cu with patterns := [] } }
               else s.station n)
           ∧ u.writtenBack s.hmp.jobQ slot h
               (perStation h.mask fun n => if (s.station n).working then
                 Res.okv (if (s.station n).ts.state.code = 1 then 1 else 0)
                 else Res.ended .unavailable) none s.tb)
         ∧ ∃ u : State, exec (.flush id h) s = .next (u.afterSlot i live) ∧ s.afterExecuted u id
           ∧ u.attention = s.attention
           ∧ (∀ n, u.station n = if inMask h.mask n ∧ (s.station n).working then
               { s.station n with pg := { (s.station n).pg with
                 mark := if (s.station n).cap.staging = [] ∧ (s.station n).pg.page = none then none
                   else some ⟨(s.station n).cap.staging.length, .flush⟩ } }
               else s.station n)
           ∧ u.writtenBack s.hmp.jobQ slot h
               (perStation h.mask fun n => if (s.station n).working then
                 Res.okv (s.station n).cap.used else Res.ended .unavailable) none s.tb)

/-- When a load takes effect, by an IMMEDIATE TIME LOAD or a SYNC edge with a load pending, the count is
the preset, no load is pending, and every station's reference is invalid with reason TIME LOAD; nothing
else of any station changes. An edge with none pending has no effect; ON SYNC makes its preset the
pending load. The job's value is 1 when a load was pending. -/
def Obligations.TimeLoadsTakeEffect : Prop :=
  (∀ s : State, s.pendingLoad = none → exec .syncEdge s = .next s)
    ∧ (∀ (s : State) (p : Tick), s.pendingLoad = some p →
        ∃ t, exec .syncEdge s = .next t ∧ t.tb = p ∧ t.pendingLoad = none
          ∧ t = { s with tb := t.tb, pendingLoad := none, stations := t.stations }
          ∧ ∀ n, t.station n = { s.station n with cap := { (s.station n).cap with
              ref := { (s.station n).cap.ref with valid := false, reason := .timeLoad } } })
    ∧ ∀ (s : State) (id i : Nat) (slot : Word64) (live : Bool) (h : JobHeader) (preset : Word64),
      s.jobsInv → s.awaitsSlot id i slot live → h.mask = 0 → preset.toNat < 2 ^ 48 →
      let value := if s.pendingLoad = none then 0 else 1
      (∃ u : State, exec (.timeLoadImmediate id h preset) s = .next (u.afterSlot i live)
        ∧ u = { s.endRead id with
            tb := u.tb, pendingLoad := none, stations := u.stations, held := u.held
            nextJid := s.nextJid + 1, hmp := { (s.endRead id).hmp with jobQ := u.hmp.jobQ } }
        ∧ u.tb.toNat = preset.toNat
        ∧ (∀ n, u.station n = { s.station n with cap := { (s.station n).cap with
              ref := { (s.station n).cap.ref with valid := false, reason := .timeLoad } } })
        ∧ u.writtenBack s.hmp.jobQ slot h noResults (some (Res.okv value)) u.tb)
      ∧ ∃ u : State, exec (.timeLoadOnSync id h preset) s = .next (u.afterSlot i live)
        ∧ u = { s.endRead id with
            pendingLoad := u.pendingLoad, held := u.held, nextJid := s.nextJid + 1
            hmp := { (s.endRead id).hmp with jobQ := u.hmp.jobQ } }
        ∧ u.pendingLoad.map BitVec.toNat = some preset.toNat
        ∧ u.writtenBack s.hmp.jobQ slot h noResults (some (Res.okv value)) s.tb

/-- STATION MAP with eight different connector numbers up to 7: with every station OFF the new map replaces
the old one and the job completes OK; with any station not OFF it ends STATE and the map is unchanged. A
number above 7 or two equal numbers end it BAD PARAMETER. The map being a permutation, each connector
serves exactly one station, whose outputs are the connector's: PWR_EN, BOARD_RESET, the TX line and the
packet on the link (R41). -/
def Obligations.StationMapNeedsAllOff : Prop :=
  (∀ (s : State) (id i : Nat) (slot : Word64) (live : Bool) (h : JobHeader) (cs : List Byte),
    s.jobsInv → s.awaitsSlot id i slot live → h.mask = 0 → cs.length = 8 →
    let frame (u : State) : Prop := u = { s.endRead id with
      stationMap := u.stationMap, held := u.held, nextJid := s.nextJid + 1
      hmp := { (s.endRead id).hmp with jobQ := u.hmp.jobQ } }
    let good : Prop := (∀ c ∈ cs, c.toNat ≤ 7) ∧ cs.Nodup
    (good → (∀ n, (s.station n).state = .off) →
      ∃ u : State, exec (.stationMap id h cs) s = .next (u.afterSlot i live) ∧ frame u
        ∧ (∀ n : StationNo, cs[n.val]?.map BitVec.toNat = some (u.connectorOf n).val)
        ∧ u.writtenBack s.hmp.jobQ slot h noResults (some (Res.okv 0)) s.tb)
    ∧ (good → (∃ n, (s.station n).state ≠ .off) →
      ∃ u : State, exec (.stationMap id h cs) s = .next (u.afterSlot i live) ∧ frame u
        ∧ u.stationMap = s.stationMap
        ∧ u.writtenBack s.hmp.jobQ slot h noResults (some (Res.ended .state)) s.tb)
    ∧ (¬ good →
      ∃ u : State, exec (.stationMap id h cs) s = .next (u.afterSlot i live) ∧ frame u
        ∧ u.stationMap = s.stationMap
        ∧ u.writtenBack s.hmp.jobQ slot h noResults (some (Res.ended .badParameter)) s.tb))
    ∧ (∀ (s : State) (c : ConnectorNo), s.stationMap.toList.Nodup →
         ∃ n, s.stationOf c = some n ∧ s.connectorOf n = c ∧ (∀ m, s.connectorOf m = c → m = n)
           ∧ (s.pwrEnAt c = true
             ↔ (s.station n).bpu.state = .ramping ∨ (s.station n).bpu.state = .on)
           ∧ (s.boardResetAt c = false
             ↔ (s.station n).bpu.state = .on ∧ (s.station n).bpu.ctl = .released)
           ∧ s.txLineAt c = (s.station n).cu.txLine s.elapsed
           ∧ s.sendingAt c = (s.station n).lp.sending)

/-- The time base changes value other than by advancing only when a load takes effect or at power-on
reset, whatever the command (R1). -/
def Obligations.OnlyLoadsChangeTimeBase : Prop :=
  ∀ (i : Instr) (s t : State), exec i s = .next t → t.tb ≠ s.tb →
    (∃ lines, i = .powerOnReset lines) ∨ (i = .syncEdge ∧ s.pendingLoad = some t.tb)
      ∨ (∃ id h p, i = .timeLoadImmediate id h p ∧ t.tb.toNat = p.toNat)
      ∨ ∃ id d p, i = .slotReadDone id d ∧ (slotView d).job = .job (.timeLoadImmediate p)
        ∧ t.tb.toNat = p.toNat

/-! ## Results and queued jobs at the head -/

/-- A station's result of a held job is recorded; a job whose every named station has a result then has its
result bytes formed at the present count and, unless its TAKEN write still waits, its result and DONE
writes presented in that order. The overall result of a job with no result of its own, from the results
of its named stations: the common code and subcode, else PARTIAL with no subcode; CLAMPED when any has
it; the sum of the values, at most 4,294,967,295. The 32 result bytes (Tables 12-4 and 12-6): code and
detail of each station, NONE where it has no result, the overall code and detail, the value and the
completion tick time; the detail has CLAMPED in bit 7 and the subcode or fault kind below. -/
def Obligations.ResultIsRecordedAndWrittenBack : Prop :=
  ((∀ (s : State) (n : StationNo) (h : HeldJob) (r : Res), s.jobsInv → h ∈ s.held →
     let h' : HeldJob := { h with results := h.results.set n.val (some r) }
     let bytes := resultBytes h'.results h'.overall s.tb
     let done : HeldJob := { h' with formed := some bytes }
     ((h'.complete = false ∨ h.formed ≠ none) →
       s.recordResult n h.jid r
         = { s with held := s.held.map fun x => if x.jid = h.jid then h' else x })
     ∧ (h'.complete = true → h.formed = none →
       s.recordResult n h.jid r = { s with
         held := s.held.map fun x => if x.jid = h.jid then done else x
         hmp := { s.hmp with
           jobQ := s.hmp.jobQ ++ (if h.taken = .waiting then [] else done.backWrites bytes) } }))
    ∧ (∀ (h : HeldJob) (r : StationNo → Res), h.own = none → h.mask ≠ 0 →
         (∀ n, inMask h.mask n = true → h.resultAt n = some (r n)) →
         (h.overall.clamped = true ↔ ∃ n, inMask h.mask n = true ∧ (r n).clamped = true)
         ∧ h.overall.value
             = min ((allStations.filter (inMask h.mask)).map fun n => (r n).value).sum 4294967295
         ∧ ((∃ code sub, (∀ n, inMask h.mask n = true → (r n).code = code ∧ (r n).sub = sub)
               ∧ h.overall.code = code ∧ h.overall.sub = sub)
             ∨ ((∃ m n, inMask h.mask m = true ∧ inMask h.mask n = true
                   ∧ ¬ ((r m).code = (r n).code ∧ (r m).sub = (r n).sub))
               ∧ h.overall.code = .mixed ∧ h.overall.sub = 0))))
    ∧ (∀ (per : Vector (Option Res) 8) (all : Res) (tb : Tick), all.value ≤ 4294967295 →
         all.sub < 16 → (∀ (n : StationNo) r, per[n.val] = some r → r.sub < 16) →
         let d := resultBytes per all tb
         let code (c : ResultCode) : Nat := match c with
           | .none => 0 | .ok => 1 | .badKind => 2 | .badParameter => 3 | .state => 4
           | .unavailable => 5 | .linkDown => 6 | .timeout => 7 | .boardError => 8
           | .powerFault => 9 | .abandoned => 10 | .memory => 11 | .mixed => 12
         let detail (r : Res) : Nat := (if r.clamped then 128 else 0) + r.sub
         d.length = 32
           ∧ (∀ n : StationNo,
               field d (2 * n.val) 1 = (per[n.val].map fun r => code r.code).getD 0
               ∧ field d (2 * n.val + 1) 1 = (per[n.val].map detail).getD 0)
           ∧ field d 16 1 = code all.code ∧ field d 17 1 = detail all ∧ field d 18 2 = 0
           ∧ field d 20 4 = all.value ∧ field d 24 8 = tb.toNat)

/-- A queued job that comes to the head in PARKED ends UNAVAILABLE there unless it is UNPARK; UNPARK in
READY, and PARK and UNPARK in QUIESCING, end STATE. Nothing else of the station changes. -/
def Obligations.HeadCheckRefusals : Prop :=
  ∀ (s : State) (n : StationNo) (q : QJob) (qs : List QJob) (c : Instr),
    (s.station n).head = .waiting → (s.station n).queue = q :: qs → q.job.headRow n = some c →
    ((s.station n).state = .parked → q.job ≠ .unpark →
      exec c s = .next (s.putEnd n (s.station n) s.attention q.jid (Res.ended .unavailable)))
    ∧ ((s.station n).state = .ready → q.job = .unpark →
      exec c s = .next (s.putEnd n (s.station n) s.attention q.jid (Res.ended .state)))
    ∧ ((s.station n).state = .quiescing → q.job = .park ∨ q.job = .unpark →
      exec c s = .next (s.putEnd n (s.station n) s.attention q.jid (Res.ended .state)))

/-- CONFIGURE with capture STOPPED and the sequencer DISARMED reads the 64-byte profile record as a JOB
access; otherwise it ends STATE and nothing is read. The profile record arrives for the CONFIGURE that
waits for it: refused, the job ends BAD PARAMETER with nothing changed; else every field takes its value
at once, a changed time shift makes the reference invalid with reason ENABLE, console enable turns the
receiver off or on, a changed power mode takes effect as at a SET MODE (R107), an open console line
closed with CUT where ON is left and an auto settle time of 0 deciding at once, and the job ends OK with
CLAMPED when a field was clamped. A profile record is refused exactly when its format is not 1, its
history size is none of the four, or a code field names nothing; accepted, every field has the value at
its bytes (Table 12-13), brought into its range, and CLAMPED is set exactly when some field as read did
not (Table 2-3). -/
def Obligations.ConfigureTakesProfile : Prop :=
  (∀ (s : State) (n : StationNo) (q : QJob) (addr : Word64),
     (s.station n).atHead q (.configure addr) →
     ((s.station n).cap.state = .stopped ∧ (s.station n).ts.state = .disarmed →
       exec (.configure n) s = .next
         ((s.put n { s.station n with head := .profileRead } s.attention).presentJob
           ⟨.job, some n, addr, 64, none, .profileRead q.jid n⟩))
     ∧ (¬ ((s.station n).cap.state = .stopped ∧ (s.station n).ts.state = .disarmed) →
       exec (.configure n) s
         = .next (s.putEnd n (s.station n) s.attention q.jid (Res.ended .state))))
    ∧ (∀ (s : State) (id : Nat) (d : List Byte) (n : StationNo) (q : QJob) (qs : List QJob)
         (addr : Word64), d.length = 64 →
         s.awaits id ⟨.job, some n, addr, 64, none, .profileRead q.jid n⟩ →
         (s.station n).queue = q :: qs → (s.station n).head = .profileRead →
         (s.station n).cap.state = .stopped →
         let t := s.station n
         (profileOf d = none → exec (.profileReadDone id d) s
             = .next ((s.endRead id).putEnd n t s.attention q.jid (Res.ended .badParameter)))
         ∧ ∀ p clamped, profileOf d = some (p, clamped) →
           let conf : Station := { t with
             profile := some p
             cap := if p.timeShift = t.prof.timeShift then t.cap
               else { t.cap with ref := { t.cap.ref with valid := false, reason := .enable } }
             cu := if t.prof.consoleEnable = true ∧ p.consoleEnable = false then
                 { t.cu with
                   rx := .off, line := [], idle := if t.cu.line = [] then t.cu.idle else none }
               else if t.prof.consoleEnable = false ∧ p.consoleEnable = true then
                 { t.cu with rx := .idle }
               else t.cu }
           (p.powerMode = t.prof.powerMode → exec (.profileReadDone id d) s
             = .next ((s.endRead id).putEnd n conf s.attention q.jid ⟨.ok, clamped, 0, 0⟩))
           ∧ (p.powerMode ≠ t.prof.powerMode →
             exec (.profileReadDone id d) s
               = .next (((s.endRead id).putMode n conf t.prof.powerMode p.powerMode).endAt n q.jid
                   ⟨.ok, clamped, 0, 0⟩)))
    ∧ (∀ d : List Byte,
         let f := field d
         (profileOf d = none ↔ f 0 1 ≠ 1 ∨ f 2 2 ∉ [0, 2048, 4096, 8192] ∨ 1 < f 7 1 ∨ 1 < f 13 1
           ∨ 2 < f 22 1)
         ∧ ∀ p clamped, profileOf d = some (p, clamped) →
           p.timeShift = min 8 (f 1 1) ∧ p.historySize = f 2 2
           ∧ p.channelMask = byteAt d 6 ∧ (p.accessLogging = true ↔ f 7 1 = 1)
           ∧ (p.consoleEnable = true ↔ f 13 1 = 1) ∧ p.classMask = byteAt d 23
           ∧ f 22 1 = (match p.powerMode with | .off => 0 | .manual => 1 | .auto => 2)
           ∧ p.flushMs = max 1 (min 10000 (f 4 2)) ∧ p.payloadLimit = max 16 (min 1024 (f 8 2))
           ∧ p.responseTimeout = max 1 (min 65535 (f 10 2)) ∧ p.requestWords = max 1 (min 64 (f 12 1))
           ∧ p.healthMs = max 1 (min 1000 (f 16 2)) ∧ p.divisor = max 20 (min 65535 (f 20 2))
           ∧ p.lineLimit = max 16 (min 512 (f 14 2)) ∧ p.idleCloseMs = max 1 (min 1000 (f 18 2))
           ∧ p.autoSettleMs = min 10000 (f 24 2) ∧ p.rampMs = max 1 (min 2000 (f 26 2))
           ∧ p.inrushMs = min 100 (f 28 1) ∧ p.overloadUs = max 10 (min 65535 (f 30 2))
           ∧ p.cooldownMs = max 100 (min 60000 (f 32 2)) ∧ p.retryLimit = min 7 (f 29 1)
           ∧ p.resetDelayMs = min 10000 (f 34 2)
           ∧ (clamped = true ↔ 8 < f 1 1 ∨ f 4 2 = 0 ∨ 10000 < f 4 2 ∨ f 8 2 < 16 ∨ 1024 < f 8 2
               ∨ f 10 2 = 0 ∨ f 12 1 = 0 ∨ 64 < f 12 1 ∨ f 16 2 = 0 ∨ 1000 < f 16 2 ∨ f 20 2 < 20
               ∨ f 14 2 < 16 ∨ 512 < f 14 2 ∨ f 18 2 = 0 ∨ 1000 < f 18 2 ∨ 10000 < f 24 2
               ∨ f 26 2 = 0 ∨ 2000 < f 26 2 ∨ 100 < f 28 1 ∨ f 30 2 < 10 ∨ f 32 2 < 100
               ∨ 60000 < f 32 2 ∨ 7 < f 29 1 ∨ 10000 < f 34 2))

/-- PARK waits while an entry is outstanding or the holder occupied. Then, in READY with capture STOPPED,
DISARMED and ABSENT or SEATED, the power state becomes INACTIVE, both receivers are off, an UP link goes
DOWN, and the station is PARKED, OK; otherwise it ends STATE with no effect. UNPARK in PARKED turns both
receivers on and starts a wake interval of 1 ms; at its end the quiet timer restarts, a settled PRESENT
seats the board, reported to the sequencer, ARMED or not, and the station is READY, OK. In mode AUTO the
seating starts the auto settle timer, which with a time of 0 decides at once (R102), PWR_GOOD low or
already asserted (R101). The end of PARK's wait at a link loss, a response or a timeout is stated with
those (log 27). -/
def Obligations.ParkAndUnpark : Prop :=
  ((∀ (s : State) (n : StationNo) (q : QJob), (s.station n).atHead q .park →
     (s.station n).state = .ready →
     let t := s.station n
     let busy : Prop := t.au.entries ≠ [] ∨ t.au.holder = true
     let may : Prop := t.cap.state = .stopped ∧ t.ts.state = .disarmed
       ∧ (t.bpu.state = .absent ∨ t.bpu.state = .seated)
     (busy → exec (.park n) s = .next (s.put n { t with head := .parkWait } s.attention))
     ∧ (¬ busy → ¬ may →
       exec (.park n) s = .next (s.putEnd n t s.attention q.jid (Res.ended .state)))
     ∧ (¬ busy → may → ∃ u : Station, exec (.park n) s = .next (s.putEnd n u
           (if t.lp.up then s.attention ||| Attn.linkChange.mask else s.attention) q.jid (Res.okv 0))
         ∧ u = { t with
             state := .parked, head := u.head, lp := u.lp, au := u.au, cu := u.cu, bpu := u.bpu }
         ∧ u.bpu.state = .inactive ∧ u.bpu.cls = t.bpu.cls ∧ u.bpu.hold = t.bpu.hold
         ∧ u.bpu.held = none ∧ u.bpu.autoSettle = none
         ∧ u.lp.rxOn = false ∧ u.lp.up = false ∧ u.lp.packet = none ∧ u.lp.quiet = none
         ∧ u.cu.rx = .off ∧ u.cu.line = []
         ∧ u.au = if t.lp.up then { t.au with retired := [], boardRun := .unknown } else t.au))
    ∧ ((∀ (s : State) (n : StationNo) (q : QJob) (qs : List QJob), (s.station n).state = .parked →
           (s.station n).head = .waiting → (s.station n).queue = q :: qs → q.job = .unpark →
           exec (.unpark n) s = .next (s.put n
             { s.station n with
               head := .wakeInterval (s.elapsed + 100000)
               lp := { (s.station n).lp with rxOn := true, packet := none }
               cu := if (s.station n).prof.consoleEnable then { (s.station n).cu with rx := .idle }
                 else (s.station n).cu } s.attention))
         ∧ ∀ (s : State) (n : StationNo) (q : QJob) (qs : List QJob) (d : Nat),
           (s.station n).head = .wakeInterval d → d ≤ s.elapsed → (s.station n).queue = q :: qs →
           (s.station n).unarmed → (s.station n).prof.autoSettleMs ≠ 0 →
           let t := s.station n
           let pin := s.connector (s.connectorOf n)
           let lp : LinkPort := { t.lp with quiet := some (s.elapsed + t.prof.healthMs * 100000) }
           let b : PowerUnit := { t.bpu with state := .seated, cls := pin.straps }
           (pin.settled = false → exec (.wakeIntervalEnd n) s = .next (s.putEnd n
             { t with state := .ready, lp := lp, bpu := { t.bpu with state := .absent } }
             s.attention q.jid (Res.okv 0)))
           ∧ (pin.settled = true → ∃ u : Station, exec (.wakeIntervalEnd n) s = .next (s.putEnd n u
               (s.attention ||| ({ t with lp := lp, bpu := b }.offer s.tb (s.powerRec .seated b)).bits)
               q.jid (Res.okv 0))
             ∧ u = { { t with lp := lp, bpu := b }.take
                   ({ t with lp := lp, bpu := b }.offer s.tb (s.powerRec .seated b)) with
                 state := .ready
                 bpu := if t.prof.powerMode = .auto then
                   { b with autoSettle := some (s.elapsed + t.prof.autoSettleMs * 100000) } else b })))
    ∧ (∀ (s : State) (n : StationNo) (q : QJob) (qs : List QJob) (d : Nat),
         (s.station n).head = .wakeInterval d → d ≤ s.elapsed → (s.station n).queue = q :: qs →
         (s.connector (s.connectorOf n)).settled = true →
         let t := s.station n
         let seated := s.putPower n { t with
           lp := { t.lp with quiet := some (s.elapsed + t.prof.healthMs * 100000) }
           bpu := { t.bpu with
             state := .seated, cls := (s.connector (s.connectorOf n)).straps } } .seated
         let woken (w : State) : State :=
           w.putEnd n { w.station n with state := .ready } w.attention q.jid (Res.okv 0)
         (t.prof.powerMode ≠ .auto → exec (.wakeIntervalEnd n) s = .next (woken seated))
         ∧ (t.prof.powerMode = .auto → exec (.wakeIntervalEnd n) s
           = .next (woken (seated.putSettle n (seated.station n)))))

/-- QUIESCE at the head: capture STOPPED with the history cleared and no seal request, DISARMED with the
drives ended, the power state INACTIVE, both receivers off, an UP link DOWN with its entries gone. With
something staged or a page open it then waits in its drain; with neither, the device draining, the
station is OFF and the job ends OK with value 0. That it waits, with nothing staged and no page open,
while the device is not RUNNING or a halt is under way is the model's choice (log 34, DEDUCED). The
drain's end: at the issue of the FULL write of the page sealed QUIESCE the station is OFF and the job
ends OK with that page's serial; at that of a page sealed for another reason it is OFF with value 0 when
nothing is staged, and else the drain goes on. That the first lost unit time of an empty pending loss is
0 is the model's choice (log 54, DESIGN CHOICE). -/
def Obligations.QuiesceCutsThenDrains : Prop :=
  (∀ (s : State) (n : StationNo) (q : QJob), (s.station n).atHead q .quiesce →
    let t := s.station n
    let a := if t.lp.up then s.attention ||| Attn.linkChange.mask else s.attention
    let waits : Prop := t.cap.staging ≠ [] ∨ t.pg.page ≠ none ∨ s.runState ≠ .running
      ∨ s.halting = true
    let cut (u : Station) : Prop :=
      u.cap.history = [] ∧ u.cap.state = .stopped ∧ u.cap.staging = t.cap.staging
      ∧ u.ts = ⟨.disarmed, none, Vector.replicate 4 none⟩
      ∧ u.bpu.state = .inactive ∧ u.bpu.held = none ∧ u.lp.rxOn = false ∧ u.lp.up = false
      ∧ (t.lp.up = true → u.au.entries = [] ∧ u.au.retired = [] ∧ u.au.holder = false)
      ∧ u.cu.rx = .off ∧ u.cu.line = [] ∧ u.pg.page = t.pg.page
    (waits → ∃ u, exec (.quiesce n) s = .next (s.put n u a) ∧ cut u ∧ u.head = .quiesceDrain
      ∧ u.queue = t.queue ∧ u.state = t.state ∧ u.pg = t.pg ∧ u.pageQ = t.pageQ
      ∧ u.cap.ref = t.cap.ref ∧ u.cap.seq = t.cap.seq ∧ u.cap.loss = t.cap.loss)
    ∧ (¬ waits → ∃ u, exec (.quiesce n) s = .next (s.putEnd n u a q.jid (Res.okv 0)) ∧ cut u
      ∧ u.state = .off ∧ u.profile = none ∧ u.cap.seq = 0 ∧ u.cap.loss = false))
    ∧ (∀ (s : State) (n : StationNo) (q : QJob) (qs : List QJob) (addr : Word64) (d : List Byte)
         (p : OpenPage), let a := Access.writeOf .page (some n) addr d (.sealFull false)
         s.runState = .running → s.halting = false → s.resuming = false → s.nextGrant = some a →
         (s.station n).queue = q :: qs → (s.station n).head = .quiesceDrain →
         (s.station n).pg.page = some p →
         let t := s.station n
         let g : State := { s.dequeue a with
           hmp := ((s.dequeue a).hmp.granted a).issue a s.elapsed }
         let att := s.attention ||| Attn.pageSealed.mask
         let u : Station := { t with
           pageQ := t.pageQ.erase a
           pg := { t.pg with
             page := none, sealing := none, inHand := none
             mark := t.pg.mark.filter fun m => m.count != 0 } }
         let off : Station := { u with
           state := .off, profile := none
           cap := { t.cap with
             state := .stopped, history := [], staging := [], loss := false, pend := ⟨0, 0, 0⟩
             seq := 0, ref := { t.cap.ref with valid := false, reason := .enable } }
           pg := { u.pg with mark := none, starved := false, episode := false } }
         (t.pg.sealing = some .quiesce →
           exec .accessGrant s = .next (g.putEnd n off att q.jid (Res.okv p.serial)))
         ∧ (t.pg.sealing ≠ some .quiesce → t.cap.staging = [] →
           exec .accessGrant s = .next (g.putEnd n off att q.jid (Res.okv 0)))
         ∧ (t.pg.sealing ≠ some .quiesce → t.cap.staging ≠ [] →
           exec .accessGrant s = .next (g.put n u att)))

/-- An access job that comes to the head with the link DOWN ends LINK DOWN with no request issued. READ,
WRITE INLINE, BOARD CONTROL and PING with the link UP, an entry free and the holder empty issue their
one request: it takes the first free tag from the next-tag counter on, occupies an entry with its
timeout running, and joins the transmit list at its end. With no entry free the request waits. The tag
AU assigns is the first, from the next-tag counter onward modulo 64, that is neither outstanding nor
retired (R66). -/
def Obligations.AccessJobIssuesItsRequest : Prop :=
  (∀ (s : State) (n : StationNo) (q : QJob) (c : Instr), (s.station n).atHead q q.job →
     q.job.isAccess = true → q.job.headRow n = some c → (s.station n).lp.up = false →
     exec c s = .next (s.putEnd n (s.station n) s.attention q.jid (Res.ended .linkDown)))
    ∧ (∀ (s : State) (n : StationNo) (q : QJob) (c : Instr) (r : ReqSpec),
         (s.station n).atHead q q.job → q.job.headRow n = some c → q.job.onlyRequest = some r →
         (s.station n).lp.up = true →
         let t := s.station n
         let tag := t.au.pickTag
         (t.au.entries.length < 4 → t.au.holder = false →
           exec c s = .next (s.put n
             { t with
               head := .access ⟨[], 1, none, [], 0⟩
               au := { t.au with
                 entries := t.au.entries
                   ++ [r.entry tag s.elapsed t.prof.responseTimeout (.job q.jid q.hostRef)]
                 nextTag := tagAt tag.val 1 }
               lp := t.lp.enqueue ⟨tag, r⟩ false } s.attention))
         ∧ (4 ≤ t.au.entries.length → exec c s
             = .next (s.put n { t with head := .access ⟨[r], 0, none, [], 0⟩ } s.attention)))
    ∧ (∀ a : AccessUnit, a.bounded →
         ∃ k < 64, a.pickTag = tagAt a.nextTag.val k ∧ a.tagBusy a.pickTag = false
           ∧ ∀ i < k, a.tagBusy (tagAt a.nextTag.val i) = true)

/-- The requests of a BLOCK READ of W words, r words each: ceil(W / r) READs in ascending offset, each of
min(r, W - i r) words at address plus 4 i r. At the head, with the link UP and the holder empty, as many
are issued in that order as there are free entries, each under the tag R66 gives in the table as it then
is, moving the next-tag counter on and joining the transmit list at its end. WRITE from a buffer with
the link UP first reads its words as one JOB access; when they arrive the one WRITE request carrying
them is issued, or with the link DOWN the job ends LINK DOWN. The addresses of the requests are sums
modulo 2^64 for every address, the spec giving no refusal where one passes 2^64 - 1 (log 47, DESIGN
CHOICE: the model's choice). -/
def Obligations.BlockAndBufferJobsIssueRequests : Prop :=
  ((∀ (addr : Word64) (r w : Nat), 0 < r →
       (blockRequests addr r w).length = (w + r - 1) / r
       ∧ ∀ (i : Nat) (x : ReqSpec), (blockRequests addr r w)[i]? = some x →
         x = ⟨.read, addr + BitVec.ofNat 64 (4 * (i * r)), [], min r (w - i * r), i * r⟩)
     ∧ ∀ (s : State) (n : StationNo) (q : QJob) (addr buf : Word64) (w : Nat),
       (s.station n).atHead q (.blockRead addr w buf) → (s.station n).lp.up = true →
       (s.station n).au.holder = false → (s.station n).au.entries.length ≤ 4 → 0 < w →
       0 < (s.station n).prof.requestWords →
       let t := s.station n
       let reqs := blockRequests addr t.prof.requestWords w
       let k := min (4 - t.au.entries.length) reqs.length
       ∃ u, exec (.blockRead n) s = .next (s.put n u s.attention)
         ∧ u = { t with head := u.head, au := u.au, lp := u.lp }
         ∧ u.head = .access ⟨reqs.drop k, k, none, [], 0⟩
         ∧ u = { t.issued s.elapsed (.job q.jid q.hostRef) (reqs.take k) with head := u.head }
         ∧ u.au.retired = t.au.retired ∧ u.au.entries.take t.au.entries.length = t.au.entries
         ∧ (u.au.entries.drop t.au.entries.length).map
             (fun x => (x.op, x.addr, x.count, x.offset, x.issuedAt))
           = (reqs.take k).map fun r => (AccessOp.read, r.addr, r.count, r.offset, s.elapsed))
    ∧ ((∀ (s : State) (n : StationNo) (q : QJob) (addr buf : Word64) (k : Nat),
           (s.station n).atHead q (.writeBuffer addr k buf) → (s.station n).lp.up = true →
           exec (.writeBuffer n) s = .next
             ((s.put n { s.station n with head := .writeDataRead } s.attention).presentJob
               ⟨.job, some n, buf, 4 * k, none, .writeData q.jid n⟩))
         ∧ ∀ (s : State) (id : Nat) (d : List Byte) (n : StationNo) (q : QJob) (qs : List QJob)
           (addr buf : Word64) (k : Nat), d.length = 4 * k →
           s.awaits id ⟨.job, some n, buf, 4 * k, none, .writeData q.jid n⟩ →
           (s.station n).queue = q :: qs → q.job = .writeBuffer addr k buf →
           (s.station n).head = .writeDataRead →
           let t := s.station n
           let r : ReqSpec := ⟨.write, addr, wordsOf d k, k, 0⟩
           let tag := t.au.pickTag
           (t.lp.up = true → t.au.entries.length < 4 → t.au.holder = false →
             exec (.writeDataReadDone id d) s = .next ((s.endRead id).put n
               { t with
                 head := .access ⟨[], 1, none, [], 0⟩
                 au := { t.au with
                   entries := t.au.entries
                     ++ [r.entry tag s.elapsed t.prof.responseTimeout (.job q.jid q.hostRef)]
                   nextTag := tagAt tag.val 1 }
                 lp := t.lp.enqueue ⟨tag, r⟩ false } s.attention))
           ∧ (t.lp.up = false → exec (.writeDataReadDone id d) s
               = .next ((s.endRead id).putEnd n t s.attention q.jid (Res.ended .linkDown))))

/-- ARM ends STATE when the sequencer is ARMED; else the 320-byte program record is read as two JOB
accesses, of 256 and 64 bytes. When both have arrived a refused program ends the job BAD PARAMETER with
nothing changed; a good one replaces the program and the patterns, the sequencer is ARMED in step 0 with
its timer started, and the job ends OK with the step count. A program that is accepted has 1 to 4 steps
and at most 4 patterns of 1 to 16 positions, every step a count above 0, no ELAPSED step without a
timeout, every target DONE or a present step, TRIGGER RECORD in the timeout actions of each step with a
timeout and another kind, and widths above 0 (R116, R117). A program record is refused exactly for a
format other than 1, a step count outside 1 to 4, a pattern count above 4, a pattern length outside 1 to
16, a step count field of 0, a target that is neither DONE nor a present step, a condition kind not of
Table 7-5 or a parameter outside it, or an ELAPSED step without a timeout (R116). An accepted one has
the widths, marker, patterns and steps its bytes hold (Tables 7-2, 7-3, 7-5, 12-14). The model's choice,
not the spec's words: that there are two reads, R115 speaking of one access and R160 allowing at most
256 bytes (log 9, DEDUCED), and that the second one's address is a sum modulo 2^64 for every address
(log 47, DESIGN CHOICE). -/
def Obligations.ArmLoadsProgram : Prop :=
  (((∀ (s : State) (n : StationNo) (q : QJob) (addr : Word64), (s.station n).atHead q (.arm addr) →
       ((s.station n).ts.state.code = 1 → exec (.arm n) s
         = .next (s.putEnd n (s.station n) s.attention q.jid (Res.ended .state)))
       ∧ ((s.station n).ts.state.code ≠ 1 → exec (.arm n) s
         = .next (((s.put n { s.station n with head := .programRead none none }
             s.attention).presentJob ⟨.job, some n, addr, 256, none, .programRead q.jid n 0⟩).presentJob
             ⟨.job, some n, addr + 256, 64, none, .programRead q.jid n 1⟩)))
     ∧ ∀ (s : State) (id : Nat) (n : StationNo) (q : QJob) (qs : List QJob) (addr : Word64)
       (x y : List Byte), x.length = 256 → y.length = 64 → (s.station n).queue = q :: qs →
       let t := s.station n
       (s.awaits id ⟨.job, some n, addr, 256, none, .programRead q.jid n 0⟩ →
         t.head = .programRead none none → exec (.programReadDone id x) s
           = .next ((s.endRead id).put n { t with head := .programRead (some x) none } s.attention))
       ∧ (s.awaits id ⟨.job, some n, addr, 64, none, .programRead q.jid n 1⟩ →
         t.head = .programRead (some x) none →
         (programOf (x ++ y) = none → exec (.programReadDone id y) s
           = .next ((s.endRead id).putEnd n t s.attention q.jid (Res.ended .badParameter)))
         ∧ ∀ p clamped, programOf (x ++ y) = some (p, clamped) →
           exec (.programReadDone id y) s = .next ((s.endRead id).putEnd n
             { t with
               ts := { t.ts with program := some p, state := .armed 0 0 (stepTimer p 0 s.elapsed) }
               cu := { t.cu with patterns := p.patterns } }
             s.attention q.jid ⟨.ok, clamped, 0, p.steps.length⟩)))
    ∧ (∀ (d : List Byte) (p : Program) (clamped : Bool), programOf d = some (p, clamped) →
         field d 0 1 = 1 ∧ 1 ≤ p.steps.length ∧ p.steps.length ≤ 4 ∧ p.patterns.length ≤ 4
           ∧ (∀ x ∈ p.patterns, 1 ≤ x.length ∧ x.length ≤ 16)
           ∧ 0 < p.pulseWidth ∧ 0 < p.driveUs
           ∧ (clamped = true ↔ field d 6 2 = 0 ∨ field d 8 2 = 0)
           ∧ ∀ x ∈ p.steps, 0 < x.count ∧ (x.cond = .elapsed → 0 < x.timeoutMs)
             ∧ (∀ i, x.next = .step i → i.val < p.steps.length)
             ∧ (∀ i, x.timeoutMs ≠ 0 → x.timeoutNext = .step i → i.val < p.steps.length)
             ∧ (x.timeoutMs ≠ 0 → x.cond ≠ .elapsed → hasAct x.timeoutActs 1 = true)))
    ∧ (∀ d : List Byte,
         let steps := field d 1 1
         let pats := field d 2 1
         let g (i off len : Nat) : Nat := field d (192 + 32 * i + off) len
         let target (b : Nat) : Prop := b = 255 ∨ b < steps
         let badPattern (p : Nat) : Prop := field d (32 + 40 * p) 1 = 0 ∨ 16 < field d (32 + 40 * p) 1
         let badStep (i : Nat) : Prop := g i 1 1 = 0 ∨ ¬ target (g i 2 1)
           ∨ (g i 8 2 ≠ 0 ∧ ¬ target (g i 3 1)) ∨ g i 0 1 = 0 ∨ 8 < g i 0 1
           ∨ (g i 0 1 = 1 ∧ g i 16 4 < g i 12 4) ∨ (g i 0 1 = 2 ∧ pats ≤ g i 12 1)
           ∨ (g i 0 1 = 3 ∧ 7 < g i 12 1) ∨ (g i 0 1 = 5 ∧ (g i 12 1 = 0 ∨ 11 < g i 12 1))
           ∨ (g i 0 1 = 6 ∧ 3 < g i 12 1) ∨ (g i 0 1 = 8 ∧ g i 8 2 = 0)
         let evCode (ev : PowerEv) : Nat := match ev with
           | .seated => 1 | .rampStart => 2 | .powerGood => 3 | .resetReleased => 4
           | .resetAsserted => 5 | .off => 6 | .removed => 7 | .faultLatched => 8 | .rampFault => 9
           | .overloadFault => 10 | .powerLostFault => 11
         (programOf d = none ↔ field d 0 1 ≠ 1 ∨ steps = 0 ∨ 4 < steps ∨ 4 < pats
             ∨ (∃ p < pats, badPattern p) ∨ ∃ i < steps, badStep i)
         ∧ ∀ p clamped, programOf d = some (p, clamped) →
           p.postCount = field d 4 2 ∧ p.pulseWidth = max 1 (field d 6 2)
             ∧ p.driveUs = max 1 (field d 8 2) ∧ p.marker.toNat = field d 12 4
             ∧ p.patterns.length = pats ∧ p.steps.length = steps
             ∧ (∀ k x, p.patterns[k]? = some x → x.length = field d (32 + 40 * k) 1
               ∧ ∀ j y, x[j]? = some y → y.value.toNat = field d (32 + 40 * k + 8 + j) 1
                 ∧ y.care.toNat = field d (32 + 40 * k + 24 + j) 1)
             ∧ ∀ i x, p.steps[i]? = some x →
               x.count = g i 1 1 ∧ x.timeoutMs = g i 8 2 ∧ x.line.val = g i 6 1 % 4
               ∧ x.matchActs.toNat = g i 4 1
               ∧ x.timeoutActs = BitVec.ofNat 8 (g i 5 1)
                   ||| (if g i 8 2 ≠ 0 ∧ g i 0 1 ≠ 8 then 2 else 0)
               ∧ (match x.next with | .done => g i 2 1 = 255 | .step j => g i 2 1 = j.val)
               ∧ (g i 8 2 ≠ 0 →
                 match x.timeoutNext with | .done => g i 3 1 = 255 | .step j => g i 3 1 = j.val)
               ∧ (match x.cond with
                 | .progress lo hi => g i 0 1 = 1 ∧ lo = g i 12 4 ∧ hi = g i 16 4
                 | .pattern q => g i 0 1 = 2 ∧ q = g i 12 1
                 | .trace ch value mask =>
                   g i 0 1 = 3 ∧ ch = g i 12 1 ∧ value.toNat = g i 13 1 ∧ mask.toNat = g i 14 1
                 | .notice code => g i 0 1 = 4 ∧ code.toNat = g i 12 1
                 | .power ev => g i 0 1 = 5 ∧ evCode ev = g i 12 1
                 | .benchLine l => g i 0 1 = 6 ∧ l = g i 12 1
                 | .accessError => g i 0 1 = 7
                 | .elapsed => g i 0 1 = 8))

/-- CAPTURE START in STOPPED: IMMEDIATE enters RECORDING with the reference invalid, reason ENTER
RECORDING; TRIGGERED enters WATCHING with an empty window of the profile's history size. Both end OK; in
any other capture state both end STATE. Loss state and staging stay. -/
def Obligations.CaptureStartNeedsStopped : Prop :=
  (∀ (s : State) (n : StationNo) (q : QJob), (s.station n).atHead q .captureStartImmediate →
      let t := s.station n
      (t.cap.state ≠ .stopped → exec (.captureStartImmediate n) s
        = .next (s.putEnd n t s.attention q.jid (Res.ended .state)))
      ∧ (t.cap.state = .stopped → exec (.captureStartImmediate n) s
        = .next (s.putEnd n { t with cap := { t.cap with
            state := .recording
            ref := { t.cap.ref with valid := false, reason := .enterRecording } } }
          s.attention q.jid (Res.okv 0))))
    ∧ ∀ (s : State) (n : StationNo) (q : QJob), (s.station n).atHead q .captureStartTriggered →
      let t := s.station n
      (t.cap.state ≠ .stopped → exec (.captureStartTriggered n) s
        = .next (s.putEnd n t s.attention q.jid (Res.ended .state)))
      ∧ (t.cap.state = .stopped → exec (.captureStartTriggered n) s
        = .next (s.putEnd n { t with cap := { t.cap with
            state := .watching, history := [], historySize := t.prof.historySize } }
          s.attention q.jid (Res.okv 0)))

/-- POWER ON in SEATED with mode not OFF: latched fault and retry count cleared, RAMPING entered with its
timers started and the held code none, RAMP START offered, the job at the head; with PWR_GOOD already
asserted POWER GOOD follows at once, the station ON, the job ended OK with value 0 (R101, R103, R111),
and a reset delay of 0 expires at once (R108). Each event is reported to the sequencer, ARMED or not
(R98). Anywhere else, or in mode OFF, it ends STATE with no effect. POWER OFF in RAMPING: SEATED with
the powered timers cancelled, the OFF event offered, OK with value 1; in ON likewise, an open console
line closed with CUT after the event's report (R98); in every other power state OK with value 0 and no
effect. SET MODE with the mode in force does nothing, value 0. A changed mode is put in force with the
latched fault NONE and the retry count 0, value 1: a station powered (to OFF) or in COOLDOWN (to OFF, or
away from AUTO) becomes SEATED with the OFF event, to AUTO a SEATED one starts its auto settle timer, a
time of 0 deciding at once, away from AUTO a SEATED one stops it. -/
def Obligations.PowerJobsSwitchPower : Prop :=
  (∀ (s : State) (n : StationNo) (q : QJob), (s.station n).atHead q .powerOn →
     let t := s.station n
     let pin := s.connector (s.connectorOf n)
     let ok : Prop := t.bpu.state = .seated ∧ t.prof.powerMode ≠ .off
     (¬ ok → exec (.powerOn n) s = .next (s.putEnd n t s.attention q.jid (Res.ended .state)))
     ∧ (ok → pin.pwrGood = false →
       let b := ({ t.bpu with latched := .none, retry := 0 }).ramped t.prof pin s.elapsed
       exec (.powerOn n) s
         = .next (s.putPower n { t with head := .ramp s.elapsed, bpu := b } .rampStart))
     ∧ (ok → exec (.powerOn n) s = .next (s.putRamp n { t with
         head := .ramp s.elapsed, bpu := { t.bpu with latched := .none, retry := 0 } }))
     ∧ (ok → pin.pwrGood = true → t.prof.resetDelayMs ≠ 0 →
       let b := ({ t.bpu with latched := .none, retry := 0 }).ramped t.prof pin s.elapsed
       let ramping := s.putPower n { t with head := .ramp s.elapsed, bpu := b } .rampStart
       let good := ramping.putPower n { ramping.station n with bpu := { b with
         state := .on, ramp := none, retry := 0, ctl := .delay
         delay := some (s.elapsed + t.prof.resetDelayMs * 100000) } } .powerGood
       exec (.powerOn n) s = .next (good.endAt n q.jid (Res.okv 0))))
    ∧ (∀ (s : State) (n : StationNo) (q : QJob), (s.station n).atHead q .powerOff →
         let t := s.station n
         let b := t.bpu.off
         (t.bpu.state ≠ .ramping → t.bpu.state ≠ .on → exec (.powerOff n) s
           = .next (s.putEnd n t s.attention q.jid (Res.okv 0)))
         ∧ (t.bpu.state = .ramping ∨ (t.bpu.state = .on ∧ t.cu.line = []) → exec (.powerOff n) s
           = .next ((s.putPower n { t with bpu := b } .off).endAt n q.jid (Res.okv 1)))
         ∧ (t.bpu.state = .on → exec (.powerOff n) s
           = .next (((s.putPower n { t with bpu := b } .off).putLeft n .none).endAt n q.jid
               (Res.okv 1)))
         ∧ (t.unarmed → t.bpu.state = .on → ∃ u a, exec (.powerOff n) s = .next (s.putEnd n u a q.jid (Res.okv 1))
           ∧ u.bpu = b ∧ u.cu.line = [] ∧ u.queue = t.queue ∧ u.state = t.state ∧ u.lp = t.lp
           ∧ u.au = t.au ∧ u.ts = t.ts ∧ u.profile = t.profile ∧ u.pageQ = t.pageQ))
    ∧ (∀ (s : State) (n : StationNo) (q : QJob) (m : PowerMode) (p : Profile),
         (s.station n).atHead q (.setMode m) → (s.station n).profile = some p →
         let t := s.station n
         let t' : Station := { t with profile := some { p with powerMode := m } }
         let b : PowerUnit := { t.bpu with latched := .none, retry := 0 }
         let off := b.off
         (p.powerMode = m → exec (.setMode n) s
           = .next (s.putEnd n t s.attention q.jid (Res.okv 0)))
         ∧ (p.powerMode ≠ m →
             (m = .off ∧ (t.bpu.state = .ramping ∨ (t.bpu.state = .on ∧ t.cu.line = [])))
               ∨ (m ≠ .auto ∧ (p.powerMode = .auto ∨ m = .off) ∧ t.bpu.state = .cooldown) →
           exec (.setMode n) s
             = .next ((s.putPower n { t' with bpu := off } .off).endAt n q.jid (Res.okv 1)))
         ∧ (p.powerMode ≠ m → m = .off → t.bpu.state = .on → exec (.setMode n) s
             = .next (((s.putPower n { t' with bpu := off } .off).putLeft n .none).endAt n q.jid
                 (Res.okv 1)))
         ∧ (p.powerMode ≠ m → m ≠ .auto → p.powerMode = .auto ∨ m = .off → t.bpu.state = .seated →
           exec (.setMode n) s = .next (s.putEnd n { t' with bpu := { b with autoSettle := none } }
             s.attention q.jid (Res.okv 1)))
         ∧ (p.powerMode ≠ m → m ≠ .auto →
             t.bpu.state = .absent ∨ t.bpu.state = .inactive
               ∨ (m = .manual ∧ (t.bpu.state = .ramping ∨ t.bpu.state = .on)) →
           exec (.setMode n) s
             = .next (s.putEnd n { t' with bpu := b } s.attention q.jid (Res.okv 1)))
         ∧ (p.powerMode ≠ .auto → m = .auto → t.bpu.state = .seated → p.autoSettleMs ≠ 0 →
           exec (.setMode n) s = .next (s.putEnd n
             { t' with bpu := { b with autoSettle := some (s.elapsed + p.autoSettleMs * 100000) } }
             s.attention q.jid (Res.okv 1)))
         ∧ (p.powerMode ≠ .auto → m = .auto → t.bpu.state = .seated → p.autoSettleMs = 0 →
           let allowed : Prop := p.classMask.getLsbD t.bpu.cls.toNat = true
           (allowed → exec (.setMode n) s
             = .next ((s.putRamp n { t' with bpu := b }).endAt n q.jid (Res.okv 1)))
           ∧ (¬ allowed → exec (.setMode n) s
             = .next (s.putEnd n { t' with bpu := { b with autoSettle := none } }
                 s.attention q.jid (Res.okv 1))))
         ∧ (p.powerMode ≠ .auto → m = .auto → t.bpu.state ≠ .seated → exec (.setMode n) s
             = .next (s.putEnd n { t' with bpu := b } s.attention q.jid (Res.okv 1)))
         ∧ (p.powerMode = .off → m = .manual → exec (.setMode n) s
             = .next (s.putEnd n { t' with bpu := b } s.attention q.jid (Res.okv 1))))

/-- RESET PULSE in ON with the controller RELEASED asserts BOARD_RESET for its width, at least 1, the held
code none, RESET ASSERTED offered and then reported, the job at the head until the pulse ends; otherwise
it ends STATE. RESET HOLD sets the hold flag in every power state; in ON with the controller RELEASED it
asserts BOARD_RESET, value 1, else value 0. RESET RELEASE clears it; in ON with the controller HELD it
releases BOARD_RESET, value 1, else value 0. Each event is reported to the sequencer, ARMED or not
(R98). -/
def Obligations.ResetJobsDriveBoardReset : Prop :=
  (∀ (s : State) (n : StationNo) (q : QJob) (w : Nat), (s.station n).atHead q (.resetPulse w) →
     let t := s.station n
     (¬ (t.bpu.state = .on ∧ t.bpu.ctl = .released) → exec (.resetPulse n) s
       = .next (s.putEnd n t s.attention q.jid (Res.ended .state)))
     ∧ (t.bpu.state = .on → t.bpu.ctl = .released →
       let b : PowerUnit := { t.bpu with
         ctl := .pulse, pulse := some (s.elapsed + max 1 w * 10000), held := none }
       let u : Station := { t with head := .pulse (max 1 w) (decide (w = 0)), bpu := b }
       let o := u.offer s.tb (s.powerRec .resetAsserted b)
       exec (.resetPulse n) s
         = .next (s.putReport n (u.take o) (s.attention ||| o.bits) (.power .resetAsserted))))
    ∧ ((∀ (s : State) (n : StationNo) (q : QJob), (s.station n).atHead q .resetHold →
           let t := s.station n
           let b : PowerUnit := { t.bpu with hold := true, ctl := .held, held := none }
           (t.bpu.released = true → exec (.resetHold n) s
             = .next ((s.putPower n { t with bpu := b } .resetAsserted).endAt n q.jid (Res.okv 1)))
           ∧ (t.bpu.released = false → exec (.resetHold n) s = .next (s.putEnd n
             { t with bpu := { t.bpu with hold := true } } s.attention q.jid (Res.okv 0))))
         ∧ ∀ (s : State) (n : StationNo) (q : QJob), (s.station n).atHead q .resetRelease →
           let t := s.station n
           let b : PowerUnit := { t.bpu with hold := false, ctl := .released }
           (t.bpu.state = .on ∧ t.bpu.ctl = .held → exec (.resetRelease n) s
             = .next ((s.putPower n { t with bpu := b } .resetReleased).endAt n q.jid (Res.okv 1)))
           ∧ (¬ (t.bpu.state = .on ∧ t.bpu.ctl = .held) → exec (.resetRelease n) s = .next (s.putEnd n
             { t with bpu := { t.bpu with hold := false } } s.attention q.jid (Res.okv 0))))

/-! ## The board debug link and the access unit -/

/-- What arrives on a connector's link reaches the station the connector serves. SIGNAL ACQUIRED with the
receiver on and the link DOWN makes it UP and sets LINK CHANGE; otherwise nothing happens (a report out
of turn: log 1, DEDUCED). SIGNAL LOST with the link UP makes it DOWN: a packet in progress is discarded
with FRAMING, the transmit list emptied and a packet in transmission cut off, every entry, retired tag
and the holder gone, the board run state UNKNOWN, LINK CHANGE set. A lone entry completes LINK DOWN: its
ACCESS record is offered where logging is on, ACCESS ERROR is reported to the sequencer, ARMED or not
(R72), and its job ends LINK DOWN. With the link DOWN it has no effect (log 1). It ends the wait of a
PARK at the head, which then goes on as one that comes to the head with an empty table (R32; log 27,
DEDUCED). That the quiet timer is not started in PARKED is the model's choice (log 21, DEDUCED). -/
def Obligations.LinkFollowsSignal : Prop :=
  (∀ (s : State) (c : ConnectorNo) (n : StationNo), s.stationOf c = some n →
      ((s.station n).lp.rxOn = true → (s.station n).lp.up = false →
        exec (.signalAcquired c) s = .next (s.put n
          { s.station n with lp := { (s.station n).lp with up := true } }
          (s.attention ||| Attn.linkChange.mask)))
      ∧ ((s.station n).lp.rxOn = false ∨ (s.station n).lp.up = true →
        exec (.signalAcquired c) s = .next s))
    ∧ ∀ (s : State) (c : ConnectorNo) (n : StationNo), s.stationOf c = some n →
      let t := s.station n
      let lp : LinkPort := { t.lp with
        up := false, packet := none, txList := [], sending := none
        health := if t.lp.packet = none then t.lp.health else
          { t.lp.health with
            flags := t.lp.health.flags ||| 1, discarded := min (t.lp.health.discarded + 1) 65535 }
        quiet := if t.lp.packet = none ∨ t.state = .parked then t.lp.quiet
          else some (s.elapsed + t.prof.healthMs * 100000) }
      let au : AccessUnit := { t.au with
        entries := [], retired := [], holder := false, boardRun := .unknown }
      (t.lp.up = false → t.head ≠ .parkWait → exec (.signalLost c) s = .next s)
      ∧ (t.lp.up = true → ∃ u, exec (.signalLost c) s = .next u ∧ (u.station n).lp.up = false
        ∧ (u.station n).lp.packet = none ∧ (u.station n).lp.txList = []
        ∧ (u.station n).lp.sending = none ∧ (u.station n).au.entries = []
        ∧ (u.station n).au.retired = [] ∧ (u.station n).au.holder = false
        ∧ (u.station n).au.boardRun = .unknown ∧ u.attention.getLsbD Attn.linkChange.num = true
        ∧ ∀ m, m ≠ n → u.station m = s.station m)
      ∧ (t.lp.up = true → t.au.entries = [] → t.head = .waiting → exec (.signalLost c) s
        = .next (s.put n { t with lp := lp, au := au } (s.attention ||| Attn.linkChange.mask)))
      ∧ ∀ (q : QJob) (qs : List QJob) (x : Entry), t.lp.up = true → t.au.entries = [x] →
        t.queue = q :: qs →
        let host : Word64 := match x.owner with
          | .job _ h => h
          | .trigger => 0
        let down := (s.putLogged n { t with lp := lp, au := { t.au with entries := [] } }
          (s.accessRec x .linkDown host (if x.op = .write then x.kept else []) false)).reportAt n
            .accessError
        let att := down.attention ||| Attn.linkChange.mask
        (t.head = .access ⟨[], 1, none, [], 0⟩ → x.owner = .job q.jid q.hostRef →
          exec (.signalLost c) s = .next (down.putEnd n { down.station n with au := au } att q.jid
            (Res.ended .linkDown)))
        ∧ (q.job = .park → t.working = true → t.head = .parkWait →
          exec (.signalLost c) s = exec (.park n) (down.put n
            { down.station n with au := au, head := .waiting } att))

/-- Items of the link of a connector, at the station it serves, while the link is UP. A start delimiter in
IDLE begins an empty packet and stops the quiet timer, and IN PACKET discards the packet with FRAMING
and begins a new one, the stopped quiet timer staying stopped (the model's choice, log 37, DEDUCED). A
data byte IN PACKET is counted, and stored up to the 1,031st; in IDLE it is ignored. An end delimiter in
IDLE sets FRAMING, discards nothing and restarts the quiet timer, but not in PARKED (the model's choice,
log 21, DEDUCED). While the link is DOWN no item does anything. A packet that ends with fewer than five
bytes, or fails a check, is discarded: the decoder is IDLE, the discarded packets counter goes up, the
failed check's flag is set, no record and no condition. At the quiet timer's end an accumulator that is
not empty is offered as a LINK HEALTH record and emptied; an empty one only lets the timer stop. The
checks at a packet's end, in order: the header check, where a check byte with bit 7 set is
UNCORRECTABLE; the length, at most 1,024 and agreeing with the bytes received; the CRC of R52 over the
payload, high byte first; the kind; and the payload form of PROGRESS, RESPONSE and NOTICE. The model's
choice, R56 giving none: the data words of a RESPONSE are read least significant byte first (log 52,
DESIGN CHOICE). -/
def Obligations.DecoderTakesItems : Prop :=
  ((∀ (s : State) (c : ConnectorNo) (n : StationNo), s.stationOf c = some n →
     let t := s.station n
     (t.lp.up = false → ∀ b, exec (.startDelimiter c) s = .next s
       ∧ exec (.bdlDataByte c b) s = .next s ∧ exec (.endDelimiterInIdle c) s = .next s)
     ∧ (t.lp.up = true → t.lp.packet = none → exec (.startDelimiter c) s = .next (s.put n
         { t with lp := { t.lp with packet := some ⟨[], 0⟩, quiet := none } } s.attention))
     ∧ (t.lp.up = true → t.lp.packet ≠ none → exec (.startDelimiter c) s = .next (s.put n
         { t with lp := { t.lp with
             packet := some ⟨[], 0⟩
             health := { t.lp.health with
               flags := t.lp.health.flags ||| 1
               discarded := min (t.lp.health.discarded + 1) 65535 } } } s.attention))
     ∧ (t.lp.up = true → t.lp.packet = none → ∀ b, exec (.bdlDataByte c b) s = .next s)
     ∧ (t.lp.up = true → ∀ p b, t.lp.packet = some p → exec (.bdlDataByte c b) s = .next (s.put n
         { t with lp := { t.lp with
             packet := some ⟨if p.count < 1031 then p.bytes ++ [b] else p.bytes, p.count + 1⟩ } }
         s.attention))
     ∧ (t.lp.up = true → t.lp.packet = none →
       exec (.endDelimiterInIdle c) s = .next (s.put n
         { t with lp := { t.lp with
             health := { t.lp.health with flags := t.lp.health.flags ||| 1 }
             quiet := if t.state = .parked then t.lp.quiet
               else some (s.elapsed + t.prof.healthMs * 100000) } } s.attention)))
    ∧ ((∀ (s : State) (c : ConnectorNo) (n : StationNo) (p : PacketBuf) (corrected : Bool)
           (f : DiscardFlag), s.stationOf c = some n → (s.station n).lp.up = true →
           (s.station n).lp.packet = some p →
           packetVerdict p = ⟨corrected, .inl f⟩ →
           let l := (s.station n).packetEnds corrected s.elapsed
           let num := match f with
             | .framing => 0 | .uncorrectable => 2 | .length => 3 | .crc => 4 | .unknownKind => 5
           exec (.packetDiscard c) s = .next (s.put n
             { s.station n with lp := { l with health := { l.health with
                 flags := l.health.flags ||| (1#8 <<< num)
                 discarded := min (l.health.discarded + 1) 65535 } } } s.attention))
         ∧ (∀ p : PacketBuf, p.count < 5 → packetVerdict p = ⟨false, .inl .framing⟩)
         ∧ ∀ (s : State) (n : StationNo), due (s.station n).lp.quiet s.elapsed = true →
           let t := s.station n
           (t.lp.health = Health.empty → exec (.healthIntervalExpiry n) s
             = .next (s.put n { t with lp := { t.lp with quiet := none } } s.attention))
           ∧ (t.lp.health ≠ Health.empty → exec (.healthIntervalExpiry n) s
             = .next (s.putOffer n { t with lp := { t.lp with quiet := none, health := Health.empty } }
                 s.attention (s.recordNow (.linkHealth t.lp.health))))))
    ∧ ((∀ p : PacketBuf, p.bytes.length = min p.count 1031 → 5 ≤ p.count →
           let first := BitVec.ofNat 32 (field p.bytes 0 4)
           (headerCheck first (byteAt p.bytes 4) = none →
             packetVerdict p = ⟨false, .inl .uncorrectable⟩)
           ∧ ∀ info corrected, headerCheck first (byteAt p.bytes 4) = some (info, corrected) →
             let kind := info.toNat % 32
             let channel := info.toNat / 32 % 8
             let tag := info.toNat / 256 % 256
             let len := info.toNat / 65536
             let payload := (p.bytes.drop 5).take len
             let crc := (crc16 payload).toNat
             let gives (r : DiscardFlag ⊕ Accepted) : Prop := packetVerdict p = ⟨corrected, r⟩
             let badLength : Prop := 1024 < len ∨ p.count - 5 ≠ if len = 0 then 0 else len + 2
             let badCrc : Prop := len ≠ 0 ∧ ¬ (field p.bytes (5 + len) 1 = crc / 256
               ∧ field p.bytes (6 + len) 1 = crc % 256)
             (badLength → gives (.inl .length))
             ∧ (¬ badLength → badCrc → gives (.inl .crc))
             ∧ (¬ badLength → ¬ badCrc →
               (kind = 1 → gives (.inr (.trace (BitVec.ofNat 3 channel) payload)))
               ∧ (kind = 2 → 1 ≤ len ∧ len ≤ 4 → gives (.inr (.progress payload)))
               ∧ (kind = 2 → len = 0 ∨ 4 < len → gives (.inl .length))
               ∧ (kind = 3 → len % 4 = 1 → ∃ words,
                 gives (.inr (.response tag (byteAt payload 0) words)) ∧ words.length = len / 4
                 ∧ ∀ i w, words[i]? = some w → w.toNat = field payload (1 + 4 * i) 4)
               ∧ (kind = 3 → len % 4 ≠ 1 → gives (.inl .length))
               ∧ (kind = 4 → ∀ code rest, payload = code :: rest → gives (.inr (.notice code rest)))
               ∧ (kind = 4 → len = 0 → gives (.inl .length))
               ∧ (kind ∉ [1, 2, 3, 4] → gives (.inl .unknownKind))))
         ∧ (∀ info check, check.getLsbD 7 = true → headerCheck info check = none)
         ∧ crc16 [] = 0xFFFF#16
         ∧ ∀ (bs : List Byte) (b : Byte), crc16 (bs ++ [b])
           = [7, 6, 5, 4, 3, 2, 1, 0].foldl (fun (r : BitVec 16) i =>
               if r.msb ^^ b.getLsbD i then (r <<< 1) ^^^ 0x8005#16 else r <<< 1) (crc16 bs))

/-- The header check code corrects any one wrong bit of the 32 info bits and the seven check bits, and
calls any two wrong ones UNCORRECTABLE. Positions 0 to 31 are the info bits, 32 to 38 the check bits. -/
def Obligations.HeaderCodeCorrectsOneDetectsTwo : Prop :=
  let flip (v : BitVec 32) (i : Nat) : BitVec 32 := if i < 32 then v ^^^ (1#32 <<< i) else v
  let flipC (c : Byte) (i : Nat) : Byte := if i < 32 then c else c ^^^ (1#8 <<< (i - 32))
  ∀ v : BitVec 32, headerCheck v (checkByte v) = some (v, false)
    ∧ (∀ i < 39, headerCheck (flip v i) (flipC (checkByte v) i) = some (v, true))
    ∧ ∀ i < 39, ∀ j < 39, i ≠ j →
        headerCheck (flip (flip v i) j) (flipC (flipC (checkByte v) i) j) = none

/-- Accepted packets, on the connector that the station serves. TRACE on an enabled channel offers LINK
TRACE with the payload cut to the payload limit, then reports TRACE; on a disabled channel only the
filtered counter goes up. PROGRESS makes its code the held progress code, offers PROGRESS and reports
it. NOTICE sets the board run state, offers NOTICE and reports it, code 1 then setting BOARD NOTICE. A
corrected header marks the record. The end of each packet restarts the quiet timer, but not in PARKED
(the model's choice, log 21, DEDUCED). -/
def Obligations.PacketsOfferAndReport : Prop :=
  ∀ (s : State) (c : ConnectorNo) (n : StationNo) (p : PacketBuf) (corrected : Bool),
    s.stationOf c = some n → (s.station n).lp.up = true →
    (s.station n).lp.packet = some p →
    let t := s.station n
    let l := t.packetEnds corrected s.elapsed
    let rec' (pay : Payload) (cut : Bool) : SrcRec := ⟨pay, ⟨false, cut, corrected, false⟩, s.tb, none⟩
    let told (u : Station) (r : SrcRec) (x : Cond) : State :=
      s.putReport n (u.take (u.offer s.tb r)) (s.attention ||| (u.offer s.tb r).bits) x
    (∀ ch pay, packetVerdict p = ⟨corrected, .inr (.trace ch pay)⟩ →
      (t.prof.channelMask.getLsbD ch.toNat = true → exec (.tracePacket c) s
        = .next (told { t with lp := l }
            (rec' (.linkTrace ch pay.length (pay.take t.prof.payloadLimit))
              (decide (t.prof.payloadLimit < pay.length)))
            (.trace ch.toNat pay.head?)))
      ∧ (t.prof.channelMask.getLsbD ch.toNat = false → exec (.tracePacket c) s
        = .next (s.put n { t with lp := { l with health := { l.health with
            filtered := min (l.health.filtered + 1) 65535 } } } s.attention)))
    ∧ (∀ pay, packetVerdict p = ⟨corrected, .inr (.progress pay)⟩ →
      exec (.progressPacket c) s = .next (told
        { t with
          lp := l, bpu := { t.bpu with held := some ⟨pay.length, BitVec.ofNat 32 (leNat pay)⟩ } }
        (rec' (.progress pay.length (BitVec.ofNat 32 (leNat pay))) false) (.progress (leNat pay))))
    ∧ ∀ code rest, packetVerdict p = ⟨corrected, .inr (.notice code rest)⟩ →
      let run : BoardRun := if code = 1 then .halted else if code = 2 then .running
        else if code = 3 then .unknown else t.au.boardRun
      let u := told { t with lp := l, au := { t.au with boardRun := run } }
        (rec' (.notice code (rest.take 16)) (decide (16 < rest.length))) (.notice code)
      exec (.noticePacket c) s = .next (if code = 1 then u.setAttn .boardNotice else u)

/-- A response, on the connector that the station serves, whose tag is outstanding completes that entry;
with logging on its ACCESS record is offered first, and an outcome other than OK reports ACCESS ERROR to
the sequencer, ARMED or not, before its job learns of it. A READ job's only request completed OK has its
words presented to the buffer as one write and ends the job OK with its word count; a WRITE, BOARD
CONTROL or PING ends OK with its word count, 0 or the round-trip time, a CONTROL setting the board run
state; another outcome ends each with that result and value 0. A BLOCK READ's request completed OK has
its words presented; with others in flight the job goes on; the last one ends it with the first outcome
other than OK, else OK, and as its value the words counted from word 0 in an unbroken run completed OK;
after an outcome other than OK nothing more is issued. A trigger's entry only ends, whatever the head
executes. A freed entry goes to the HALT in the holder, which is then empty, the HALT put at the front
of the transmit list (R63, R74); else to the job's next request. A completion that empties the table
ends the wait of a PARK at the head (R32; log 27, DEDUCED). A retired tag counts a late response, any
other an unmatched one. At an entry's expiry it is freed, its tag retired until one more response
timeout has passed, the earliest of eight leaving, and the access ends TIMEOUT; a tag's retire expiry
releases it. The model's choice, not the spec's words, each DEDUCED: nothing happens before its time
(log 3), a request still in the transmit list leaves it with its entry (log 33), and the quiet timer is
not started in PARKED (log 21). So is that a data write's address is a sum modulo 2^64 for every buffer
address (log 47, DESIGN CHOICE). -/
def Obligations.ResponsesAndTimeoutsCompleteEntries : Prop :=
  (∀ (s : State) (c : ConnectorNo) (n : StationNo) (p : PacketBuf) (corrected : Bool) (tag : Nat)
     (status : Byte) (words : List Word32), s.stationOf c = some n → (s.station n).lp.up = true →
     (s.station n).lp.packet = some p →
     packetVerdict p = ⟨corrected, .inr (.response tag status words)⟩ →
     let t := s.station n
     let l := t.packetEnds corrected s.elapsed
     let unsent (x : Entry) : LinkPort := { l with txList := t.lp.txList.filter fun r => r.tag != x.tag }
     let freed (x : Entry) : AccessUnit :=
       { t.au with entries := t.au.entries.filter fun y => y.tag != x.tag }
     let bad : Subcode := if status = 0 then .length else if status = 1 then .addressFault
       else if status = 2 then .busy else .unsupported
     let badEnd : Res := ⟨.boardError, false, if status = 0 then 4 else if status = 1 then 1
       else if status = 2 then 2 else 3, 0⟩
     (t.head ≠ .parkWait → (∀ x ∈ t.au.entries, x.tag.val ≠ tag) →
       ((∃ r ∈ t.au.retired, r.tag.val = tag) →
         exec (.responsePacket c) s = .next (s.put n { t with lp := { l with health := { l.health with
           flags := l.health.flags ||| 64, late := min (l.health.late + 1) 65535 } } } s.attention))
       ∧ ((∀ r ∈ t.au.retired, r.tag.val ≠ tag) →
         exec (.responsePacket c) s = .next (s.put n { t with lp := { l with health := { l.health with
           flags := l.health.flags ||| 128, unmatched := min (l.health.unmatched + 1) 65535 } } }
           s.attention)))
     ∧ (∀ (x : Entry) (q : QJob) (qs : List QJob),
         t.au.entries.find? (fun y => y.tag.val == tag) = some x → t.queue = q :: qs →
         t.head = .access ⟨[], 1, none, [], 0⟩ → x.owner = .job q.jid q.hostRef →
         let u : Station := { t with
           lp := unsent x, au := freed x, queue := qs, head := .waiting }
         let failed (kept : List Word32) : State :=
           (s.putLogged n { t with lp := unsent x, au := freed x }
             (s.accessRec x (.boardError bad) q.hostRef kept corrected)).reportAt n .accessError
         (∀ addr buf k, q.job = .read addr k buf → x.op = .read → x.count = k → x.offset = 0 →
           (status = 0 → words.length = k → exec (.responsePacket c) s = .next
             (((s.putLogged n u (s.accessRec x .ok q.hostRef (words.take 8) corrected)).presentJob
                 ⟨.job, some n, buf, (wordBytes words).length, some (wordBytes words), .data q.jid n⟩)
               |>.recordResult n q.jid (Res.okv k) |>.offerFreed n))
           ∧ (status ≠ 0 ∨ words.length ≠ k →
             exec (.responsePacket c) s
               = .next (((failed []).endAt n q.jid badEnd).offerFreed n)))
         ∧ (q.job.isAccess = true → q.job.readBuffer = none → x.op ≠ .read →
           let value : Nat := match q.job with
             | .writeInline _ k _ | .writeBuffer _ k _ => k
             | .ping => min (s.elapsed - x.issuedAt) 65535000
             | _ => 0
           let kept := if x.op = .write then x.kept else []
           let run : BoardRun := if x.op ≠ .control then t.au.boardRun
             else if x.addr.toNat = 1 ∨ x.addr.toNat = 3 then .halted
             else if x.addr.toNat = 2 then .running else t.au.boardRun
           (status = 0 → words = [] → exec (.responsePacket c) s = .next
             (((s.putLogged n { u with au := { freed x with boardRun := run } }
               (s.accessRec x .ok q.hostRef kept corrected)).recordResult n q.jid
                 (Res.okv value)).offerFreed n))
           ∧ (status ≠ 0 ∨ words ≠ [] →
             exec (.responsePacket c) s
               = .next (((failed kept).endAt n q.jid badEnd).offerFreed n))))
     ∧ (∀ (x : Entry) (q : QJob) (qs : List QJob) (addr buf : Word64) (w : Nat) (a : AccessExec),
         t.au.entries.find? (fun y => y.tag.val == tag) = some x → t.queue = q :: qs →
         q.job = .blockRead addr w buf → t.head = .access a → x.owner = .job q.jid q.hostRef →
         x.op = .read →
         let ok : Prop := status = 0 ∧ words.length = x.count
         let oks := a.oks ++ [(x.offset, x.count)]
         let took : AccessExec := { a with
           flying := a.flying - 1, oks := oks, ticks := min (s.elapsed - x.issuedAt) 65535000 }
         let first := a.fail.getD (.boardError bad)
         let u (h : Head) (jobs : List QJob) : Station := { t with
           lp := unsent x, au := freed x, head := h, queue := jobs }
         let okRec := s.accessRec x .ok q.hostRef (words.take 8) corrected
         let failed := (s.putLogged n (u (.access a) (q :: qs))
           (s.accessRec x (.boardError bad) q.hostRef [] corrected)).reportAt n .accessError
         let data : Access := ⟨.job, some n, buf + BitVec.ofNat 64 (4 * x.offset),
           (wordBytes words).length, some (wordBytes words), .data q.jid n⟩
         (ok → a.reqs = [] ∨ a.fail ≠ none →
           (1 < a.flying → exec (.responsePacket c) s = .next
             (((s.putLogged n (u (.access took) (q :: qs)) okRec).presentJob data).offerFreed n))
           ∧ (a.flying = 1 → exec (.responsePacket c) s = .next
             ((((s.putLogged n (u .waiting qs) okRec).presentJob data).recordResult n q.jid
               (Res.ofOutcome (a.fail.getD .ok) (goodWords oks))).offerFreed n)))
         ∧ (∀ r rest, ok → a.fail = none → a.reqs = r :: rest → t.au.entries.length = 4 → t.au.bounded →
           t.au.holder = false →
           let next := (freed x).pickTag
           exec (.responsePacket c) s = .next ((s.putLogged n
             { u (.access { took with reqs := rest, flying := a.flying - 1 + 1 }) (q :: qs) with
               au := { freed x with
                 entries := (freed x).entries
                   ++ [r.entry next s.elapsed t.prof.responseTimeout (.job q.jid q.hostRef)]
                 nextTag := tagAt next.val 1 }
               lp := (unsent x).enqueue ⟨next, r⟩ false } okRec).presentJob data))
         ∧ (∀ r rest, ok → a.fail = none → a.reqs = r :: rest → t.au.entries.length = 4 → t.au.bounded →
           t.au.holder = true → exec (.responsePacket c) s = .next
             (((s.putLogged n ((u (.access took) (q :: qs)).haltIssued s.elapsed) okRec).presentJob
               data)))
         ∧ (¬ ok →
           (1 < a.flying → exec (.responsePacket c) s = .next ((failed.put n
             { failed.station n with
               head := .access { a with flying := a.flying - 1, fail := some first } }
             failed.attention).offerFreed n))
           ∧ (a.flying = 1 → exec (.responsePacket c) s = .next
             ((failed.endAt n q.jid (Res.ofOutcome first (goodWords a.oks))).offerFreed n))))
     ∧ ∀ x : Entry, t.au.entries.find? (fun y => y.tag.val == tag) = some x →
         x.owner = .trigger → x.op = .control → x.addr.toNat = 1 →
         let ok := status = 0 ∧ words = []
         let o : AccessOutcome := if ok then .ok else .boardError bad
         let u (h : Head) : Station := { t with
           lp := unsent x, head := h
           au := { freed x with boardRun := if ok then .halted else t.au.boardRun } }
         let ended (h : Head) := s.putLogged n (u h) (s.accessRec x o 0 [] corrected)
         let after (h : Head) := if ok then ended h else (ended h).reportAt n .accessError
         (t.head ≠ .parkWait → t.issuesOne →
           exec (.responsePacket c) s = .next ((after t.head).offerFreed n))
         ∧ ∀ (q : QJob) (qs : List QJob), t.head = .parkWait → t.au.holder = false →
           t.au.entries = [x] → let r := after .waiting
           t.queue = q :: qs → q.job = .park →
           t.state = .ready ∨ (t.state = .quiescing ∧ (r.station n).au.entries = []) →
           exec (.responsePacket c) s = exec (.park n) r)
    ∧ ((∀ (s : State) (n : StationNo) (tag : Fin 64) (x : Entry),
           (s.station n).au.entries.find? (fun y => y.tag == tag) = some x →
           let t := s.station n
           let early (i : Nat) : Prop := ∃ r, t.au.retired[i]? = some r
             ∧ ∀ j y, t.au.retired[j]? = some y → r.expiry ≤ y.expiry ∧ (y.expiry = r.expiry → i ≤ j)
           let u (i : Nat) (h : Head) (jobs : List QJob) : Station := { t with
             head := h, queue := jobs
             lp := { t.lp with txList := t.lp.txList.filter fun r => r.tag != tag }
             au := { t.au with
               entries := t.au.entries.filter fun y => y.tag != tag
               retired := (if t.au.retired.length < 8 then t.au.retired else t.au.retired.eraseIdx i)
                 ++ [⟨tag, s.elapsed + t.prof.responseTimeout * 1000⟩] } }
           let rec' (host : Word64) := s.accessRec x .timeout host
             (if x.op = .write then x.kept else []) false
           (s.elapsed < x.expiry → t.head ≠ .parkWait →
             exec (.responseTimeoutExpiry n tag) s = .next s)
           ∧ ∀ i, x.expiry ≤ s.elapsed → t.au.retired.length < 8 ∨ early i →
             (t.head ≠ .parkWait → x.owner = .trigger → t.issuesOne →
               exec (.responseTimeoutExpiry n tag) s = .next
                 (((s.putLogged n (u i t.head t.queue) (rec' 0)).reportAt n .accessError).offerFreed n))
             ∧ ∀ (q : QJob) (qs : List QJob), t.queue = q :: qs →
             (∀ a, t.head = .access a → x.owner = .job q.jid q.hostRef →
               let value := match q.job with
                 | .blockRead _ _ _ => goodWords a.oks
                 | _ => 0
               let r := (s.putLogged n (u i (.access a) (q :: qs)) (rec' q.hostRef)).reportAt n
                 .accessError
               (a.flying = 1 → q.job.isAccess = true → exec (.responseTimeoutExpiry n tag) s = .next
                 ((r.endAt n q.jid (Res.ofOutcome (a.fail.getD .timeout) value)).offerFreed n))
               ∧ (1 < a.flying → exec (.responseTimeoutExpiry n tag) s = .next ((r.put n
                 { r.station n with
                   head := .access { a with
                     flying := a.flying - 1, fail := some (a.fail.getD .timeout) } }
                 r.attention).offerFreed n)))
             ∧ (t.head = .parkWait → t.au.holder = false → t.au.entries = [x] → q.job = .park → x.owner = .trigger →
               let r := (s.putLogged n (u i .waiting (q :: qs)) (rec' 0)).reportAt n .accessError
               t.state = .ready ∨ (t.state = .quiescing ∧ (r.station n).au.entries = []) →
               exec (.responseTimeoutExpiry n tag) s = exec (.park n) r))
         ∧ (∀ (s : State) (n : StationNo) (r : RetiredTag), (s.station n).au.bounded →
           r ∈ (s.station n).au.retired →
           (s.elapsed < r.expiry → exec (.retireExpiry n r.tag) s = .next s)
           ∧ (r.expiry ≤ s.elapsed → exec (.retireExpiry n r.tag) s = .next (s.put n
             { s.station n with au := { (s.station n).au with
                 retired := (s.station n).au.retired.filter fun y => y.tag != r.tag } } s.attention)))
         ∧ ∀ (w r m : Nat) (oks : List (Nat × Nat)), 1 ≤ r →
           (∀ y ∈ oks, ∃ i, i * r < w ∧ y = (i * r, min r (w - i * r))) →
           (∀ i < m, i * r < w → (i * r, min r (w - i * r)) ∈ oks) →
           w ≤ m * r ∨ (m * r, min r (w - m * r)) ∉ oks →
           goodWords oks = min (m * r) w)

/-- The transmitter, idle with the link UP, begins the first request of the list and sends the packet its
kind gives; when a packet has been sent it begins the next. A request put at the front of the list comes
before the others, any other after them; that a trigger HALT is put at the front is stated with its
firing and with the holder's release. CONSOLE SEND with the power state ON places its bytes in the send
queue, the transmitter beginning the oldest for ten bit times; when a byte is sent the next begins, and
with its last byte the job ends OK with the byte count. In any other power state it ends STATE. A
request packet's bytes (R49, R62, Table 12-11): kind and channel 0, tag, length, the check byte whose
seven bits R49 gives, the fields of its kind, and the CRC of a payload high byte first. The TX line
(R94): high at rest; through a frame a low start bit, the eight data bits least significant first and a
high stop bit, each for the divisor its frame began with. -/
def Obligations.TransmittersServeTheirQueues : Prop :=
  (((∀ (l : LinkPort) (r : TxReq) (front : Bool), (l.sending ≠ none ∨ l.up = false) →
       l.enqueue r front
         = { l with txList := if front then r :: l.txList else l.txList ++ [r] })
     ∧ (∀ (l : LinkPort) (r : TxReq) (front : Bool), l.sending = none → l.up = true →
         l.txList = [] → l.enqueue r front = { l with sending := some r.packet })
     ∧ (∀ (s : State) (n : StationNo) (p : List Byte), (s.station n).lp.sending = some p →
         (s.station n).lp.txList = [] → exec (.transmitDone n) s = .next (s.put n
           { s.station n with lp := { (s.station n).lp with sending := none } } s.attention))
     ∧ ∀ (s : State) (n : StationNo) (p : List Byte) (r : TxReq) (rest : List TxReq),
         (s.station n).lp.sending = some p → (s.station n).lp.txList = r :: rest →
         (s.station n).lp.up = true → exec (.transmitDone n) s = .next (s.put n
           { s.station n with lp := { (s.station n).lp with
               txList := rest, sending := some r.packet } } s.attention))
    ∧ ((∀ (s : State) (n : StationNo) (q : QJob) (k : Nat) (b : Byte) (bs : List Byte),
           (s.station n).atHead q (.consoleSend k (b :: bs)) →
           ((s.station n).bpu.state ≠ .on → exec (.consoleSend n) s
             = .next (s.putEnd n (s.station n) s.attention q.jid (Res.ended .state)))
           ∧ ((s.station n).bpu.state = .on → (s.station n).cu.sendQ = [] → (s.station n).cu.tx = none →
             exec (.consoleSend n) s = .next (s.put n
               { s.station n with
                 head := .consoleSend k 0
                 cu := { (s.station n).cu with
                   sendQ := bs
                   tx := some ⟨b, (s.station n).prof.divisor, s.elapsed⟩ } } s.attention)))
         ∧ ∀ (s : State) (n : StationNo) (q : QJob) (qs : List QJob) (k sent : Nat) (x : TxByte),
           (s.station n).head = .consoleSend k sent → (s.station n).queue = q :: qs →
           (s.station n).cu.tx = some x → x.begins + 10 * x.divisor ≤ s.elapsed →
           (k = sent + 1 → (s.station n).cu.sendQ = [] → exec (.consoleByteSent n) s
             = .next (s.putEnd n { s.station n with cu := { (s.station n).cu with tx := none } }
                 s.attention q.jid (Res.okv k)))
           ∧ ∀ b bs, sent + 1 < k → (s.station n).cu.sendQ = b :: bs →
             exec (.consoleByteSent n) s = .next (s.put n
               { s.station n with
                 head := .consoleSend k (sent + 1)
                 cu := { (s.station n).cu with
                   sendQ := bs
                   tx := some ⟨b, (s.station n).prof.divisor, s.elapsed⟩ } } s.attention)))
    ∧ ((∀ (tag : Fin 64) (r : ReqSpec), r.words.length ≤ 64 → r.count ≤ 64 →
           let d := (TxReq.mk tag r).packet
           let kind := match r.op with | .read => 0x11 | .write => 0x12 | .control => 0x13 | .ping => 0x14
           let len := match r.op with
             | .read => 9 | .write => 8 + 4 * r.words.length | .control => 1 | .ping => 0
           let crc := (crc16 ((d.drop 5).take len)).toNat
           d.length = 5 + len + (if len = 0 then 0 else 2)
             ∧ field d 0 1 = kind ∧ field d 1 1 = tag.val ∧ field d 2 2 = len
             ∧ byteAt d 4 = checkByte (BitVec.ofNat 32 (kind + 256 * tag.val + 65536 * len))
             ∧ (r.op = .read ∨ r.op = .write → field d 5 8 = r.addr.toNat)
             ∧ (r.op = .read → field d 13 1 = r.count)
             ∧ (r.op = .write → ∀ i w, r.words[i]? = some w → field d (13 + 4 * i) 4 = w.toNat)
             ∧ (r.op = .control → r.addr.toNat ≤ 255 → field d 5 1 = r.addr.toNat)
             ∧ (0 < len → field d (5 + len) 1 = crc / 256 ∧ field d (6 + len) 1 = crc % 256))
         ∧ (∀ v : BitVec 32,
           let codes := (List.range 39).filter fun m => decide (3 ≤ m) && !([4, 8, 16, 32].contains m)
           let ones := ((List.range 32).filter v.getLsbD).length
           (∀ j < 6, (checkByte v).getLsbD j = (((List.range 32).filter fun i =>
               v.getLsbD i && (codes.getD i 0).testBit j).length % 2 == 1))
             ∧ (checkByte v).getLsbD 6
               = ((ones + ((List.range 6).filter (checkByte v).getLsbD).length) % 2 == 1)
             ∧ (checkByte v).getLsbD 7 = false)
         ∧ ∀ (u : ConsoleUnit) (now : Nat), (u.tx = none → u.txLine now = true)
           ∧ ∀ x, u.tx = some x → 0 < x.divisor → x.begins ≤ now →
             (now < x.begins + x.divisor → u.txLine now = false)
             ∧ (∀ i < 8, x.begins + (i + 1) * x.divisor ≤ now → now < x.begins + (i + 2) * x.divisor →
               u.txLine now = x.val.getLsbD i)
             ∧ (x.begins + 9 * x.divisor ≤ now → u.txLine now = true))

/-! ## The console -/

/-- The RX line of a connector, at the station it serves. The frame: a start edge in IDLE takes the divisor
d in force; half a bit later the line must still be low, else the receiver is IDLE again; a confirmed
start bit with a line open restarts the idle timer. Before its sample point neither sample does
anything, nor a BREAK before its threshold (the model's choice, logs 1 and 3, DEDUCED). A further fall
of RX between a start edge and its start bit sample does nothing (the model's choice, log 59, DEDUCED).
A byte at its stop bit sample: data 0x00 with the stop bit low is held; an LF with a good stop bit
closes the line with no close flag; any other byte is stored with its framing mark, restarting the idle
timer, the patterns it completes are reported in ascending number, and at the line limit it closes the
line with SPLIT. A held 0x00: a rise of RX stores it with the framing mark, likewise, at the byte time
of its own stop bit sample, which a line it opens or closes takes (the model's choice, log 36, DEDUCED);
twenty bit times after the start edge still low, it is a BREAK, which closes the line with BREAK. The
idle timer's end closes the line with IDLE CLOSED. A pattern matches when the line is at least as long
and each of its positions agrees with the byte there: the cared-for bits equal, and no framing mark
where any bit is cared for (R93). -/
def Obligations.ConsoleReceiverTakesFrames : Prop :=
  (((∀ (s : State) (c : ConnectorNo) (n : StationNo), s.stationOf c = some n →
       ((s.station n).cu.rx = .idle → exec (.consoleStartEdge c) s = .next (s.put n
         { s.station n with cu := { (s.station n).cu with
             rx := .starting s.elapsed (s.station n).prof.divisor } } s.attention))
       ∧ ((s.station n).cu.rx ≠ .idle → exec (.consoleStartEdge c) s = .next s))
     ∧ ∀ (s : State) (c : ConnectorNo) (n : StationNo) (edge d : Nat), s.stationOf c = some n →
       (s.station n).cu.rx = .starting edge d →
       let t := s.station n
       (s.elapsed < edge + d / 2 → ∀ high, exec (.startBitSample c high) s = .next s)
       ∧ (edge + d / 2 ≤ s.elapsed → exec (.startBitSample c true) s = .next (s.put n
           { t with cu := { t.cu with rx := .idle } } s.attention)
         ∧ exec (.startBitSample c false) s = .next (s.put n
           { t with cu := { t.cu with
               rx := .receiving edge d
               idle := if t.cu.line = [] then t.cu.idle
                 else some (s.elapsed + t.prof.idleCloseMs * 100000) } } s.attention)))
    ∧ (∀ (s : State) (c : ConnectorNo) (n : StationNo) (edge d : Nat) (b : Byte) (stop : Bool),
         s.stationOf c = some n →
         (s.station n).cu.rx = .receiving edge d → edge + d / 2 + 9 * d ≤ s.elapsed →
         let t := s.station n
         let origin := if t.cu.line = [] then s.tb else t.cu.origin
         let line := t.cu.line ++ [⟨b, !stop⟩]
         let u : Station := { t with cu := { t.cu with
           rx := .idle, line := line, origin := origin
           idle := some (s.elapsed + t.prof.idleCloseMs * 100000) } }
         let closed : Station := { t with cu := { t.cu with
           rx := .idle, line := [], origin := origin, idle := none } }
         let lineRec (l : List LineByte) (split : Bool) : SrcRec :=
           ⟨.consoleLine ⟨split, false, false, l.any LineByte.framing, false⟩ 0 (l.map LineByte.val),
             ⟨false, false, false, l.any LineByte.framing⟩, s.tb, some origin⟩
         (stop = false → b = 0 → exec (.consoleByte c b stop) s = .next (s.put n
           { t with cu := { t.cu with rx := .held edge d s.tb } } s.attention))
         ∧ (b = 0x0A → stop = true → exec (.consoleByte c b stop) s
           = .next (s.putOffer n closed s.attention (lineRec t.cu.line false)))
         ∧ (¬ (stop = false ∧ b = 0) → ¬ (b = 0x0A ∧ stop = true) →
           (matchingPatterns t.cu.patterns line = [] →
             (line.length < t.prof.lineLimit →
               exec (.consoleByte c b stop) s = .next (s.put n u s.attention))
             ∧ (t.prof.lineLimit ≤ line.length → exec (.consoleByte c b stop) s
               = .next (s.putOffer n closed s.attention (lineRec line true))))
           ∧ (let s' := s.putReports n u s.attention
                ((matchingPatterns t.cu.patterns line).map Cond.pattern)
              let v := s'.station n
              (line.length < t.prof.lineLimit → exec (.consoleByte c b stop) s = .next s')
              ∧ (t.prof.lineLimit ≤ line.length → exec (.consoleByte c b stop) s = .next (s'.putOffer n
                { v with cu := { v.cu with line := [], idle := none } } s'.attention
                (lineRec line true))))))
    ∧ ((∀ (s : State) (c : ConnectorNo) (n : StationNo) (edge d : Nat) (time : Tick),
           s.stationOf c = some n →
           (s.station n).cu.rx = .held edge d time →
           let t := s.station n
           let line := t.cu.line ++ [⟨0, true⟩]
           let origin := if t.cu.line = [] then time else t.cu.origin
           let s' := s.putReports n { t with cu := { t.cu with
               rx := .idle, line := line, origin := origin
               idle := some (s.elapsed + t.prof.idleCloseMs * 100000) } } s.attention
             ((matchingPatterns t.cu.patterns line).map Cond.pattern)
           let v := s'.station n
           (line.length < t.prof.lineLimit → exec (.rxRise c) s = .next s')
           ∧ (t.prof.lineLimit ≤ line.length → exec (.rxRise c) s = .next (s'.putOffer n
             { v with cu := { v.cu with line := [], idle := none } } s'.attention
             ⟨.consoleLine ⟨true, false, false, true, false⟩ 0 (line.map LineByte.val),
               ⟨false, false, false, true⟩, time, some origin⟩))
           ∧ (matchingPatterns t.cu.patterns line = [] → line.length < t.prof.lineLimit →
             exec (.rxRise c) s = .next (s.put n { t with cu := { t.cu with
               rx := .idle, line := line, origin := if t.cu.line = [] then time else t.cu.origin
               idle := some (s.elapsed + t.prof.idleCloseMs * 100000) } } s.attention))
           ∧ (s.elapsed < edge + 20 * d → exec (.breakDetected c) s = .next s)
           ∧ (edge + 20 * d ≤ s.elapsed → exec (.breakDetected c) s = .next (s.putOffer n
             { t with cu := { t.cu with rx := .idle, line := [], idle := none } } s.attention
             ⟨.consoleLine ⟨false, false, false, t.cu.line.any LineByte.framing, true⟩ 0
                 (t.cu.line.map LineByte.val),
               ⟨false, false, false, true⟩, s.tb,
               some (if t.cu.line = [] then s.tb else t.cu.origin)⟩)))
         ∧ ∀ (s : State) (n : StationNo), due (s.station n).cu.idle s.elapsed = true →
           let t := s.station n
           exec (.idleCloseExpiry n) s = .next (s.putOffer n
             { t with cu := { t.cu with line := [], idle := none } } s.attention
             ⟨.consoleLine ⟨false, true, false, t.cu.line.any LineByte.framing, false⟩ 0
                 (t.cu.line.map LineByte.val),
               ⟨false, false, false, t.cu.line.any LineByte.framing⟩, s.tb,
               some (if t.cu.line = [] then s.tb else t.cu.origin)⟩)))
    ∧ (∀ (ps : List (List PatPos)) (line : List LineByte),
         (matchingPatterns ps line).Pairwise (· < ·)
           ∧ ∀ k, k ∈ matchingPatterns ps line ↔ ∃ p, ps[k]? = some p ∧ p.length ≤ line.length
             ∧ ∀ (i : Nat) (y : PatPos) (b : LineByte), p[i]? = some y → (line.drop (line.length - p.length))[i]? = some b →
               b.val &&& y.care = y.value &&& y.care ∧ (y.care ≠ 0 → b.framing = false))

/-! ## Power inputs and timers -/

/-- A change of the raw PRESENT level restarts the 20 ms settle filter, which runs while the level differs
from the settled value. When it has settled, an ABSENT station whose connector is occupied is SEATED,
its class sampled, SEATED offered and reported, and in mode AUTO its auto settle timer started, which
decides at once where the auto settle time is 0, PWR_GOOD low or already asserted (R101); a station
whose board has gone is ABSENT, its timers stopped, latched fault and retry count cleared, REMOVED
offered and reported, a console line open in ON closed with CUT, a POWER ON, RESET PULSE or CONSOLE SEND
at its head ended POWER FAULT, any other head left as it is. The sequencer may be ARMED (R98). The
model's choice: the ID straps that the seating samples are those read with the last change of raw
PRESENT (log 8, DESIGN CHOICE). -/
def Obligations.PresentSettlesAndSeats : Prop :=
  (∀ (s : State) (c : ConnectorNo) (level : Bool) (straps : BitVec 3),
      let p := s.connector c
      exec (.presentInputChange c level straps) s = .next (s.withPin c { p with
        present := level, straps := straps
        settle := if level = p.present then p.settle else if level = p.settled then none
          else some (s.elapsed + 2000000) }))
    ∧ ∀ (s : State) (c : ConnectorNo) (n : StationNo), due (s.connector c).settle s.elapsed = true →
      s.stationOf c = some n →
      let t := s.station n
      let p := s.connector c
      let s' := s.withPin c { p with settled := p.present, settle := none }
      let seated := s'.putPower n
        { t with bpu := { t.bpu with state := .seated, cls := p.straps } } .seated
      let b := (seated.station n).bpu
      let settles (b : PowerUnit) : State :=
        seated.put n { seated.station n with bpu := b } seated.attention
      let gone := s'.putPower n { t with bpu := t.bpu.removed } .removed
      let allowed : Prop := t.prof.classMask.getLsbD p.straps.toNat = true ∧ t.bpu.latched = .none
      (p.present = true → t.bpu.state = .absent →
        (t.prof.powerMode ≠ .auto → exec (.presentSettleExpiry c) s = .next seated)
        ∧ (t.prof.powerMode = .auto → t.prof.autoSettleMs ≠ 0 → exec (.presentSettleExpiry c) s
          = .next (settles { b with autoSettle := some (s.elapsed + t.prof.autoSettleMs * 100000) }))
        ∧ (t.prof.powerMode = .auto → t.prof.autoSettleMs = 0 →
          (¬ allowed → exec (.presentSettleExpiry c) s
            = .next (settles { b with autoSettle := none }))
          ∧ (allowed → p.pwrGood = false → exec (.presentSettleExpiry c) s
            = .next (seated.putPower n
                { seated.station n with bpu := b.ramped t.prof p s.elapsed } .rampStart)))
        ∧ (t.prof.powerMode = .auto → exec (.presentSettleExpiry c) s
          = .next (seated.putSettle n (seated.station n))))
      ∧ (p.present = false → t.bpu.state = .seated ∨ t.bpu.state = .ramping ∨ t.bpu.state = .cooldown
          ∨ (t.bpu.state = .on ∧ t.cu.line = []) →
        (t.head = .waiting → exec (.presentSettleExpiry c) s = .next gone)
        ∧ ∀ (q : QJob) (qs : List QJob), t.queue = q :: qs →
          ((∃ started, t.head = .ramp started) ∨ (∃ w k, t.head = .pulse w k) →
            exec (.presentSettleExpiry c) s
              = .next (gone.endAt n q.jid ⟨.powerFault, false, 0, 0⟩))
          ∧ (∀ total sent, t.head = .consoleSend total sent → t.bpu.state = .on →
            exec (.presentSettleExpiry c) s = .next (gone.putEnd n
              { gone.station n with cu := { t.cu with sendQ := [], tx := none } } gone.attention q.jid
              ⟨.powerFault, false, 0, sent⟩)))
      ∧ (p.present = false → t.bpu.state = .seated ∨ t.bpu.state = .ramping ∨ t.bpu.state = .cooldown →
        exec (.presentSettleExpiry c) s = .next (gone.endPower n .none))
      ∧ (p.present = false → t.bpu.state = .on →
        exec (.presentSettleExpiry c) s = .next ((gone.putLeft n .none).endPower n .none))
      ∧ (t.bpu.state = .inactive ∨ (p.present = true ∧ t.bpu.state ≠ .absent) →
        exec (.presentSettleExpiry c) s = .next s')

/-- PWR_GOOD rising in RAMPING makes the power state ON with the retry count 0 and the reset delay running,
offers POWER GOOD, reports it to the sequencer, ARMED or not, and ends a POWER ON at the head OK with
the milliseconds since RAMP START. A reset delay of 0 expires at once, after that: with the hold flag
set the controller is HELD, else RELEASED with RESET RELEASED offered and reported (R108). In every
other state, and where the input is already high, it does nothing else. The overload filter: a rise of
OVERLOAD in a powered station with its inrush window closed starts it, a fall stops it, and the close of
the window starts it when OVERLOAD is high. That a rise where the input is already high does nothing is
log 1 (DEDUCED). -/
def Obligations.PowerGoodAndOverload : Prop :=
  (∀ (s : State) (c : ConnectorNo) (n : StationNo), s.stationOf c = some n →
     let t := s.station n
     let s' := s.withPin c { s.connector c with pwrGood := true }
     let b : PowerUnit := { t.bpu with
       state := .on, ramp := none, retry := 0, ctl := .delay
       delay := some (s.elapsed + t.prof.resetDelayMs * 100000) }
     ((s.connector c).pwrGood = true → exec (.pwrGoodRise c) s = .next s)
     ∧ ((s.connector c).pwrGood = false → t.bpu.state ≠ .ramping →
       exec (.pwrGoodRise c) s = .next s')
     ∧ ((s.connector c).pwrGood = false → t.bpu.state = .ramping → t.prof.resetDelayMs ≠ 0 →
       let good := s'.putPower n { t with bpu := b } .powerGood
       (t.head = .waiting → exec (.pwrGoodRise c) s = .next good)
       ∧ ∀ (q : QJob) (qs : List QJob) (started : Nat), t.queue = q :: qs → t.head = .ramp started →
         exec (.pwrGoodRise c) s
           = .next (good.endAt n q.jid (Res.okv ((s.elapsed - started) / 100000))))
     ∧ ((s.connector c).pwrGood = false → t.bpu.state = .ramping →
       exec (.pwrGoodRise c) s = .next (s'.putGood n t))
     ∧ ((s.connector c).pwrGood = false → t.bpu.state = .ramping → t.prof.resetDelayMs = 0 →
       let good := s'.putPower n { t with bpu := b } .powerGood
       let u (w : State) (ctl : ResetCtl) : Station := { w.station n with bpu := { (w.station n).bpu with
         delay := none, pulse := none, ctl := ctl } }
       let ends (w : State) : Prop :=
         (t.bpu.hold = true → exec (.pwrGoodRise c) s = .next (w.put n (u w .held) w.attention))
         ∧ (t.bpu.hold = false →
           exec (.pwrGoodRise c) s = .next (w.putPower n (u w .released) .resetReleased))
       (t.head = .waiting → ends good)
       ∧ ∀ (q : QJob) (qs : List QJob) (started : Nat), t.queue = q :: qs → t.head = .ramp started →
         ends (good.endAt n q.jid (Res.okv ((s.elapsed - started) / 100000)))))
    ∧ ((∀ (s : State) (c : ConnectorNo) (n : StationNo), s.stationOf c = some n →
           let t := s.station n
           let powered : Prop := t.bpu.state = .ramping ∨ t.bpu.state = .on
           let high := s.withPin c { s.connector c with overload := true }
           let low := s.withPin c { s.connector c with overload := false }
           ((s.connector c).overload = false → powered → t.bpu.inrush = none →
             exec (.overloadRise c) s = .next (high.put n
               { t with bpu := { t.bpu with overload := some (s.elapsed + t.prof.overloadUs * 100) } }
               s.attention))
           ∧ ((s.connector c).overload = false → ¬ powered ∨ t.bpu.inrush ≠ none →
             exec (.overloadRise c) s = .next high)
           ∧ ((s.connector c).overload = true → exec (.overloadFall c) s
             = .next (low.put n { t with bpu := { t.bpu with overload := none } } s.attention)))
         ∧ ∀ (s : State) (n : StationNo), due (s.station n).bpu.inrush s.elapsed = true →
           let t := s.station n
           let starts : Bool := (t.bpu.state == .ramping || t.bpu.state == .on)
             && (s.connector (s.connectorOf n)).overload
           exec (.inrushWindowClose n) s = .next (s.put n
             { t with bpu := { t.bpu with
                 inrush := none
                 overload := if starts then some (s.elapsed + t.prof.overloadUs * 100)
                   else t.bpu.overload } } s.attention))

/-- Faults: PWR_GOOD falling in ON is POWER LOST, the ramp timer's end RAMP, the overload filter's end, in
RAMPING or in ON, OVERLOAD. Each takes the station to COOLDOWN with the cooldown timer started, offers
its event, reports it to the sequencer, ARMED or not, sets POWER FAULT, and ends a POWER ON, a RESET
PULSE or a CONSOLE SEND at the head POWER FAULT with its fault kind; any other head stays as it is.
Where ON is left with a console line open, the line closes with CUT after the event's report (R90, R98).
-/
def Obligations.FaultsEnterCooldown : Prop :=
  ∀ (s : State) (n : StationNo),
    let t := s.station n
    let faulted (s : State) (k : FaultKind) (ev : PowerEv) : State :=
      (s.putPower n { t with bpu := t.bpu.faulted k (s.elapsed + t.prof.cooldownMs * 100000) }
        ev).setAttn .powerFault
    let fault (s : State) (k : FaultKind) (ev : PowerEv) : State :=
      let taken := s.putPower n
        { t with bpu := t.bpu.faulted k (s.elapsed + t.prof.cooldownMs * 100000) } ev
      ((if t.bpu.state = .on then taken.putLeft n k else taken).setAttn .powerFault).endPower n k
    (∀ c, s.stationOf c = some n → (s.connector c).pwrGood = true →
      let s' := s.withPin c { s.connector c with pwrGood := false }
      (t.bpu.state ≠ .on → exec (.pwrGoodFall c) s = .next s')
      ∧ (t.bpu.state = .on → t.cu.line = [] → t.head = .waiting →
        exec (.pwrGoodFall c) s = .next (faulted s' .powerLost .powerLostFault))
      ∧ (t.bpu.state = .on →
        exec (.pwrGoodFall c) s = .next (fault s' .powerLost .powerLostFault))
      ∧ ∀ (q : QJob) (qs : List QJob), t.queue = q :: qs → t.bpu.state = .on → t.cu.line = [] →
        let r := faulted s' .powerLost .powerLostFault
        (∀ w k, t.head = .pulse w k → exec (.pwrGoodFall c) s
          = .next (r.endAt n q.jid ⟨.powerFault, false, 3, 0⟩))
        ∧ ∀ total sent, t.head = .consoleSend total sent → exec (.pwrGoodFall c) s
          = .next (r.putEnd n { r.station n with cu := { t.cu with sendQ := [], tx := none } }
              r.attention q.jid ⟨.powerFault, false, 3, sent⟩))
    ∧ (due t.bpu.ramp s.elapsed = true → t.bpu.state = .ramping →
      (t.head = .waiting → exec (.rampTimerExpiry n) s = .next (faulted s .ramp .rampFault))
      ∧ ∀ (q : QJob) (qs : List QJob) (started : Nat), t.queue = q :: qs → t.head = .ramp started →
        exec (.rampTimerExpiry n) s
          = .next ((faulted s .ramp .rampFault).endAt n q.jid ⟨.powerFault, false, 1, 0⟩))
    ∧ (due t.bpu.ramp s.elapsed = true → t.bpu.state = .ramping →
      exec (.rampTimerExpiry n) s = .next (fault s .ramp .rampFault))
    ∧ (due t.bpu.overload s.elapsed = true → t.bpu.state = .on → t.cu.line = [] →
      let r := faulted s .overload .overloadFault
      (t.head = .waiting → exec (.overloadFilterExpiry n) s = .next r)
      ∧ ∀ (q : QJob) (qs : List QJob), t.queue = q :: qs →
        (∀ w k, t.head = .pulse w k → exec (.overloadFilterExpiry n) s
          = .next (r.endAt n q.jid ⟨.powerFault, false, 2, 0⟩))
        ∧ ∀ total sent, t.head = .consoleSend total sent → exec (.overloadFilterExpiry n) s
          = .next (r.putEnd n { r.station n with cu := { t.cu with sendQ := [], tx := none } }
              r.attention q.jid ⟨.powerFault, false, 2, sent⟩))
    ∧ (due t.bpu.overload s.elapsed = true →
      (t.bpu.state = .ramping ∨ t.bpu.state = .on →
        exec (.overloadFilterExpiry n) s = .next (fault s .overload .overloadFault))
      ∧ (t.bpu.state = .ramping →
        (t.head = .waiting → exec (.overloadFilterExpiry n) s
          = .next (faulted s .overload .overloadFault))
        ∧ ∀ (q : QJob) (qs : List QJob) (started : Nat), t.queue = q :: qs → t.head = .ramp started →
          exec (.overloadFilterExpiry n) s
            = .next ((faulted s .overload .overloadFault).endAt n q.jid ⟨.powerFault, false, 2, 0⟩)))

/-- At the auto settle timer's end a board of an allowed class with no latched fault ramps, any other stays
SEATED with the timer stopped. At the cooldown timer's end a station in mode AUTO below its retry limit
counts a retry and ramps, any other is SEATED with the fault latched and FAULT LATCHED offered. Where
RAMPING is entered with PWR_GOOD already asserted, POWER GOOD follows RAMP START at once (R101, R103).
The end of the reset delay and of a reset pulse: with the hold flag set the controller is HELD, else
BOARD_RESET is released with RESET RELEASED; a RESET PULSE at the head (none where a firing started the
pulse) ends OK with its width, any other head staying as it is, CLAMPED where the width was clamped.
Each event is reported to the sequencer, ARMED or not (R98). -/
def Obligations.PowerAndResetTimersDecide : Prop :=
  ((∀ (s : State) (n : StationNo),
     (s.connector (s.connectorOf n)).pwrGood = false →
     let t := s.station n
     let pin := s.connector (s.connectorOf n)
     (due t.bpu.autoSettle s.elapsed = true →
       let allowed : Prop := t.prof.classMask.getLsbD t.bpu.cls.toNat = true ∧ t.bpu.latched = .none
       let b := t.bpu.ramped t.prof pin s.elapsed
       (allowed → exec (.autoSettleExpiry n) s
         = .next (s.putPower n { t with bpu := b } .rampStart))
       ∧ (¬ allowed → exec (.autoSettleExpiry n) s
         = .next (s.put n { t with bpu := { t.bpu with autoSettle := none } } s.attention)))
     ∧ (due t.bpu.cooldown s.elapsed = true →
       let again : Prop := t.prof.powerMode = .auto ∧ t.bpu.retry < t.prof.retryLimit
       let b := ({ t.bpu with retry := t.bpu.retry + 1 }).ramped t.prof pin s.elapsed
       let l : PowerUnit := { t.bpu with
         state := .seated, cooldown := none, latched := t.bpu.cooldownFault }
       (again → exec (.cooldownExpiry n) s
         = .next (s.putPower n { t with bpu := b } .rampStart))
       ∧ (¬ again → exec (.cooldownExpiry n) s
         = .next (s.putPower n { t with bpu := l } .faultLatched))))
    ∧ (∀ (s : State) (n : StationNo),
         let t := s.station n
         let held : PowerUnit := { t.bpu with delay := none, pulse := none, ctl := .held }
         let rel : PowerUnit := { t.bpu with delay := none, pulse := none, ctl := .released }
         (due t.bpu.delay s.elapsed = true →
           (t.bpu.hold = true → exec (.resetDelayExpiry n) s
             = .next (s.put n { t with bpu := held } s.attention))
           ∧ (t.bpu.hold = false → exec (.resetDelayExpiry n) s
             = .next (s.putPower n { t with bpu := rel } .resetReleased)))
         ∧ (due t.bpu.pulse s.elapsed = true →
           (t.head = .waiting → t.bpu.hold = false → exec (.resetPulseExpiry n) s
             = .next (s.putPower n { t with bpu := rel } .resetReleased))
           ∧ (t.head.isPulse = false →
             (t.bpu.hold = true → exec (.resetPulseExpiry n) s
               = .next (s.put n { t with bpu := held } s.attention))
             ∧ (t.bpu.hold = false → exec (.resetPulseExpiry n) s
               = .next (s.putPower n { t with bpu := rel } .resetReleased)))
           ∧ ∀ (q : QJob) (qs : List QJob) (w : Nat) (clamped : Bool), t.queue = q :: qs →
             t.head = .pulse w clamped →
             (t.bpu.hold = true → exec (.resetPulseExpiry n) s
               = .next (s.putEnd n { t with bpu := held } s.attention q.jid ⟨.ok, clamped, 0, w⟩))
             ∧ (t.bpu.hold = false → exec (.resetPulseExpiry n) s
               = .next ((s.putPower n { t with bpu := rel } .resetReleased).endAt n q.jid
                   ⟨.ok, clamped, 0, w⟩)))))
    ∧ (∀ (s : State) (n : StationNo), let t := s.station n
       (due t.bpu.autoSettle s.elapsed = true →
         exec (.autoSettleExpiry n) s = .next (s.putDecided n t))
       ∧ (due t.bpu.cooldown s.elapsed = true → t.prof.powerMode = .auto →
         t.bpu.retry < t.prof.retryLimit →
         exec (.cooldownExpiry n) s
           = .next (s.putRamp n { t with bpu := { t.bpu with retry := t.bpu.retry + 1 } }))
       ∧ (due t.bpu.cooldown s.elapsed = true →
         t.prof.powerMode ≠ .auto ∨ t.prof.retryLimit ≤ t.bpu.retry →
         exec (.cooldownExpiry n) s = .next (s.putPower n { t with bpu := { t.bpu with
           state := .seated, cooldown := none, latched := t.bpu.cooldownFault } } .faultLatched)))

/-! ## The trigger sequencer and the bench lines -/

/-- A report to an ARMED sequencer: one that does not match its step's condition does nothing; one that
matches is counted; the one that reaches the step's count fires the step. A sequencer not ARMED takes
nothing. What each action of a firing does, for a firing by match with any set of actions but RESET
PULSE: START CAPTURE leaves a STOPPED capture RECORDING, STOP CAPTURE with post count 0 leaves it
STOPPED, HALT BOARD with the link UP puts a CONTROL HALT of owner TRIGGER into a free entry, its request
at the front of the transmit list (R63, R73), and with the table full into the holder, DRIVE LINE starts
the station's drive of the step's line, ATTENTION sets TRIGGER. With none of these the station keeps its
capture, entries and drives. A report matches by Table 7-5. A firing whose only action is START CAPTURE
releases the history window of a WATCHING capture; STOP CAPTURE leaves a WATCHING one STOPPED with the
history cleared and puts a RECORDING or STOPPING one into STOPPING with the post count, or with post
count 0 STOPPED with a seal request; PULSE RESET with the power ON and BOARD_RESET released starts a
pulse, whose RESET ASSERTED record is offered and whose condition is reported in the step entered, and
else does nothing; MARK offers a MARK record with the program's marker and the step as its origin. That
the RESET ASSERTED of a firing's pulse is reported in the same command, right after the firing, is the
model's choice (log 11, DESIGN CHOICE): R123 says only that it is a separate event after the firing. A
firing by match of any set leaves the capture that START CAPTURE, the TRIGGER record, the MARK record
and STOP CAPTURE leave in that order, the TRIGGER record with the actions done and the two flags that
R12, R124 and R127 give, and a pulse's RESET ASSERTED record after them. What the rest of a release does
after the forced stop of R146 is the model's choice (log 60, DEDUCED). -/
def Obligations.ReportsAreCountedAndFire : Prop :=
  (((∀ (s : State) (n : StationNo) (u : Station) (a : BitVec 11) (x : Cond),
     (u.unarmed → s.putReport n u a x = s.put n u a)
     ∧ ∀ (i : Fin 4) (k : Nat) (timer : Option Nat) (p : Program) (st : Step),
       u.ts.state = .armed i k timer → u.ts.program = some p → p.steps[i.val]? = some st →
       (st.cond.matches x = false → s.putReport n u a x = s.put n u a)
       ∧ (st.cond.matches x = true → k + 1 < st.count → s.putReport n u a x
         = s.put n { u with ts := { u.ts with state := .armed i (k + 1) timer } } a)
       ∧ (st.cond.matches x = true → st.count ≤ k + 1 → hasAct st.matchActs 5 = false →
         ∃ v a', s.putReport n u a x = s.put n v a'
           ∧ v.ts.state = (match st.next with
             | .done => .done
             | .step j => .armed j 0 (stepTimer p j s.elapsed))
           ∧ v.ts.program = some p ∧ v.queue = u.queue ∧ v.head = u.head ∧ v.bpu = u.bpu
           ∧ v.cu = u.cu ∧ v.state = u.state ∧ v.profile = u.profile ∧ v.pageQ = u.pageQ))
    ∧ (∀ (s : State) (n : StationNo) (u : Station) (a : BitVec 11) (x : Cond) (i : Fin 4) (k : Nat)
         (timer : Option Nat) (p : Program) (st : Step),
         u.ts.state = .armed i k timer → u.ts.program = some p → p.steps[i.val]? = some st →
         st.cond.matches x = true → st.count ≤ k + 1 → hasAct st.matchActs 5 = false →
         ∃ v a', s.putReport n u a x = s.put n v a'
           ∧ (a'.getLsbD Attn.trigger.num = (a.getLsbD Attn.trigger.num || hasAct st.matchActs 7))
           ∧ (v.ts.drives = if hasAct st.matchActs 6 then
               u.ts.drives.set st.line.val (some (s.elapsed + p.driveUs * 100)) else u.ts.drives)
           ∧ (hasAct st.matchActs 0 = true → hasAct st.matchActs 3 = false → u.cap.state = .stopped →
               u.cap.loss = false → v.cap.state = .recording)
           ∧ (hasAct st.matchActs 3 = true → p.postCount = 0 → v.cap.state = .stopped)
           ∧ (hasAct st.matchActs 4 = true → u.lp.up = true → u.au.entries.length < 4 →
               v.au = { u.au with
                 entries := u.au.entries ++ [ReqSpec.entry ⟨.control, 1, [], 0, 0⟩ u.au.pickTag
                   s.elapsed u.prof.responseTimeout .trigger]
                 nextTag := tagAt u.au.pickTag.val 1 }
               ∧ v.lp = u.lp.enqueue ⟨u.au.pickTag, ⟨.control, 1, [], 0, 0⟩⟩ true)
           ∧ (hasAct st.matchActs 4 = true → u.lp.up = true → 4 ≤ u.au.entries.length →
               v.au = { u.au with holder := true } ∧ v.lp = u.lp)
           ∧ (hasAct st.matchActs 4 = false ∨ u.lp.up = false → v.au = u.au ∧ v.lp = u.lp)
           ∧ (hasAct st.matchActs 0 = false → hasAct st.matchActs 1 = false →
               hasAct st.matchActs 2 = false → hasAct st.matchActs 3 = false →
               v.cap = u.cap ∧ v.pg = u.pg)))
    ∧ ((∀ (y : StepCond) (x : Cond), y.matches x = true ↔
             (∃ lo hi v, y = .progress lo hi ∧ x = .progress v ∧ lo ≤ v ∧ v ≤ hi)
             ∨ (∃ p, y = .pattern p ∧ x = .pattern p)
             ∨ (∃ ch value mask first, y = .trace ch value mask ∧ x = .trace ch first
               ∧ (mask = 0 ∨ ∃ b, first = some b ∧ b &&& mask = value &&& mask))
             ∨ (∃ code, y = .notice code ∧ x = .notice code)
             ∨ (∃ ev, y = .power ev ∧ x = .power ev)
             ∨ (∃ l, y = .benchLine l ∧ x = .benchLine l)
             ∨ (y = .accessError ∧ x = .accessError))
         ∧ ∀ (s : State) (n : StationNo) (u : Station) (a : BitVec 11) (x : Cond) (i : Fin 4) (k : Nat)
           (timer : Option Nat) (p : Program) (st : Step),
           u.ts.state = .armed i k timer → u.ts.program = some p → p.steps[i.val]? = some st →
           st.cond.matches x = true → st.count ≤ k + 1 →
           let entered : Sequencer := { u.ts with state := match st.next with
             | .done => .done
             | .step j => .armed j 0 (stepTimer p j s.elapsed) }
           let gives (c : Capture) : Prop :=
             s.putReport n u a x = s.put n { u with ts := entered, cap := c } a
           let o := u.cap.start u.prof.timeShift s.tb
           (st.matchActs = 1#8 → u.cap.state = .watching → s.putReport n u a x
             = s.put n ({ u with ts := entered }.take o) (a ||| o.bits))
           ∧ (st.matchActs = 8#8 →
             (u.cap.state = .stopped → gives u.cap)
             ∧ (u.cap.state = .watching → gives { u.cap with state := .stopped, history := [] })
             ∧ ((∃ m, u.cap.state = .stopping m) ∨ u.cap.state = .recording →
               (0 < p.postCount → gives { u.cap with state := .stopping p.postCount })
               ∧ (p.postCount = 0 → s.putReport n u a x = s.put n
                 ({ u with ts := entered, cap := { u.cap with state := .stopped } }.sealRequest .stopped)
                 a)))
           ∧ (st.matchActs = 4#8 → s.putReport n u a x = s.putOffer n { u with ts := entered } a
             (s.recordNow (.mark p.marker (.step i) 0)))
           ∧ (st.matchActs = 32#8 →
             (u.bpu.state = .on ∧ u.bpu.ctl = .released →
               let b : PowerUnit := { u.bpu with
                 ctl := .pulse, pulse := some (s.elapsed + p.pulseWidth * 10000), held := none }
               let v : Station := { u with ts := entered, bpu := b }
               let r := v.offer s.tb (s.powerRec .resetAsserted b)
               s.putReport n u a x
                 = s.putReport n (v.take r) (a ||| r.bits) (.power .resetAsserted))
             ∧ (¬ (u.bpu.state = .on ∧ u.bpu.ctl = .released) → gives u.cap))))
    ∧ (∀ (s : State) (n : StationNo) (u : Station) (a : BitVec 11) (x : Cond) (i : Fin 4) (k : Nat)
         (timer : Option Nat) (p : Program) (st : Step),
         u.ts.state = .armed i k timer → u.ts.program = some p → p.steps[i.val]? = some st →
         st.cond.matches x = true → st.count ≤ k + 1 →
         let pulses : Prop := hasAct st.matchActs 5 = true ∧ u.bpu.state = .on ∧ u.bpu.ctl = .released
         let b : PowerUnit := { u.bpu with
           ctl := .pulse, pulse := some (s.elapsed + p.pulseWidth * 10000), held := none }
         ∃ v a' c, u.fires s p i st.cond.kind st.next .onMatch st.matchActs c
           ∧ (¬ pulses → s.putReport n u a x = s.put n v a' ∧ v.cap = c)
           ∧ (pulses → s.putReport n u a x = s.putReport n v a' (.power .resetAsserted)
             ∧ v.cap = (c.offer u.prof.timeShift s.tb (s.powerRec .resetAsserted b)).cap))

/-- At the step timer's end an ELAPSED step below its count counts and restarts its timer; any other fires,
by timeout unless it is ELAPSED. A firing whose only action is TRIGGER RECORD offers one TRIGGER record
with that action requested and done, and enters its target. A firing of any set leaves the capture that
START CAPTURE, the TRIGGER record, the MARK record and STOP CAPTURE leave in that order, the TRIGGER
record with the actions done and the two flags that R12, R124 and R127 give, and a pulse's RESET
ASSERTED record after them. That the RESET ASSERTED of a firing's pulse is reported in the same command,
right after the firing, is the model's choice (log 11, DESIGN CHOICE). What the rest of a release does
after the forced stop of R146 is the model's choice (log 60, DEDUCED). -/
def Obligations.StepTimerCountsOrFires : Prop :=
  ∀ (s : State) (n : StationNo) (i : Fin 4) (k : Nat) (timer : Option Nat) (p : Program) (st : Step),
    let t := s.station n
    t.ts.state = .armed i k timer → t.ts.program = some p → p.steps[i.val]? = some st →
    due timer s.elapsed = true →
    let enter (tgt : Target) : Station := { t with ts := { t.ts with state := match tgt with
      | .done => .done
      | .step j => .armed j 0 (stepTimer p j s.elapsed) } }
    (st.cond = .elapsed → k + 1 < st.count → st.timeoutMs ≠ 0 → exec (.stepTimerExpiry n) s
      = .next (s.put n { t with ts := { t.ts with
          state := .armed i (k + 1) (some (s.elapsed + st.timeoutMs * 100000)) } } s.attention))
    ∧ (st.cond = .elapsed → st.count ≤ k + 1 → st.matchActs = 2#8 → exec (.stepTimerExpiry n) s
      = .next (s.putOffer n (enter st.next) s.attention
          (s.recordNow (.trigger i st.next .onMatch .elapsed 2#8 2#8 false false))))
    ∧ (st.cond ≠ .elapsed → st.timeoutActs = 2#8 → exec (.stepTimerExpiry n) s
      = .next (s.putOffer n (enter st.timeoutNext) s.attention
          (s.recordNow (.trigger i st.timeoutNext .onTimeout st.cond.kind 2#8 2#8 false false))))
    ∧ (let fired (acts : BitVec 8) (tgt : Target) (cause : Cause) : Prop :=
        let pulses : Prop := hasAct acts 5 = true ∧ t.bpu.state = .on ∧ t.bpu.ctl = .released
        let b : PowerUnit := { t.bpu with
          ctl := .pulse, pulse := some (s.elapsed + p.pulseWidth * 10000), held := none }
        ∃ v a c, t.fires s p i st.cond.kind tgt cause acts c
          ∧ (¬ pulses → exec (.stepTimerExpiry n) s = .next (s.put n v a) ∧ v.cap = c)
          ∧ (pulses → exec (.stepTimerExpiry n) s
              = .next (s.putReport n v a (.power .resetAsserted))
            ∧ v.cap = (c.offer t.prof.timeShift s.tb (s.powerRec .resetAsserted b)).cap)
      (st.cond = .elapsed → st.count ≤ k + 1 → fired st.matchActs st.next .onMatch)
      ∧ (st.cond ≠ .elapsed → fired st.timeoutActs st.timeoutNext .onTimeout))

/-- A rise of a bench line is seen once and reported to every station; a fall is seen unless a station of
this card drives the line; a drive ends at its time. The model's choice, not the spec's words: a fall
while this card drives the line is ignored (log 12, DESIGN CHOICE), and a rise of an active line and a
drive's end before its time do nothing (logs 1 and 3, DEDUCED). -/
def Obligations.BenchLinesAreSeen : Prop :=
  (∀ (s : State) (l : LineNo),
      (s.lines.getLsbD l.val = true → exec (.benchLineRise l) s = .next s)
      ∧ (s.lines.getLsbD l.val = false → ∃ t, exec (.benchLineRise l) s = .next t
        ∧ (∀ i : Fin 4, t.lines.getLsbD i.val = (s.lines.getLsbD i.val || i == l))
        ∧ (∀ n, t.station n
          = (s.putReport n (s.station n) s.attention (.benchLine l.val)).station n)
        ∧ t.held = s.held ∧ t.hmp = s.hmp ∧ t.connectors = s.connectors ∧ t.tb = s.tb))
    ∧ (∀ (s : State) (l : LineNo),
      ((∃ n, (s.station n).ts.drives[l.val] ≠ none) → exec (.benchLineFall l) s = .next s)
      ∧ ((∀ n, (s.station n).ts.drives[l.val] = none) → ∃ t, exec (.benchLineFall l) s = .next t
        ∧ t = { s with lines := t.lines }
        ∧ ∀ i : Fin 4, t.lines.getLsbD i.val = (s.lines.getLsbD i.val && i != l)))
    ∧ ∀ (s : State) (n : StationNo) (l : LineNo),
      let t := s.station n
      (due t.ts.drives[l.val] s.elapsed = true → exec (.driveEnd n l) s
        = .next (s.put n { t with ts := { t.ts with drives := t.ts.drives.set l.val none } }
            s.attention))
      ∧ (due t.ts.drives[l.val] s.elapsed = false → exec (.driveEnd n l) s = .next s)

/-! ## Capture -/

/-- What CAP does with an offered record, by its capture state. STOPPED discards it. WATCHING holds it,
discarding the oldest records only as far as the window needs, or discards it when it is larger than the
window. RECORDING and STOPPING put it through admission; the offer that brings the post count to 0
leaves STOPPED and requests a seal. Admission. In NORMAL a record that leaves 24 bytes free, with the
ANCHOR it needs, joins staging; otherwise the station enters LOSS with the record as its first loss. In
LOSS with less than 4,096 bytes free the record is counted as lost. In LOSS with 4,096 bytes free or
more the station recovers first: a GAP record with the pending loss joins staging, the loss state is
NORMAL and the pending loss empty. The record that brings the lost count to its greatest value stops the
recording with a seal request (R146). The start-capture action: from STOPPED it leaves RECORDING with
the reference invalid for ENTER RECORDING; from WATCHING likewise, and the held records go through
admission oldest first, each with HISTORY; in RECORDING and STOPPING it does nothing. The model's
choice, not the spec's words: that in a capture started again in LOSS with the lost count at its
greatest value the count stays there, the next lost record adding its size to the lost byte count and
stopping the recording again (log 13, DEDUCED), that the held records released after the one whose loss
makes that stop change the lost counts alone (log 60, DEDUCED), and that the first lost unit time of an
empty pending loss is 0 (log 54, DESIGN CHOICE). -/
def Obligations.OffersFollowCaptureState : Prop :=
  ((∀ (c : Capture) (k : Nat) (tb : Tick) (r : SrcRec),
     (c.state = .stopped → c.offer k tb r = ⟨c, false, false⟩)
     ∧ (c.state = .watching → c.historySize < r.size → c.offer k tb r = ⟨c, false, false⟩)
     ∧ (c.state = .watching → r.size ≤ c.historySize →
       ∃ gone kept, c.history = gone ++ kept
         ∧ c.offer k tb r = ⟨{ c with history := kept ++ [r] }, false, false⟩
         ∧ historyBytes (kept ++ [r]) ≤ c.historySize
         ∧ ∀ d x, gone = d ++ [x] → c.historySize < historyBytes (x :: kept ++ [r]))
     ∧ (c.state = .recording → c.offer k tb r = c.admission k tb r)
     ∧ (∀ n, c.state = .stopping n → (c.admission k tb r).cap.state = .stopping n →
       (n ≤ 1 → (c.offer k tb r).cap = { (c.admission k tb r).cap with state := .stopped }
         ∧ (c.offer k tb r).sealReq = true)
       ∧ (1 < n → (c.offer k tb r).cap = { (c.admission k tb r).cap with state := .stopping (n - 1) }
         ∧ (c.offer k tb r).sealReq = (c.admission k tb r).sealReq)))
    ∧ (∀ (c : Capture) (k : Nat) (tb : Tick) (r : SrcRec), c.bounded →
         let u := unitOf k r.entry
         (c.loss = false → c.used + c.needed k u r.size + 24 ≤ 8192 →
           c.admission k tb r = ⟨c.append k u (admittedPayload r.payload k u r.first) r.flags, false, false⟩)
         ∧ (c.loss = false → 8192 < c.used + c.needed k u r.size + 24 →
           c.admission k tb r = ⟨{ c with loss := true, pend := ⟨1, r.size, u⟩ }, true, false⟩)
         ∧ (c.loss = true → 4096 < c.used → c.pend.records + 1 < 4294967295 →
           c.admission k tb r = ⟨{ c with pend := { c.pend with
             records := c.pend.records + 1
             bytes := min (c.pend.bytes + r.size) 4294967295 } }, false, false⟩)
         ∧ (c.loss = true → c.used ≤ 4096 →
           ∃ c' : Capture, c'.loss = false ∧ c'.pend = ⟨0, 0, 0⟩ ∧ c'.state = c.state ∧ c'.history = c.history
             ∧ (∃ (a : List Staged) (g : Staged), c'.staging = c.staging ++ a ++ [g]
               ∧ g.payload = .gap c.pend.records c.pend.bytes c.pend.firstUnit
               ∧ g.unit = unitOf k tb ∧ a.length ≤ 1)
             ∧ c.admission k tb r = c'.admitNormal k r)))
    ∧ ((∀ (c : Capture) (k : Nat) (tb : Tick) (r : SrcRec),
           (c.loss = true → 4096 < c.used → 4294967295 ≤ c.pend.records + 1 →
             c.state = .recording ∨ (∃ m, c.state = .stopping m) →
             c.admission k tb r = ⟨{ c with
               state := .stopped
               pend := { c.pend with
                 records := 4294967295, bytes := min (c.pend.bytes + r.size) 4294967295 } },
               false, true⟩)
           ∧ ((∃ m, c.state = .stopping m) → (c.admission k tb r).cap.state = .stopped →
             c.offer k tb r = c.admission k tb r))
         ∧ ∀ (c : Capture) (k : Nat) (tb : Tick),
           let begun : Capture := { c with
             state := .recording, ref := { c.ref with valid := false, reason := .enterRecording } }
           let admitOne (o : CapOut) (r : SrcRec) : CapOut :=
             let o' := o.cap.admission k tb { r with flags := { r.flags with history := true } }
             ⟨o'.cap, o.lossEntered || o'.lossEntered, o.sealReq || o'.sealReq⟩
           (c.state = .stopped → c.start k tb = ⟨begun, false, false⟩)
           ∧ (c.state = .watching → c.start k tb
             = c.history.foldl admitOne ⟨{ begun with history := [] }, false, false⟩)
           ∧ (c.state = .recording ∨ (∃ m, c.state = .stopping m) →
             c.start k tb = ⟨c, false, false⟩))

/-- A record that joins staging takes the next sequence number and makes the reference its unit time. With a
valid reference no more than 65,535 units behind, modulo 2^(48-k), it carries the difference as its
delta; otherwise an ANCHOR with the reason for it, carrying its own unit time and k, goes before it and
its delta is 0. A record as written: eight header bytes with its kind, flags, payload length L, delta
and sequence number, then L payload bytes, then zero padding to 8 + 8 ceil(L / 8) bytes; for a record
whose payload lies within its kind's limits. The FILL record of a remainder occupies it whole: kind 12,
no flags, payload length 8 less than the remainder, delta and sequence number 0, and a zero payload
(R19). The header's kind and flags byte (Table 12-9) and each kind's payload bytes (Table 12-10), for
values within their fields. -/
def Obligations.AdmittedRecordsCarryTimeAndPadding : Prop :=
  ((∀ (c : Capture) (k u : Nat) (p : Payload) (f : RecFlags), k ≤ 8 → u < 2 ^ (48 - k) →
     c.ref.value < 2 ^ (48 - k) →
     let d := if c.ref.value ≤ u then u - c.ref.value else u + 2 ^ (48 - k) - c.ref.value
     (c.append k u p f).ref = { c.ref with value := u, valid := true }
     ∧ (c.ref.valid = true → d ≤ 65535 →
       (c.append k u p f).staging = c.staging ++ [⟨p, f, d, c.seq, u, k⟩]
         ∧ (c.append k u p f).seq = c.seq + 1)
     ∧ (c.ref.valid = false ∨ 65535 < d →
       (c.append k u p f).staging = c.staging
           ++ [⟨.anchor u k (if c.ref.valid then .deltaOverflow else c.ref.reason),
               ⟨false, false, false, false⟩, 0, c.seq, u, k⟩, ⟨p, f, 0, c.seq + 1, u, k⟩]
         ∧ (c.append k u p f).seq = c.seq + 2))
    ∧ ((∀ (p : Payload) (f : RecFlags) (delta : Nat) (seq : BitVec 16), p.len ≤ 4056 → delta ≤ 65535 →
           let d := recordBytes p f delta seq
           d.length = 8 + 8 * ((p.len + 7) / 8)
             ∧ p.bytes.length = p.len
             ∧ field d 0 1 = p.kindCode ∧ field d 1 1 = f.code ∧ field d 2 2 = p.len
             ∧ field d 4 2 = delta ∧ field d 6 2 = seq.toNat
             ∧ (d.drop 8).take p.len = p.bytes
             ∧ ∀ b ∈ d.drop (8 + p.len), b = 0)
         ∧ ∀ r : Nat, 8 ≤ r → r ≤ 4064 → r % 8 = 0 → let d := fillBytes r
           d.length = r ∧ field d 0 1 = 12 ∧ field d 1 1 = 0 ∧ field d 2 2 = r - 8 ∧ field d 4 2 = 0
             ∧ field d 6 2 = 0 ∧ ∀ b ∈ d.drop 8, b = 0))
    ∧ ((∀ f : RecFlags, f.code = (if f.history then 1 else 0) + (if f.truncated then 2 else 0)
             + (if f.corrected then 4 else 0) + (if f.sourceError then 8 else 0))
         ∧ (∀ u k r, u < 2 ^ 48 → k ≤ 8 → let p : Payload := .anchor u k r
           let d := p.bytes
           p.kindCode = 1 ∧ d.length = 8 ∧ field d 0 6 = u ∧ field d 6 1 = k
             ∧ field d 7 1 = match r with
               | .enterRecording => 1 | .timeLoad => 2 | .deltaOverflow => 3 | .enable => 4)
         ∧ (∀ n b u, n ≤ 4294967295 → b ≤ 4294967295 → u < 2 ^ 48 → let p : Payload := .gap n b u
           let d := p.bytes
           p.kindCode = 2 ∧ d.length = 16 ∧ field d 0 4 = n ∧ field d 4 4 = b ∧ field d 8 8 = u)
         ∧ (∀ v o h, let p : Payload := .mark v o h
           let d := p.bytes
           p.kindCode = 3 ∧ d.length = 16 ∧ field d 0 4 = v.toNat
             ∧ field d 4 1 = (match o with | .job => 255 | .step i => i.val)
             ∧ field d 5 3 = 0 ∧ field d 8 8 = h.toNat)
         ∧ (∀ i tgt c y rq dn ar co, let p : Payload := .trigger i tgt c y rq dn ar co
           let d := p.bytes
           p.kindCode = 4 ∧ d.length = 8 ∧ field d 0 1 = i.val
             ∧ field d 1 1 = (match tgt with | .done => 255 | .step j => j.val)
             ∧ field d 2 1 = (match c with | .onMatch => 1 | .onTimeout => 2)
             ∧ field d 3 1 = (match y with
               | .progress => 1 | .pattern => 2 | .trace => 3 | .notice => 4 | .power => 5
               | .benchLine => 6 | .accessError => 7 | .elapsed => 8)
             ∧ byteAt d 4 = rq ∧ byteAt d 5 = dn
             ∧ field d 6 1 = (if ar then 1 else 0) + (if co then 2 else 0) ∧ field d 7 1 = 0)
         ∧ (∀ ch n bs, n ≤ 65535 → let p : Payload := .linkTrace ch n bs
           let d := p.bytes
           p.kindCode = 5 ∧ field d 0 1 = ch.toNat ∧ field d 1 1 = 0 ∧ field d 2 2 = n
             ∧ d.drop 4 = bs ∧ d.length = 4 + bs.length)
         ∧ (∀ w v, w ≤ 4 → let p : Payload := .progress w v
           let d := p.bytes
           p.kindCode = 6 ∧ d.length = 5 ∧ field d 0 1 = w ∧ field d 1 4 = v.toNat)
         ∧ (∀ code bs, let p : Payload := .notice code bs
           p.kindCode = 7 ∧ p.bytes = code :: bs)
         ∧ (∀ h : Health, h.corrected ≤ 65535 → h.discarded ≤ 65535 → h.filtered ≤ 65535 →
           h.late ≤ 65535 → h.unmatched ≤ 65535 → let p : Payload := .linkHealth h
           let d := p.bytes
           p.kindCode = 8 ∧ d.length = 12 ∧ byteAt d 0 = h.flags ∧ field d 1 1 = 0
             ∧ field d 2 2 = h.corrected ∧ field d 4 2 = h.discarded ∧ field d 6 2 = h.filtered
             ∧ field d 8 2 = h.late ∧ field d 10 2 = h.unmatched)
         ∧ (∀ (f : LineFlags) (off : Nat) (bs : List Byte), off ≤ 65535 →
           let p : Payload := .consoleLine f off bs
           let d := p.bytes
           p.kindCode = 9
             ∧ field d 0 1 = (if f.split then 1 else 0) + (if f.idleClosed then 2 else 0)
               + (if f.cut then 4 else 0) + (if f.framing then 8 else 0) + (if f.brk then 16 else 0)
             ∧ field d 1 1 = 0 ∧ field d 2 2 = off ∧ d.drop 4 = bs ∧ d.length = 4 + bs.length)
         ∧ (∀ ev st cls k retry, retry ≤ 7 → let p : Payload := .powerEvent ev st cls k retry
           let d := p.bytes
           p.kindCode = 10 ∧ d.length = 8
             ∧ field d 0 1 = (match ev with
               | .seated => 1 | .rampStart => 2 | .powerGood => 3 | .resetReleased => 4
               | .resetAsserted => 5 | .off => 6 | .removed => 7 | .faultLatched => 8
               | .rampFault => 9 | .overloadFault => 10 | .powerLostFault => 11)
             ∧ field d 1 1 = (match st with
               | .inactive => 0 | .absent => 1 | .seated => 2 | .ramping => 3 | .on => 4
               | .cooldown => 5)
             ∧ field d 2 1 = cls.toNat
             ∧ field d 3 1 = (match k with | .none => 0 | .ramp => 1 | .overload => 2 | .powerLost => 3)
             ∧ field d 4 1 = retry ∧ field d 5 3 = 0)
         ∧ ∀ tag op o tr n h a ws, n ≤ 4096 → let p : Payload := .access tag op o tr n h a ws
           let d := p.bytes
           p.kindCode = 11 ∧ d.length = 24 + 4 * ws.length ∧ field d 0 1 = tag.val
             ∧ field d 1 1 = (match op with | .read => 1 | .write => 2 | .control => 3 | .ping => 4)
             ∧ field d 2 1 = (match o with
               | .ok => 1 | .linkDown => 6 | .timeout => 7 | .boardError _ => 8)
             ∧ field d 3 1 = (match o with
               | .boardError .addressFault => 1 | .boardError .busy => 2
               | .boardError .unsupported => 3 | .boardError .length => 4 | _ => 0)
             ∧ field d 4 1 = (if tr then 1 else 0) ∧ field d 5 1 = 0 ∧ field d 6 2 = n
             ∧ field d 8 8 = h.toNat ∧ field d 16 8 = a.toNat
             ∧ ∀ i w, ws[i]? = some w → field d (24 + 4 * i) 4 = w.toNat)

/-! ## Pages -/

/-- While the device drains with no acquisition in progress, the first asking station after the station
pointer begins one with the read of the entry at the cursor (the choice among two asking stations where
no acquisition has just ended is the model's, log 35, DEDUCED); with none asking, one in progress, or
the device not draining, nothing happens. The entry read returns. EMPTY, with a page address that is a
multiple of 4,096, and no open page of it: the station takes it, FILLING is written, the cursor and
serial move on. EMPTY with another address: REFUSED is written, PAGE REFUSED set, and the next entry
read. Any other state, or the entry of an open page: the next entry is read. After the last entry,
refused or passed over, the station is starved, PAGE STARVED set once an episode. -/
def Obligations.PagesAreAcquiredInOrder : Prop :=
  ((∀ (s : State) (a : Area), s.area = some a →
     let dist (n : StationNo) : Nat := (n.val + 7 - s.hmp.stationPtr.val) % 8
     (∀ n, s.runState = .running → s.halting = false → s.acq = none → (s.station n).asks = true →
       (∀ m, (s.station m).asks = true → dist n ≤ dist m) →
       let read : Access := ⟨.page, some n, a.pageList + BitVec.ofNat 64 (16 * s.cursor), 16, none,
         .entryRead s.cursor⟩
       exec .pageAcquisition s = .next (({ s with acq := some ⟨n, s.cursor, 0⟩ }).setStation n
         { s.station n with pageQ := (s.station n).pageQ ++ [read] }))
     ∧ (s.runState ≠ .running ∨ s.halting = true ∨ s.acq ≠ none
         ∨ (∀ n, (s.station n).asks = false) → exec .pageAcquisition s = .next s))
    ∧ (∀ (s : State) (a : Area) (q : Acquisition) (id : Nat) (d : List Byte), d.length = 16 →
         s.area = some a → s.acq = some q →
         s.awaits id ⟨.page, some q.station, a.entry q.index, 16, none, .entryRead q.index⟩ →
         let n := q.station
         let t := s.station n
         let r := s.endRead id
         let page := field d 8 8
         let opened : Bool := allStations.any fun m => ((s.station m).pg.page.map OpenPage.index) == some q.index
         let next := (q.index + 1) % a.entryCount
         let on : State := { r with acq := some { q with index := next, examined := q.examined + 1 } }
         let read : Access := ⟨.page, some n, a.entry next, 16, none, .entryRead next⟩
         let filling : Access := ⟨.page, some n, a.entry q.index, 8,
           some (leBytes 1 2 ++ leBytes 1 n.val ++ [0, 0] ++ leBytes 4 s.nextSerial), .filling⟩
         let refused : Access := ⟨.page, some n, a.entry q.index, 1, some [4], .refused⟩
         (opened = false → field d 0 1 = 1 → page % 4096 = 0 →
           exec (.entryReadDone id d) s = .next (({ r with
             acq := none, cursor := next
             nextSerial := if s.nextSerial = 4294967295 then 1 else s.nextSerial + 1 }).setStation n
               { t with
                 pg := { t.pg with
                   page := some ⟨q.index, a.entry q.index, BitVec.ofNat 64 page, s.nextSerial, 0, 0, 0, 0, 0,
                     false, false⟩
                   episode := false }
                 pageQ := t.pageQ ++ [filling] }))
         ∧ (opened = false → field d 0 1 = 1 → page % 4096 ≠ 0 → q.examined + 1 < a.entryCount →
           exec (.entryReadDone id d) s = .next (({ on with
             attention := s.attention ||| Attn.pageRefused.mask }).setStation n
               { t with pageQ := t.pageQ ++ [refused, read] }))
         ∧ (opened = true ∨ field d 0 1 ≠ 1 → q.examined + 1 < a.entryCount →
           exec (.entryReadDone id d) s
             = .next (on.setStation n { t with pageQ := t.pageQ ++ [read] }))
         ∧ (opened = true ∨ field d 0 1 ≠ 1 → a.entryCount ≤ q.examined + 1 →
           exec (.entryReadDone id d) s = .next (({ r with
             acq := none
             attention := if t.pg.episode then s.attention else s.attention ||| Attn.pageStarved.mask
             }).setStation n { t with pg := { t.pg with starved := true, episode := true } }))))
    ∧ (∀ (s : State) (a : Area) (q : Acquisition) (id : Nat) (d : List Byte), d.length = 16 →
         s.area = some a → s.acq = some q →
         s.awaits id ⟨.page, some q.station, a.entry q.index, 16, none, .entryRead q.index⟩ →
         (∀ m p, (s.station m).pg.page = some p → p.index ≠ q.index) → field d 0 1 = 1 →
         field d 8 8 % 4096 ≠ 0 → a.entryCount ≤ q.examined + 1 →
         let t := s.station q.station
         exec (.entryReadDone id d) s = .next (({ s.endRead id with
           acq := none
           attention := s.attention ||| Attn.pageRefused.mask
             ||| (if t.pg.episode then 0 else Attn.pageStarved.mask) }).setStation q.station
           { t with
             pg := { t.pg with starved := true, episode := true }
             pageQ := t.pageQ
               ++ [Access.writeOf .page (some q.station) (a.entry q.index) [4] .refused] }))

/-- PGM's step at a station with a page open, nothing in hand and no seal in progress, the device draining:
a seal mark of count 0 seals the page with its reason; else the oldest staged record becomes the record
in hand, its bytes presented in pieces of at most 256 from the next free offset, when it fits the
remainder, and when it does not the page is sealed FULL with a FILL record over the remainder. With
nothing staged a QUIESCE in its drain seals QUIESCE. The idle flush timer's end seals IDLE. The pieces
in which a record is written: none longer than 256 bytes, together its bytes, at consecutive addresses
from the page's next free offset, the last one marked. The pieces of a FILL likewise, that it is cut as
a record in hand is being the model's choice (log 57, DESIGN CHOICE). What an issue brings about. The
last write of the record in hand: it leaves staging for its page, the idle flush timer restarts, a seal
mark counts one record less. The FULL write of a page: the page is sealed and PAGE SEALED set; in a
halt, once no seal write waits, the device is STOPPED. A removal in LOSS that leaves 4,096 bytes free or
more recovers: a GAP record with the pending loss joins staging, the loss state is NORMAL and the
pending loss empty; one that leaves less changes nothing else of CAP (R145, R147). A page's two seal
writes are its header (Table 12-8) and the state FULL of its entry, in that order. That the first lost
unit time of an empty pending loss is 0 is the model's choice (log 54, DESIGN CHOICE). -/
def Obligations.PagesAreDrainedAndSealed : Prop :=
  ((∀ (s : State) (n : StationNo) (p : OpenPage), s.runState = .running → s.halting = false →
     (s.station n).pg.page = some p → (s.station n).pg.inHand = none →
     (s.station n).pg.sealing = none →
     let t := s.station n
     let k := t.prof.timeShift
     let seals (why : SealReason) (u : Station) (fill : List Access) : State := s.put n
       { u with
         pg := { u.pg with sealing := some why, idleFlush := none }
         pageQ := u.pageQ ++ fill ++ sealWrites p n why k false } s.attention
     let noMark : Prop := ∀ why, t.pg.mark ≠ some ⟨0, why⟩
     (∀ why, t.pg.mark = some ⟨0, why⟩ → why ≠ .full → exec (.drainStep n) s
       = .next (seals why { t with pg := { t.pg with mark := none } } []))
     ∧ (∀ r rs, noMark → t.cap.staging = r :: rs → r.size ≤ p.remainder → exec (.drainStep n) s
       = .next (s.put n { t with
           pg := { t.pg with inHand := some r }
           pageQ := t.pageQ ++ recordWrites p n r } s.attention))
     ∧ (∀ r rs, noMark → t.cap.staging = r :: rs → p.remainder < r.size → exec (.drainStep n) s
       = .next (seals .full t (fillWrites p n)))
     ∧ (noMark → t.cap.staging = [] →
       (t.head = .quiesceDrain → exec (.drainStep n) s = .next (seals .quiesce t []))
       ∧ (t.head ≠ .quiesceDrain → exec (.drainStep n) s = .next s))
     ∧ (due t.pg.idleFlush s.elapsed = true →
       exec (.idleFlushExpiry n) s = .next (seals .idle t [])))
    ∧ (∀ (p : OpenPage) (n : StationNo) (r : Staged),
         let ws := recordWrites p n r
         (ws.flatMap fun a => a.data.getD []) = r.bytes
         ∧ (∀ a ∈ ws, 0 < a.len ∧ a.len ≤ 256 ∧ a.data.map List.length = some a.len ∧ a.cls = .page
             ∧ a.station = some n)
         ∧ (∀ (i : Nat) (a : Access), ws[i]? = some a →
             a.addr = p.addr + BitVec.ofNat 64 (32 + p.used + 256 * i)
             ∧ a.purpose = .record (i + 1 == ws.length)))
    ∧ (∀ (p : OpenPage) (n : StationNo), p.used ≤ 4064 →
         let ws := fillWrites p n
         (p.used = 4064 → ws = [])
         ∧ (p.used < 4064 → (ws.flatMap fun a => a.data.getD []) = fillBytes (4064 - p.used))
         ∧ (∀ a ∈ ws, 0 < a.len ∧ a.len ≤ 256 ∧ a.data.map List.length = some a.len ∧ a.cls = .page
             ∧ a.station = some n ∧ a.purpose = .sealPart)
         ∧ (∀ (i : Nat) (a : Access), ws[i]? = some a →
             a.addr = p.addr + BitVec.ofNat 64 (32 + p.used + 256 * i)))
    ∧ ((∀ (s : State) (n : StationNo) (addr : Word64) (d : List Byte) (r : Staged) (p : OpenPage),
           s.runState = .running → s.halting = false → s.resuming = false →
           s.nextGrant = some (Access.writeOf .page (some n) addr d (.record true)) →
           (s.station n).pg.inHand = some r → (s.station n).pg.page = some p →
           (s.station n).cap.loss = false →
           ∃ t, exec .accessGrant s = .next t ∧ t.attention = s.attention ∧ t.held = s.held
             ∧ (t.station n).cap = { (s.station n).cap with staging := (s.station n).cap.staging.tail }
             ∧ (t.station n).pg = { (s.station n).pg with
                 inHand := none
                 idleFlush := some (s.elapsed + (s.station n).prof.flushMs * 100000)
                 mark := (s.station n).pg.mark.map fun m => ⟨m.count - 1, m.reason⟩
                 page := some { p with
                   used := p.used + r.size, count := p.count + 1
                   firstSeq := if p.count = 0 then r.seq else p.firstSeq
                   base := if p.count = 0 then r.unit else p.base
                   shift := if p.count = 0 then r.shift else p.shift
                   hasGap := p.hasGap || r.payload.kindCode == 2
                   hasHistory := p.hasHistory || r.flags.history } }
             ∧ ∀ m, m ≠ n → t.station m = s.station m)
         ∧ ∀ (s : State) (n : StationNo) (addr : Word64) (d : List Byte), s.runState = .running →
           (s.halting = true → s.run = false) → s.resuming = false →
           s.nextGrant = some (Access.writeOf .page (some n) addr d (.sealFull false)) →
           (s.station n).pg.sealing ≠ some .quiesce → (s.station n).head ≠ .quiesceDrain →
           ∃ t, exec .accessGrant s = .next t
             ∧ t.attention = s.attention ||| Attn.pageSealed.mask
             ∧ (t.station n).pg = { (s.station n).pg with
                 page := none, sealing := none, inHand := none
                 mark := (s.station n).pg.mark.filter fun m => m.count != 0 }
             ∧ (t.station n).cap = (s.station n).cap
             ∧ (s.halting = true → if t.sealsWait then t.runState = .running ∧ t.halting = true
                 else t.runState = .stopped ∧ t.halting = false)
             ∧ ∀ m, m ≠ n → t.station m = s.station m))
    ∧ ((∀ (s : State) (n : StationNo) (addr : Word64) (d : List Byte) (r : Staged) (p : OpenPage),
           s.runState = .running → s.halting = false → s.resuming = false →
           s.nextGrant = some (Access.writeOf .page (some n) addr d (.record true)) →
           (s.station n).pg.inHand = some r → (s.station n).pg.page = some p →
           (s.station n).cap.loss = true →
           let rest : Capture := { (s.station n).cap with staging := (s.station n).cap.staging.tail }
           ∃ t, exec .accessGrant s = .next t
             ∧ (4096 < rest.used → (t.station n).cap = rest)
             ∧ (rest.used ≤ 4096 →
               (t.station n).cap = { rest with
                   staging := (t.station n).cap.staging, seq := (t.station n).cap.seq
                   ref := (t.station n).cap.ref, loss := false, pend := ⟨0, 0, 0⟩ }
                 ∧ ∃ (as : List Staged) (g : Staged),
                   (t.station n).cap.staging = rest.staging ++ as ++ [g] ∧ as.length ≤ 1
                   ∧ g.payload = .gap rest.pend.records rest.pend.bytes rest.pend.firstUnit
                   ∧ g.unit = unitOf (s.station n).prof.timeShift s.tb))
         ∧ ∀ (p : OpenPage) (n : StationNo) (why : SealReason) (k : Nat) (detached : Bool),
           p.serial ≤ 4294967295 → p.used ≤ 4064 → p.count ≤ 65535 → p.base < 2 ^ 64 → p.shift ≤ 8 →
           k ≤ 8 →
           let d := pageHeaderBytes p n why k
           sealWrites p n why k detached
               = [⟨.page, some n, p.addr, 32, some d, .sealPart⟩,
                  ⟨.page, some n, p.entryAddr, 1, some [3], .sealFull detached⟩]
             ∧ d.length = 32 ∧ field d 0 4 = p.serial ∧ field d 4 1 = n.val
             ∧ field d 5 1 = (match why with
               | .full => 1 | .idle => 2 | .stopped => 3 | .flush => 4 | .quiesce => 5 | .abandon => 6
               | .halt => 7 | .fault => 8)
             ∧ field d 6 1 = (if p.count = 0 then k else p.shift)
             ∧ field d 7 1 = (if p.hasGap then 1 else 0) + (if p.hasHistory then 2 else 0)
             ∧ field d 8 2 = p.count ∧ field d 10 2 = p.used
             ∧ field d 12 2 = (if p.count = 0 then 0 else p.firstSeq.toNat) ∧ field d 14 2 = 0
             ∧ field d 16 8 = (if p.count = 0 then 0 else p.base) ∧ field d 24 8 = 0)

/-! ## Invariants -/

/-- Every step keeps every station's capture within its bounds: staging holds at most 8,192 bytes, 24 of
them free outside LOSS, the history no more than its size and nothing outside WATCHING (R139, R142 to
R145). -/
def Obligations.EveryStepKeepsCaptureBounds : Prop :=
  ∀ s t : State, s.captureInv → step s = .next t → t.captureInv

/-- Every step keeps the bounds of the request tables, the queues, the pages, the map, the serial and the
arbiter's burst count (R41, R65, R66, R149, R161, R177); and it keeps every request of a transmit list
in an entry of its own, so that the list holds at most four (R63; with log 33, DEDUCED). -/
def Obligations.EveryStepKeepsTableBounds : Prop :=
  (∀ s t : State, s.boundsInv → step s = .next t → t.boundsInv)
    ∧ (∀ s t : State, s.boundsInv → s.transmitInv → step s = .next t →
         t.transmitInv)

/-- Every step keeps the held jobs different in slot and number, and no result or DONE write and no place in
a queue belongs to a job not yet numbered (R173, R179). TAKEN writes, payload reads and data writes are
not bounded here. -/
def Obligations.EveryStepKeepsJobsApart : Prop :=
  ∀ s t : State, s.jobsInv → step s = .next t → t.jobsInv

/-- The state after power-on reset has the four invariants: captures, tables, transmit lists and held jobs.
-/
def Obligations.ResetHasInvariants : Prop :=
  State.reset.captureInv ∧ State.reset.boundsInv ∧ State.reset.transmitInv
    ∧ State.reset.jobsInv
end

