-- ==== Sys2Proof/Laws/State.lean ====
section
/-! SUPPORT. One lemma per field per update of the state, of a station and of a station's context. -/

namespace Sys2Proof.Machine

/-! ## Updates of the state -/

@[simp] theorem State.setStation_tb (s : State) (n : StationNo) (t : Station) : (s.setStation n t).tb = s.tb := rfl
@[simp] theorem State.setStation_elapsed (s : State) (n : StationNo) (t : Station) : (s.setStation n t).elapsed = s.elapsed := rfl
@[simp] theorem State.setStation_pendingLoad (s : State) (n : StationNo) (t : Station) : (s.setStation n t).pendingLoad = s.pendingLoad := rfl
@[simp] theorem State.setStation_run (s : State) (n : StationNo) (t : Station) : (s.setStation n t).run = s.run := rfl
@[simp] theorem State.setStation_attMask (s : State) (n : StationNo) (t : Station) : (s.setStation n t).attMask = s.attMask := rfl
@[simp] theorem State.setStation_attention (s : State) (n : StationNo) (t : Station) : (s.setStation n t).attention = s.attention := rfl
@[simp] theorem State.setStation_runState (s : State) (n : StationNo) (t : Station) : (s.setStation n t).runState = s.runState := rfl
@[simp] theorem State.setStation_startCheck (s : State) (n : StationNo) (t : Station) : (s.setStation n t).startCheck = s.startCheck := rfl
@[simp] theorem State.setStation_faultClass (s : State) (n : StationNo) (t : Station) : (s.setStation n t).faultClass = s.faultClass := rfl
@[simp] theorem State.setStation_faultStation (s : State) (n : StationNo) (t : Station) : (s.setStation n t).faultStation = s.faultStation := rfl
@[simp] theorem State.setStation_faultAddr (s : State) (n : StationNo) (t : Station) : (s.setStation n t).faultAddr = s.faultAddr := rfl
@[simp] theorem State.setStation_areaBaseLow (s : State) (n : StationNo) (t : Station) : (s.setStation n t).areaBaseLow = s.areaBaseLow := rfl
@[simp] theorem State.setStation_areaBaseHigh (s : State) (n : StationNo) (t : Station) : (s.setStation n t).areaBaseHigh = s.areaBaseHigh := rfl
@[simp] theorem State.setStation_start (s : State) (n : StationNo) (t : Station) : (s.setStation n t).start = s.start := rfl
@[simp] theorem State.setStation_halting (s : State) (n : StationNo) (t : Station) : (s.setStation n t).halting = s.halting := rfl
@[simp] theorem State.setStation_resuming (s : State) (n : StationNo) (t : Station) : (s.setStation n t).resuming = s.resuming := rfl
@[simp] theorem State.setStation_startFault (s : State) (n : StationNo) (t : Station) : (s.setStation n t).startFault = s.startFault := rfl
@[simp] theorem State.setStation_dealAtStart (s : State) (n : StationNo) (t : Station) : (s.setStation n t).dealAtStart = s.dealAtStart := rfl
@[simp] theorem State.setStation_area (s : State) (n : StationNo) (t : Station) : (s.setStation n t).area = s.area := rfl
@[simp] theorem State.setStation_held (s : State) (n : StationNo) (t : Station) : (s.setStation n t).held = s.held := rfl
@[simp] theorem State.setStation_nextJid (s : State) (n : StationNo) (t : Station) : (s.setStation n t).nextJid = s.nextJid := rfl
@[simp] theorem State.setStation_sweep (s : State) (n : StationNo) (t : Station) : (s.setStation n t).sweep = s.sweep := rfl
@[simp] theorem State.setStation_hmp (s : State) (n : StationNo) (t : Station) : (s.setStation n t).hmp = s.hmp := rfl
@[simp] theorem State.setStation_cursor (s : State) (n : StationNo) (t : Station) : (s.setStation n t).cursor = s.cursor := rfl
@[simp] theorem State.setStation_nextSerial (s : State) (n : StationNo) (t : Station) : (s.setStation n t).nextSerial = s.nextSerial := rfl
@[simp] theorem State.setStation_acq (s : State) (n : StationNo) (t : Station) : (s.setStation n t).acq = s.acq := rfl
@[simp] theorem State.setStation_stationMap (s : State) (n : StationNo) (t : Station) : (s.setStation n t).stationMap = s.stationMap := rfl
@[simp] theorem State.setStation_connectors (s : State) (n : StationNo) (t : Station) : (s.setStation n t).connectors = s.connectors := rfl
@[simp] theorem State.setStation_lines (s : State) (n : StationNo) (t : Station) : (s.setStation n t).lines = s.lines := rfl
@[simp] theorem State.setStation_pending (s : State) (n : StationNo) (t : Station) : (s.setStation n t).pending = s.pending := rfl

@[simp] theorem State.put_tb (s : State) (n : StationNo) (u : Station) (a : BitVec 11) : (s.put n u a).tb = s.tb := rfl
@[simp] theorem State.put_elapsed (s : State) (n : StationNo) (u : Station) (a : BitVec 11) : (s.put n u a).elapsed = s.elapsed := rfl
@[simp] theorem State.put_pendingLoad (s : State) (n : StationNo) (u : Station) (a : BitVec 11) : (s.put n u a).pendingLoad = s.pendingLoad := rfl
@[simp] theorem State.put_run (s : State) (n : StationNo) (u : Station) (a : BitVec 11) : (s.put n u a).run = s.run := rfl
@[simp] theorem State.put_attMask (s : State) (n : StationNo) (u : Station) (a : BitVec 11) : (s.put n u a).attMask = s.attMask := rfl
@[simp] theorem State.put_attention (s : State) (n : StationNo) (u : Station) (a : BitVec 11) : (s.put n u a).attention = a := rfl
@[simp] theorem State.put_runState (s : State) (n : StationNo) (u : Station) (a : BitVec 11) : (s.put n u a).runState = s.runState := rfl
@[simp] theorem State.put_startCheck (s : State) (n : StationNo) (u : Station) (a : BitVec 11) : (s.put n u a).startCheck = s.startCheck := rfl
@[simp] theorem State.put_faultClass (s : State) (n : StationNo) (u : Station) (a : BitVec 11) : (s.put n u a).faultClass = s.faultClass := rfl
@[simp] theorem State.put_faultStation (s : State) (n : StationNo) (u : Station) (a : BitVec 11) : (s.put n u a).faultStation = s.faultStation := rfl
@[simp] theorem State.put_faultAddr (s : State) (n : StationNo) (u : Station) (a : BitVec 11) : (s.put n u a).faultAddr = s.faultAddr := rfl
@[simp] theorem State.put_areaBaseLow (s : State) (n : StationNo) (u : Station) (a : BitVec 11) : (s.put n u a).areaBaseLow = s.areaBaseLow := rfl
@[simp] theorem State.put_areaBaseHigh (s : State) (n : StationNo) (u : Station) (a : BitVec 11) : (s.put n u a).areaBaseHigh = s.areaBaseHigh := rfl
@[simp] theorem State.put_start (s : State) (n : StationNo) (u : Station) (a : BitVec 11) : (s.put n u a).start = s.start := rfl
@[simp] theorem State.put_halting (s : State) (n : StationNo) (u : Station) (a : BitVec 11) : (s.put n u a).halting = s.halting := rfl
@[simp] theorem State.put_resuming (s : State) (n : StationNo) (u : Station) (a : BitVec 11) : (s.put n u a).resuming = s.resuming := rfl
@[simp] theorem State.put_startFault (s : State) (n : StationNo) (u : Station) (a : BitVec 11) : (s.put n u a).startFault = s.startFault := rfl
@[simp] theorem State.put_dealAtStart (s : State) (n : StationNo) (u : Station) (a : BitVec 11) : (s.put n u a).dealAtStart = s.dealAtStart := rfl
@[simp] theorem State.put_area (s : State) (n : StationNo) (u : Station) (a : BitVec 11) : (s.put n u a).area = s.area := rfl
@[simp] theorem State.put_held (s : State) (n : StationNo) (u : Station) (a : BitVec 11) : (s.put n u a).held = s.held := rfl
@[simp] theorem State.put_nextJid (s : State) (n : StationNo) (u : Station) (a : BitVec 11) : (s.put n u a).nextJid = s.nextJid := rfl
@[simp] theorem State.put_sweep (s : State) (n : StationNo) (u : Station) (a : BitVec 11) : (s.put n u a).sweep = s.sweep := rfl
@[simp] theorem State.put_hmp (s : State) (n : StationNo) (u : Station) (a : BitVec 11) : (s.put n u a).hmp = s.hmp := rfl
@[simp] theorem State.put_cursor (s : State) (n : StationNo) (u : Station) (a : BitVec 11) : (s.put n u a).cursor = s.cursor := rfl
@[simp] theorem State.put_nextSerial (s : State) (n : StationNo) (u : Station) (a : BitVec 11) : (s.put n u a).nextSerial = s.nextSerial := rfl
@[simp] theorem State.put_acq (s : State) (n : StationNo) (u : Station) (a : BitVec 11) : (s.put n u a).acq = s.acq := rfl
@[simp] theorem State.put_stationMap (s : State) (n : StationNo) (u : Station) (a : BitVec 11) : (s.put n u a).stationMap = s.stationMap := rfl
@[simp] theorem State.put_connectors (s : State) (n : StationNo) (u : Station) (a : BitVec 11) : (s.put n u a).connectors = s.connectors := rfl
@[simp] theorem State.put_lines (s : State) (n : StationNo) (u : Station) (a : BitVec 11) : (s.put n u a).lines = s.lines := rfl
@[simp] theorem State.put_pending (s : State) (n : StationNo) (u : Station) (a : BitVec 11) : (s.put n u a).pending = s.pending := rfl

@[simp] theorem State.setAttn_tb (s : State) (a : Attn) : (s.setAttn a).tb = s.tb := rfl
@[simp] theorem State.setAttn_elapsed (s : State) (a : Attn) : (s.setAttn a).elapsed = s.elapsed := rfl
@[simp] theorem State.setAttn_pendingLoad (s : State) (a : Attn) : (s.setAttn a).pendingLoad = s.pendingLoad := rfl
@[simp] theorem State.setAttn_run (s : State) (a : Attn) : (s.setAttn a).run = s.run := rfl
@[simp] theorem State.setAttn_attMask (s : State) (a : Attn) : (s.setAttn a).attMask = s.attMask := rfl
@[simp] theorem State.setAttn_attention (s : State) (a : Attn) : (s.setAttn a).attention = s.attention ||| a.mask := rfl
@[simp] theorem State.setAttn_runState (s : State) (a : Attn) : (s.setAttn a).runState = s.runState := rfl
@[simp] theorem State.setAttn_startCheck (s : State) (a : Attn) : (s.setAttn a).startCheck = s.startCheck := rfl
@[simp] theorem State.setAttn_faultClass (s : State) (a : Attn) : (s.setAttn a).faultClass = s.faultClass := rfl
@[simp] theorem State.setAttn_faultStation (s : State) (a : Attn) : (s.setAttn a).faultStation = s.faultStation := rfl
@[simp] theorem State.setAttn_faultAddr (s : State) (a : Attn) : (s.setAttn a).faultAddr = s.faultAddr := rfl
@[simp] theorem State.setAttn_areaBaseLow (s : State) (a : Attn) : (s.setAttn a).areaBaseLow = s.areaBaseLow := rfl
@[simp] theorem State.setAttn_areaBaseHigh (s : State) (a : Attn) : (s.setAttn a).areaBaseHigh = s.areaBaseHigh := rfl
@[simp] theorem State.setAttn_start (s : State) (a : Attn) : (s.setAttn a).start = s.start := rfl
@[simp] theorem State.setAttn_halting (s : State) (a : Attn) : (s.setAttn a).halting = s.halting := rfl
@[simp] theorem State.setAttn_resuming (s : State) (a : Attn) : (s.setAttn a).resuming = s.resuming := rfl
@[simp] theorem State.setAttn_startFault (s : State) (a : Attn) : (s.setAttn a).startFault = s.startFault := rfl
@[simp] theorem State.setAttn_dealAtStart (s : State) (a : Attn) : (s.setAttn a).dealAtStart = s.dealAtStart := rfl
@[simp] theorem State.setAttn_area (s : State) (a : Attn) : (s.setAttn a).area = s.area := rfl
@[simp] theorem State.setAttn_held (s : State) (a : Attn) : (s.setAttn a).held = s.held := rfl
@[simp] theorem State.setAttn_nextJid (s : State) (a : Attn) : (s.setAttn a).nextJid = s.nextJid := rfl
@[simp] theorem State.setAttn_sweep (s : State) (a : Attn) : (s.setAttn a).sweep = s.sweep := rfl
@[simp] theorem State.setAttn_hmp (s : State) (a : Attn) : (s.setAttn a).hmp = s.hmp := rfl
@[simp] theorem State.setAttn_cursor (s : State) (a : Attn) : (s.setAttn a).cursor = s.cursor := rfl
@[simp] theorem State.setAttn_nextSerial (s : State) (a : Attn) : (s.setAttn a).nextSerial = s.nextSerial := rfl
@[simp] theorem State.setAttn_acq (s : State) (a : Attn) : (s.setAttn a).acq = s.acq := rfl
@[simp] theorem State.setAttn_stationMap (s : State) (a : Attn) : (s.setAttn a).stationMap = s.stationMap := rfl
@[simp] theorem State.setAttn_connectors (s : State) (a : Attn) : (s.setAttn a).connectors = s.connectors := rfl
@[simp] theorem State.setAttn_lines (s : State) (a : Attn) : (s.setAttn a).lines = s.lines := rfl
@[simp] theorem State.setAttn_stations (s : State) (a : Attn) : (s.setAttn a).stations = s.stations := rfl
@[simp] theorem State.setAttn_pending (s : State) (a : Attn) : (s.setAttn a).pending = s.pending := rfl

@[simp] theorem State.presentSweep_tb (s : State) (a : Access) : (s.presentSweep a).tb = s.tb := rfl
@[simp] theorem State.presentSweep_elapsed (s : State) (a : Access) : (s.presentSweep a).elapsed = s.elapsed := rfl
@[simp] theorem State.presentSweep_pendingLoad (s : State) (a : Access) : (s.presentSweep a).pendingLoad = s.pendingLoad := rfl
@[simp] theorem State.presentSweep_run (s : State) (a : Access) : (s.presentSweep a).run = s.run := rfl
@[simp] theorem State.presentSweep_attMask (s : State) (a : Access) : (s.presentSweep a).attMask = s.attMask := rfl
@[simp] theorem State.presentSweep_attention (s : State) (a : Access) : (s.presentSweep a).attention = s.attention := rfl
@[simp] theorem State.presentSweep_runState (s : State) (a : Access) : (s.presentSweep a).runState = s.runState := rfl
@[simp] theorem State.presentSweep_startCheck (s : State) (a : Access) : (s.presentSweep a).startCheck = s.startCheck := rfl
@[simp] theorem State.presentSweep_faultClass (s : State) (a : Access) : (s.presentSweep a).faultClass = s.faultClass := rfl
@[simp] theorem State.presentSweep_faultStation (s : State) (a : Access) : (s.presentSweep a).faultStation = s.faultStation := rfl
@[simp] theorem State.presentSweep_faultAddr (s : State) (a : Access) : (s.presentSweep a).faultAddr = s.faultAddr := rfl
@[simp] theorem State.presentSweep_areaBaseLow (s : State) (a : Access) : (s.presentSweep a).areaBaseLow = s.areaBaseLow := rfl
@[simp] theorem State.presentSweep_areaBaseHigh (s : State) (a : Access) : (s.presentSweep a).areaBaseHigh = s.areaBaseHigh := rfl
@[simp] theorem State.presentSweep_start (s : State) (a : Access) : (s.presentSweep a).start = s.start := rfl
@[simp] theorem State.presentSweep_halting (s : State) (a : Access) : (s.presentSweep a).halting = s.halting := rfl
@[simp] theorem State.presentSweep_resuming (s : State) (a : Access) : (s.presentSweep a).resuming = s.resuming := rfl
@[simp] theorem State.presentSweep_startFault (s : State) (a : Access) : (s.presentSweep a).startFault = s.startFault := rfl
@[simp] theorem State.presentSweep_dealAtStart (s : State) (a : Access) : (s.presentSweep a).dealAtStart = s.dealAtStart := rfl
@[simp] theorem State.presentSweep_area (s : State) (a : Access) : (s.presentSweep a).area = s.area := rfl
@[simp] theorem State.presentSweep_held (s : State) (a : Access) : (s.presentSweep a).held = s.held := rfl
@[simp] theorem State.presentSweep_nextJid (s : State) (a : Access) : (s.presentSweep a).nextJid = s.nextJid := rfl
@[simp] theorem State.presentSweep_sweep (s : State) (a : Access) : (s.presentSweep a).sweep = s.sweep := rfl
@[simp] theorem State.presentSweep_cursor (s : State) (a : Access) : (s.presentSweep a).cursor = s.cursor := rfl
@[simp] theorem State.presentSweep_nextSerial (s : State) (a : Access) : (s.presentSweep a).nextSerial = s.nextSerial := rfl
@[simp] theorem State.presentSweep_acq (s : State) (a : Access) : (s.presentSweep a).acq = s.acq := rfl
@[simp] theorem State.presentSweep_stationMap (s : State) (a : Access) : (s.presentSweep a).stationMap = s.stationMap := rfl
@[simp] theorem State.presentSweep_connectors (s : State) (a : Access) : (s.presentSweep a).connectors = s.connectors := rfl
@[simp] theorem State.presentSweep_lines (s : State) (a : Access) : (s.presentSweep a).lines = s.lines := rfl
@[simp] theorem State.presentSweep_stations (s : State) (a : Access) : (s.presentSweep a).stations = s.stations := rfl
@[simp] theorem State.presentSweep_pending (s : State) (a : Access) : (s.presentSweep a).pending = s.pending := rfl

@[simp] theorem State.presentJob_tb (s : State) (a : Access) : (s.presentJob a).tb = s.tb := rfl
@[simp] theorem State.presentJob_elapsed (s : State) (a : Access) : (s.presentJob a).elapsed = s.elapsed := rfl
@[simp] theorem State.presentJob_pendingLoad (s : State) (a : Access) : (s.presentJob a).pendingLoad = s.pendingLoad := rfl
@[simp] theorem State.presentJob_run (s : State) (a : Access) : (s.presentJob a).run = s.run := rfl
@[simp] theorem State.presentJob_attMask (s : State) (a : Access) : (s.presentJob a).attMask = s.attMask := rfl
@[simp] theorem State.presentJob_attention (s : State) (a : Access) : (s.presentJob a).attention = s.attention := rfl
@[simp] theorem State.presentJob_runState (s : State) (a : Access) : (s.presentJob a).runState = s.runState := rfl
@[simp] theorem State.presentJob_startCheck (s : State) (a : Access) : (s.presentJob a).startCheck = s.startCheck := rfl
@[simp] theorem State.presentJob_faultClass (s : State) (a : Access) : (s.presentJob a).faultClass = s.faultClass := rfl
@[simp] theorem State.presentJob_faultStation (s : State) (a : Access) : (s.presentJob a).faultStation = s.faultStation := rfl
@[simp] theorem State.presentJob_faultAddr (s : State) (a : Access) : (s.presentJob a).faultAddr = s.faultAddr := rfl
@[simp] theorem State.presentJob_areaBaseLow (s : State) (a : Access) : (s.presentJob a).areaBaseLow = s.areaBaseLow := rfl
@[simp] theorem State.presentJob_areaBaseHigh (s : State) (a : Access) : (s.presentJob a).areaBaseHigh = s.areaBaseHigh := rfl
@[simp] theorem State.presentJob_start (s : State) (a : Access) : (s.presentJob a).start = s.start := rfl
@[simp] theorem State.presentJob_halting (s : State) (a : Access) : (s.presentJob a).halting = s.halting := rfl
@[simp] theorem State.presentJob_resuming (s : State) (a : Access) : (s.presentJob a).resuming = s.resuming := rfl
@[simp] theorem State.presentJob_startFault (s : State) (a : Access) : (s.presentJob a).startFault = s.startFault := rfl
@[simp] theorem State.presentJob_dealAtStart (s : State) (a : Access) : (s.presentJob a).dealAtStart = s.dealAtStart := rfl
@[simp] theorem State.presentJob_area (s : State) (a : Access) : (s.presentJob a).area = s.area := rfl
@[simp] theorem State.presentJob_held (s : State) (a : Access) : (s.presentJob a).held = s.held := rfl
@[simp] theorem State.presentJob_nextJid (s : State) (a : Access) : (s.presentJob a).nextJid = s.nextJid := rfl
@[simp] theorem State.presentJob_sweep (s : State) (a : Access) : (s.presentJob a).sweep = s.sweep := rfl
@[simp] theorem State.presentJob_cursor (s : State) (a : Access) : (s.presentJob a).cursor = s.cursor := rfl
@[simp] theorem State.presentJob_nextSerial (s : State) (a : Access) : (s.presentJob a).nextSerial = s.nextSerial := rfl
@[simp] theorem State.presentJob_acq (s : State) (a : Access) : (s.presentJob a).acq = s.acq := rfl
@[simp] theorem State.presentJob_stationMap (s : State) (a : Access) : (s.presentJob a).stationMap = s.stationMap := rfl
@[simp] theorem State.presentJob_connectors (s : State) (a : Access) : (s.presentJob a).connectors = s.connectors := rfl
@[simp] theorem State.presentJob_lines (s : State) (a : Access) : (s.presentJob a).lines = s.lines := rfl
@[simp] theorem State.presentJob_stations (s : State) (a : Access) : (s.presentJob a).stations = s.stations := rfl
@[simp] theorem State.presentJob_pending (s : State) (a : Access) : (s.presentJob a).pending = s.pending := rfl

@[simp] theorem State.modHeld_tb (s : State) (j : Nat) (f : HeldJob → HeldJob) : (s.modHeld j f).tb = s.tb := rfl
@[simp] theorem State.modHeld_elapsed (s : State) (j : Nat) (f : HeldJob → HeldJob) : (s.modHeld j f).elapsed = s.elapsed := rfl
@[simp] theorem State.modHeld_pendingLoad (s : State) (j : Nat) (f : HeldJob → HeldJob) : (s.modHeld j f).pendingLoad = s.pendingLoad := rfl
@[simp] theorem State.modHeld_run (s : State) (j : Nat) (f : HeldJob → HeldJob) : (s.modHeld j f).run = s.run := rfl
@[simp] theorem State.modHeld_attMask (s : State) (j : Nat) (f : HeldJob → HeldJob) : (s.modHeld j f).attMask = s.attMask := rfl
@[simp] theorem State.modHeld_attention (s : State) (j : Nat) (f : HeldJob → HeldJob) : (s.modHeld j f).attention = s.attention := rfl
@[simp] theorem State.modHeld_runState (s : State) (j : Nat) (f : HeldJob → HeldJob) : (s.modHeld j f).runState = s.runState := rfl
@[simp] theorem State.modHeld_startCheck (s : State) (j : Nat) (f : HeldJob → HeldJob) : (s.modHeld j f).startCheck = s.startCheck := rfl
@[simp] theorem State.modHeld_faultClass (s : State) (j : Nat) (f : HeldJob → HeldJob) : (s.modHeld j f).faultClass = s.faultClass := rfl
@[simp] theorem State.modHeld_faultStation (s : State) (j : Nat) (f : HeldJob → HeldJob) : (s.modHeld j f).faultStation = s.faultStation := rfl
@[simp] theorem State.modHeld_faultAddr (s : State) (j : Nat) (f : HeldJob → HeldJob) : (s.modHeld j f).faultAddr = s.faultAddr := rfl
@[simp] theorem State.modHeld_areaBaseLow (s : State) (j : Nat) (f : HeldJob → HeldJob) : (s.modHeld j f).areaBaseLow = s.areaBaseLow := rfl
@[simp] theorem State.modHeld_areaBaseHigh (s : State) (j : Nat) (f : HeldJob → HeldJob) : (s.modHeld j f).areaBaseHigh = s.areaBaseHigh := rfl
@[simp] theorem State.modHeld_start (s : State) (j : Nat) (f : HeldJob → HeldJob) : (s.modHeld j f).start = s.start := rfl
@[simp] theorem State.modHeld_halting (s : State) (j : Nat) (f : HeldJob → HeldJob) : (s.modHeld j f).halting = s.halting := rfl
@[simp] theorem State.modHeld_resuming (s : State) (j : Nat) (f : HeldJob → HeldJob) : (s.modHeld j f).resuming = s.resuming := rfl
@[simp] theorem State.modHeld_startFault (s : State) (j : Nat) (f : HeldJob → HeldJob) : (s.modHeld j f).startFault = s.startFault := rfl
@[simp] theorem State.modHeld_dealAtStart (s : State) (j : Nat) (f : HeldJob → HeldJob) : (s.modHeld j f).dealAtStart = s.dealAtStart := rfl
@[simp] theorem State.modHeld_area (s : State) (j : Nat) (f : HeldJob → HeldJob) : (s.modHeld j f).area = s.area := rfl
@[simp] theorem State.modHeld_nextJid (s : State) (j : Nat) (f : HeldJob → HeldJob) : (s.modHeld j f).nextJid = s.nextJid := rfl
@[simp] theorem State.modHeld_sweep (s : State) (j : Nat) (f : HeldJob → HeldJob) : (s.modHeld j f).sweep = s.sweep := rfl
@[simp] theorem State.modHeld_hmp (s : State) (j : Nat) (f : HeldJob → HeldJob) : (s.modHeld j f).hmp = s.hmp := rfl
@[simp] theorem State.modHeld_cursor (s : State) (j : Nat) (f : HeldJob → HeldJob) : (s.modHeld j f).cursor = s.cursor := rfl
@[simp] theorem State.modHeld_nextSerial (s : State) (j : Nat) (f : HeldJob → HeldJob) : (s.modHeld j f).nextSerial = s.nextSerial := rfl
@[simp] theorem State.modHeld_acq (s : State) (j : Nat) (f : HeldJob → HeldJob) : (s.modHeld j f).acq = s.acq := rfl
@[simp] theorem State.modHeld_stationMap (s : State) (j : Nat) (f : HeldJob → HeldJob) : (s.modHeld j f).stationMap = s.stationMap := rfl
@[simp] theorem State.modHeld_connectors (s : State) (j : Nat) (f : HeldJob → HeldJob) : (s.modHeld j f).connectors = s.connectors := rfl
@[simp] theorem State.modHeld_lines (s : State) (j : Nat) (f : HeldJob → HeldJob) : (s.modHeld j f).lines = s.lines := rfl
@[simp] theorem State.modHeld_stations (s : State) (j : Nat) (f : HeldJob → HeldJob) : (s.modHeld j f).stations = s.stations := rfl
@[simp] theorem State.modHeld_pending (s : State) (j : Nat) (f : HeldJob → HeldJob) : (s.modHeld j f).pending = s.pending := rfl

@[simp] theorem State.addHeld_tb (s : State) (h : HeldJob) : (s.addHeld h).tb = s.tb := rfl
@[simp] theorem State.addHeld_elapsed (s : State) (h : HeldJob) : (s.addHeld h).elapsed = s.elapsed := rfl
@[simp] theorem State.addHeld_pendingLoad (s : State) (h : HeldJob) : (s.addHeld h).pendingLoad = s.pendingLoad := rfl
@[simp] theorem State.addHeld_run (s : State) (h : HeldJob) : (s.addHeld h).run = s.run := rfl
@[simp] theorem State.addHeld_attMask (s : State) (h : HeldJob) : (s.addHeld h).attMask = s.attMask := rfl
@[simp] theorem State.addHeld_attention (s : State) (h : HeldJob) : (s.addHeld h).attention = s.attention := rfl
@[simp] theorem State.addHeld_runState (s : State) (h : HeldJob) : (s.addHeld h).runState = s.runState := rfl
@[simp] theorem State.addHeld_startCheck (s : State) (h : HeldJob) : (s.addHeld h).startCheck = s.startCheck := rfl
@[simp] theorem State.addHeld_faultClass (s : State) (h : HeldJob) : (s.addHeld h).faultClass = s.faultClass := rfl
@[simp] theorem State.addHeld_faultStation (s : State) (h : HeldJob) : (s.addHeld h).faultStation = s.faultStation := rfl
@[simp] theorem State.addHeld_faultAddr (s : State) (h : HeldJob) : (s.addHeld h).faultAddr = s.faultAddr := rfl
@[simp] theorem State.addHeld_areaBaseLow (s : State) (h : HeldJob) : (s.addHeld h).areaBaseLow = s.areaBaseLow := rfl
@[simp] theorem State.addHeld_areaBaseHigh (s : State) (h : HeldJob) : (s.addHeld h).areaBaseHigh = s.areaBaseHigh := rfl
@[simp] theorem State.addHeld_start (s : State) (h : HeldJob) : (s.addHeld h).start = s.start := rfl
@[simp] theorem State.addHeld_halting (s : State) (h : HeldJob) : (s.addHeld h).halting = s.halting := rfl
@[simp] theorem State.addHeld_resuming (s : State) (h : HeldJob) : (s.addHeld h).resuming = s.resuming := rfl
@[simp] theorem State.addHeld_startFault (s : State) (h : HeldJob) : (s.addHeld h).startFault = s.startFault := rfl
@[simp] theorem State.addHeld_dealAtStart (s : State) (h : HeldJob) : (s.addHeld h).dealAtStart = s.dealAtStart := rfl
@[simp] theorem State.addHeld_area (s : State) (h : HeldJob) : (s.addHeld h).area = s.area := rfl
@[simp] theorem State.addHeld_held (s : State) (h : HeldJob) : (s.addHeld h).held = s.held ++ [h] := rfl
@[simp] theorem State.addHeld_nextJid (s : State) (h : HeldJob) : (s.addHeld h).nextJid = s.nextJid := rfl
@[simp] theorem State.addHeld_sweep (s : State) (h : HeldJob) : (s.addHeld h).sweep = s.sweep := rfl
@[simp] theorem State.addHeld_hmp (s : State) (h : HeldJob) : (s.addHeld h).hmp = s.hmp := rfl
@[simp] theorem State.addHeld_cursor (s : State) (h : HeldJob) : (s.addHeld h).cursor = s.cursor := rfl
@[simp] theorem State.addHeld_nextSerial (s : State) (h : HeldJob) : (s.addHeld h).nextSerial = s.nextSerial := rfl
@[simp] theorem State.addHeld_acq (s : State) (h : HeldJob) : (s.addHeld h).acq = s.acq := rfl
@[simp] theorem State.addHeld_stationMap (s : State) (h : HeldJob) : (s.addHeld h).stationMap = s.stationMap := rfl
@[simp] theorem State.addHeld_connectors (s : State) (h : HeldJob) : (s.addHeld h).connectors = s.connectors := rfl
@[simp] theorem State.addHeld_lines (s : State) (h : HeldJob) : (s.addHeld h).lines = s.lines := rfl
@[simp] theorem State.addHeld_stations (s : State) (h : HeldJob) : (s.addHeld h).stations = s.stations := rfl
@[simp] theorem State.addHeld_pending (s : State) (h : HeldJob) : (s.addHeld h).pending = s.pending := rfl

@[simp] theorem State.releaseHeld_tb (s : State) (j : Nat) : (s.releaseHeld j).tb = s.tb := rfl
@[simp] theorem State.releaseHeld_elapsed (s : State) (j : Nat) : (s.releaseHeld j).elapsed = s.elapsed := rfl
@[simp] theorem State.releaseHeld_pendingLoad (s : State) (j : Nat) : (s.releaseHeld j).pendingLoad = s.pendingLoad := rfl
@[simp] theorem State.releaseHeld_run (s : State) (j : Nat) : (s.releaseHeld j).run = s.run := rfl
@[simp] theorem State.releaseHeld_attMask (s : State) (j : Nat) : (s.releaseHeld j).attMask = s.attMask := rfl
@[simp] theorem State.releaseHeld_attention (s : State) (j : Nat) : (s.releaseHeld j).attention = s.attention := rfl
@[simp] theorem State.releaseHeld_runState (s : State) (j : Nat) : (s.releaseHeld j).runState = s.runState := rfl
@[simp] theorem State.releaseHeld_startCheck (s : State) (j : Nat) : (s.releaseHeld j).startCheck = s.startCheck := rfl
@[simp] theorem State.releaseHeld_faultClass (s : State) (j : Nat) : (s.releaseHeld j).faultClass = s.faultClass := rfl
@[simp] theorem State.releaseHeld_faultStation (s : State) (j : Nat) : (s.releaseHeld j).faultStation = s.faultStation := rfl
@[simp] theorem State.releaseHeld_faultAddr (s : State) (j : Nat) : (s.releaseHeld j).faultAddr = s.faultAddr := rfl
@[simp] theorem State.releaseHeld_areaBaseLow (s : State) (j : Nat) : (s.releaseHeld j).areaBaseLow = s.areaBaseLow := rfl
@[simp] theorem State.releaseHeld_areaBaseHigh (s : State) (j : Nat) : (s.releaseHeld j).areaBaseHigh = s.areaBaseHigh := rfl
@[simp] theorem State.releaseHeld_start (s : State) (j : Nat) : (s.releaseHeld j).start = s.start := rfl
@[simp] theorem State.releaseHeld_halting (s : State) (j : Nat) : (s.releaseHeld j).halting = s.halting := rfl
@[simp] theorem State.releaseHeld_resuming (s : State) (j : Nat) : (s.releaseHeld j).resuming = s.resuming := rfl
@[simp] theorem State.releaseHeld_startFault (s : State) (j : Nat) : (s.releaseHeld j).startFault = s.startFault := rfl
@[simp] theorem State.releaseHeld_dealAtStart (s : State) (j : Nat) : (s.releaseHeld j).dealAtStart = s.dealAtStart := rfl
@[simp] theorem State.releaseHeld_area (s : State) (j : Nat) : (s.releaseHeld j).area = s.area := rfl
@[simp] theorem State.releaseHeld_nextJid (s : State) (j : Nat) : (s.releaseHeld j).nextJid = s.nextJid := rfl
@[simp] theorem State.releaseHeld_sweep (s : State) (j : Nat) : (s.releaseHeld j).sweep = s.sweep := rfl
@[simp] theorem State.releaseHeld_hmp (s : State) (j : Nat) : (s.releaseHeld j).hmp = s.hmp := rfl
@[simp] theorem State.releaseHeld_cursor (s : State) (j : Nat) : (s.releaseHeld j).cursor = s.cursor := rfl
@[simp] theorem State.releaseHeld_nextSerial (s : State) (j : Nat) : (s.releaseHeld j).nextSerial = s.nextSerial := rfl
@[simp] theorem State.releaseHeld_acq (s : State) (j : Nat) : (s.releaseHeld j).acq = s.acq := rfl
@[simp] theorem State.releaseHeld_stationMap (s : State) (j : Nat) : (s.releaseHeld j).stationMap = s.stationMap := rfl
@[simp] theorem State.releaseHeld_connectors (s : State) (j : Nat) : (s.releaseHeld j).connectors = s.connectors := rfl
@[simp] theorem State.releaseHeld_lines (s : State) (j : Nat) : (s.releaseHeld j).lines = s.lines := rfl
@[simp] theorem State.releaseHeld_stations (s : State) (j : Nat) : (s.releaseHeld j).stations = s.stations := rfl
@[simp] theorem State.releaseHeld_pending (s : State) (j : Nat) : (s.releaseHeld j).pending = s.pending := rfl

@[simp] theorem State.modConnector_tb (s : State) (c : ConnectorNo) (f : Connector → Connector) : (s.modConnector c f).tb = s.tb := rfl
@[simp] theorem State.modConnector_elapsed (s : State) (c : ConnectorNo) (f : Connector → Connector) : (s.modConnector c f).elapsed = s.elapsed := rfl
@[simp] theorem State.modConnector_pendingLoad (s : State) (c : ConnectorNo) (f : Connector → Connector) : (s.modConnector c f).pendingLoad = s.pendingLoad := rfl
@[simp] theorem State.modConnector_run (s : State) (c : ConnectorNo) (f : Connector → Connector) : (s.modConnector c f).run = s.run := rfl
@[simp] theorem State.modConnector_attMask (s : State) (c : ConnectorNo) (f : Connector → Connector) : (s.modConnector c f).attMask = s.attMask := rfl
@[simp] theorem State.modConnector_attention (s : State) (c : ConnectorNo) (f : Connector → Connector) : (s.modConnector c f).attention = s.attention := rfl
@[simp] theorem State.modConnector_runState (s : State) (c : ConnectorNo) (f : Connector → Connector) : (s.modConnector c f).runState = s.runState := rfl
@[simp] theorem State.modConnector_startCheck (s : State) (c : ConnectorNo) (f : Connector → Connector) : (s.modConnector c f).startCheck = s.startCheck := rfl
@[simp] theorem State.modConnector_faultClass (s : State) (c : ConnectorNo) (f : Connector → Connector) : (s.modConnector c f).faultClass = s.faultClass := rfl
@[simp] theorem State.modConnector_faultStation (s : State) (c : ConnectorNo) (f : Connector → Connector) : (s.modConnector c f).faultStation = s.faultStation := rfl
@[simp] theorem State.modConnector_faultAddr (s : State) (c : ConnectorNo) (f : Connector → Connector) : (s.modConnector c f).faultAddr = s.faultAddr := rfl
@[simp] theorem State.modConnector_areaBaseLow (s : State) (c : ConnectorNo) (f : Connector → Connector) : (s.modConnector c f).areaBaseLow = s.areaBaseLow := rfl
@[simp] theorem State.modConnector_areaBaseHigh (s : State) (c : ConnectorNo) (f : Connector → Connector) : (s.modConnector c f).areaBaseHigh = s.areaBaseHigh := rfl
@[simp] theorem State.modConnector_start (s : State) (c : ConnectorNo) (f : Connector → Connector) : (s.modConnector c f).start = s.start := rfl
@[simp] theorem State.modConnector_halting (s : State) (c : ConnectorNo) (f : Connector → Connector) : (s.modConnector c f).halting = s.halting := rfl
@[simp] theorem State.modConnector_resuming (s : State) (c : ConnectorNo) (f : Connector → Connector) : (s.modConnector c f).resuming = s.resuming := rfl
@[simp] theorem State.modConnector_startFault (s : State) (c : ConnectorNo) (f : Connector → Connector) : (s.modConnector c f).startFault = s.startFault := rfl
@[simp] theorem State.modConnector_dealAtStart (s : State) (c : ConnectorNo) (f : Connector → Connector) : (s.modConnector c f).dealAtStart = s.dealAtStart := rfl
@[simp] theorem State.modConnector_area (s : State) (c : ConnectorNo) (f : Connector → Connector) : (s.modConnector c f).area = s.area := rfl
@[simp] theorem State.modConnector_held (s : State) (c : ConnectorNo) (f : Connector → Connector) : (s.modConnector c f).held = s.held := rfl
@[simp] theorem State.modConnector_nextJid (s : State) (c : ConnectorNo) (f : Connector → Connector) : (s.modConnector c f).nextJid = s.nextJid := rfl
@[simp] theorem State.modConnector_sweep (s : State) (c : ConnectorNo) (f : Connector → Connector) : (s.modConnector c f).sweep = s.sweep := rfl
@[simp] theorem State.modConnector_hmp (s : State) (c : ConnectorNo) (f : Connector → Connector) : (s.modConnector c f).hmp = s.hmp := rfl
@[simp] theorem State.modConnector_cursor (s : State) (c : ConnectorNo) (f : Connector → Connector) : (s.modConnector c f).cursor = s.cursor := rfl
@[simp] theorem State.modConnector_nextSerial (s : State) (c : ConnectorNo) (f : Connector → Connector) : (s.modConnector c f).nextSerial = s.nextSerial := rfl
@[simp] theorem State.modConnector_acq (s : State) (c : ConnectorNo) (f : Connector → Connector) : (s.modConnector c f).acq = s.acq := rfl
@[simp] theorem State.modConnector_stationMap (s : State) (c : ConnectorNo) (f : Connector → Connector) : (s.modConnector c f).stationMap = s.stationMap := rfl
@[simp] theorem State.modConnector_lines (s : State) (c : ConnectorNo) (f : Connector → Connector) : (s.modConnector c f).lines = s.lines := rfl
@[simp] theorem State.modConnector_stations (s : State) (c : ConnectorNo) (f : Connector → Connector) : (s.modConnector c f).stations = s.stations := rfl
@[simp] theorem State.modConnector_pending (s : State) (c : ConnectorNo) (f : Connector → Connector) : (s.modConnector c f).pending = s.pending := rfl

@[simp] theorem State.mapStations_tb (s : State) (f : Station → Station) : (s.mapStations f).tb = s.tb := rfl
@[simp] theorem State.mapStations_elapsed (s : State) (f : Station → Station) : (s.mapStations f).elapsed = s.elapsed := rfl
@[simp] theorem State.mapStations_pendingLoad (s : State) (f : Station → Station) : (s.mapStations f).pendingLoad = s.pendingLoad := rfl
@[simp] theorem State.mapStations_run (s : State) (f : Station → Station) : (s.mapStations f).run = s.run := rfl
@[simp] theorem State.mapStations_attMask (s : State) (f : Station → Station) : (s.mapStations f).attMask = s.attMask := rfl
@[simp] theorem State.mapStations_attention (s : State) (f : Station → Station) : (s.mapStations f).attention = s.attention := rfl
@[simp] theorem State.mapStations_runState (s : State) (f : Station → Station) : (s.mapStations f).runState = s.runState := rfl
@[simp] theorem State.mapStations_startCheck (s : State) (f : Station → Station) : (s.mapStations f).startCheck = s.startCheck := rfl
@[simp] theorem State.mapStations_faultClass (s : State) (f : Station → Station) : (s.mapStations f).faultClass = s.faultClass := rfl
@[simp] theorem State.mapStations_faultStation (s : State) (f : Station → Station) : (s.mapStations f).faultStation = s.faultStation := rfl
@[simp] theorem State.mapStations_faultAddr (s : State) (f : Station → Station) : (s.mapStations f).faultAddr = s.faultAddr := rfl
@[simp] theorem State.mapStations_areaBaseLow (s : State) (f : Station → Station) : (s.mapStations f).areaBaseLow = s.areaBaseLow := rfl
@[simp] theorem State.mapStations_areaBaseHigh (s : State) (f : Station → Station) : (s.mapStations f).areaBaseHigh = s.areaBaseHigh := rfl
@[simp] theorem State.mapStations_start (s : State) (f : Station → Station) : (s.mapStations f).start = s.start := rfl
@[simp] theorem State.mapStations_halting (s : State) (f : Station → Station) : (s.mapStations f).halting = s.halting := rfl
@[simp] theorem State.mapStations_resuming (s : State) (f : Station → Station) : (s.mapStations f).resuming = s.resuming := rfl
@[simp] theorem State.mapStations_startFault (s : State) (f : Station → Station) : (s.mapStations f).startFault = s.startFault := rfl
@[simp] theorem State.mapStations_dealAtStart (s : State) (f : Station → Station) : (s.mapStations f).dealAtStart = s.dealAtStart := rfl
@[simp] theorem State.mapStations_area (s : State) (f : Station → Station) : (s.mapStations f).area = s.area := rfl
@[simp] theorem State.mapStations_held (s : State) (f : Station → Station) : (s.mapStations f).held = s.held := rfl
@[simp] theorem State.mapStations_nextJid (s : State) (f : Station → Station) : (s.mapStations f).nextJid = s.nextJid := rfl
@[simp] theorem State.mapStations_sweep (s : State) (f : Station → Station) : (s.mapStations f).sweep = s.sweep := rfl
@[simp] theorem State.mapStations_hmp (s : State) (f : Station → Station) : (s.mapStations f).hmp = s.hmp := rfl
@[simp] theorem State.mapStations_cursor (s : State) (f : Station → Station) : (s.mapStations f).cursor = s.cursor := rfl
@[simp] theorem State.mapStations_nextSerial (s : State) (f : Station → Station) : (s.mapStations f).nextSerial = s.nextSerial := rfl
@[simp] theorem State.mapStations_acq (s : State) (f : Station → Station) : (s.mapStations f).acq = s.acq := rfl
@[simp] theorem State.mapStations_stationMap (s : State) (f : Station → Station) : (s.mapStations f).stationMap = s.stationMap := rfl
@[simp] theorem State.mapStations_connectors (s : State) (f : Station → Station) : (s.mapStations f).connectors = s.connectors := rfl
@[simp] theorem State.mapStations_lines (s : State) (f : Station → Station) : (s.mapStations f).lines = s.lines := rfl
@[simp] theorem State.mapStations_pending (s : State) (f : Station → Station) : (s.mapStations f).pending = s.pending := rfl

@[simp] theorem State.makeStale_tb (s : State) (p : Purpose → Bool) : (s.makeStale p).tb = s.tb := rfl
@[simp] theorem State.makeStale_elapsed (s : State) (p : Purpose → Bool) : (s.makeStale p).elapsed = s.elapsed := rfl
@[simp] theorem State.makeStale_pendingLoad (s : State) (p : Purpose → Bool) : (s.makeStale p).pendingLoad = s.pendingLoad := rfl
@[simp] theorem State.makeStale_run (s : State) (p : Purpose → Bool) : (s.makeStale p).run = s.run := rfl
@[simp] theorem State.makeStale_attMask (s : State) (p : Purpose → Bool) : (s.makeStale p).attMask = s.attMask := rfl
@[simp] theorem State.makeStale_attention (s : State) (p : Purpose → Bool) : (s.makeStale p).attention = s.attention := rfl
@[simp] theorem State.makeStale_runState (s : State) (p : Purpose → Bool) : (s.makeStale p).runState = s.runState := rfl
@[simp] theorem State.makeStale_startCheck (s : State) (p : Purpose → Bool) : (s.makeStale p).startCheck = s.startCheck := rfl
@[simp] theorem State.makeStale_faultClass (s : State) (p : Purpose → Bool) : (s.makeStale p).faultClass = s.faultClass := rfl
@[simp] theorem State.makeStale_faultStation (s : State) (p : Purpose → Bool) : (s.makeStale p).faultStation = s.faultStation := rfl
@[simp] theorem State.makeStale_faultAddr (s : State) (p : Purpose → Bool) : (s.makeStale p).faultAddr = s.faultAddr := rfl
@[simp] theorem State.makeStale_areaBaseLow (s : State) (p : Purpose → Bool) : (s.makeStale p).areaBaseLow = s.areaBaseLow := rfl
@[simp] theorem State.makeStale_areaBaseHigh (s : State) (p : Purpose → Bool) : (s.makeStale p).areaBaseHigh = s.areaBaseHigh := rfl
@[simp] theorem State.makeStale_start (s : State) (p : Purpose → Bool) : (s.makeStale p).start = s.start := rfl
@[simp] theorem State.makeStale_halting (s : State) (p : Purpose → Bool) : (s.makeStale p).halting = s.halting := rfl
@[simp] theorem State.makeStale_resuming (s : State) (p : Purpose → Bool) : (s.makeStale p).resuming = s.resuming := rfl
@[simp] theorem State.makeStale_startFault (s : State) (p : Purpose → Bool) : (s.makeStale p).startFault = s.startFault := rfl
@[simp] theorem State.makeStale_dealAtStart (s : State) (p : Purpose → Bool) : (s.makeStale p).dealAtStart = s.dealAtStart := rfl
@[simp] theorem State.makeStale_area (s : State) (p : Purpose → Bool) : (s.makeStale p).area = s.area := rfl
@[simp] theorem State.makeStale_held (s : State) (p : Purpose → Bool) : (s.makeStale p).held = s.held := rfl
@[simp] theorem State.makeStale_nextJid (s : State) (p : Purpose → Bool) : (s.makeStale p).nextJid = s.nextJid := rfl
@[simp] theorem State.makeStale_sweep (s : State) (p : Purpose → Bool) : (s.makeStale p).sweep = s.sweep := rfl
@[simp] theorem State.makeStale_cursor (s : State) (p : Purpose → Bool) : (s.makeStale p).cursor = s.cursor := rfl
@[simp] theorem State.makeStale_nextSerial (s : State) (p : Purpose → Bool) : (s.makeStale p).nextSerial = s.nextSerial := rfl
@[simp] theorem State.makeStale_acq (s : State) (p : Purpose → Bool) : (s.makeStale p).acq = s.acq := rfl
@[simp] theorem State.makeStale_stationMap (s : State) (p : Purpose → Bool) : (s.makeStale p).stationMap = s.stationMap := rfl
@[simp] theorem State.makeStale_connectors (s : State) (p : Purpose → Bool) : (s.makeStale p).connectors = s.connectors := rfl
@[simp] theorem State.makeStale_lines (s : State) (p : Purpose → Bool) : (s.makeStale p).lines = s.lines := rfl
@[simp] theorem State.makeStale_stations (s : State) (p : Purpose → Bool) : (s.makeStale p).stations = s.stations := rfl
@[simp] theorem State.makeStale_pending (s : State) (p : Purpose → Bool) : (s.makeStale p).pending = s.pending := rfl

@[simp] theorem State.endRead_tb (s : State) (id : Nat) : (s.endRead id).tb = s.tb := rfl
@[simp] theorem State.endRead_elapsed (s : State) (id : Nat) : (s.endRead id).elapsed = s.elapsed := rfl
@[simp] theorem State.endRead_pendingLoad (s : State) (id : Nat) : (s.endRead id).pendingLoad = s.pendingLoad := rfl
@[simp] theorem State.endRead_run (s : State) (id : Nat) : (s.endRead id).run = s.run := rfl
@[simp] theorem State.endRead_attMask (s : State) (id : Nat) : (s.endRead id).attMask = s.attMask := rfl
@[simp] theorem State.endRead_attention (s : State) (id : Nat) : (s.endRead id).attention = s.attention := rfl
@[simp] theorem State.endRead_runState (s : State) (id : Nat) : (s.endRead id).runState = s.runState := rfl
@[simp] theorem State.endRead_startCheck (s : State) (id : Nat) : (s.endRead id).startCheck = s.startCheck := rfl
@[simp] theorem State.endRead_faultClass (s : State) (id : Nat) : (s.endRead id).faultClass = s.faultClass := rfl
@[simp] theorem State.endRead_faultStation (s : State) (id : Nat) : (s.endRead id).faultStation = s.faultStation := rfl
@[simp] theorem State.endRead_faultAddr (s : State) (id : Nat) : (s.endRead id).faultAddr = s.faultAddr := rfl
@[simp] theorem State.endRead_areaBaseLow (s : State) (id : Nat) : (s.endRead id).areaBaseLow = s.areaBaseLow := rfl
@[simp] theorem State.endRead_areaBaseHigh (s : State) (id : Nat) : (s.endRead id).areaBaseHigh = s.areaBaseHigh := rfl
@[simp] theorem State.endRead_start (s : State) (id : Nat) : (s.endRead id).start = s.start := rfl
@[simp] theorem State.endRead_halting (s : State) (id : Nat) : (s.endRead id).halting = s.halting := rfl
@[simp] theorem State.endRead_resuming (s : State) (id : Nat) : (s.endRead id).resuming = s.resuming := rfl
@[simp] theorem State.endRead_startFault (s : State) (id : Nat) : (s.endRead id).startFault = s.startFault := rfl
@[simp] theorem State.endRead_dealAtStart (s : State) (id : Nat) : (s.endRead id).dealAtStart = s.dealAtStart := rfl
@[simp] theorem State.endRead_area (s : State) (id : Nat) : (s.endRead id).area = s.area := rfl
@[simp] theorem State.endRead_held (s : State) (id : Nat) : (s.endRead id).held = s.held := rfl
@[simp] theorem State.endRead_nextJid (s : State) (id : Nat) : (s.endRead id).nextJid = s.nextJid := rfl
@[simp] theorem State.endRead_sweep (s : State) (id : Nat) : (s.endRead id).sweep = s.sweep := rfl
@[simp] theorem State.endRead_cursor (s : State) (id : Nat) : (s.endRead id).cursor = s.cursor := rfl
@[simp] theorem State.endRead_nextSerial (s : State) (id : Nat) : (s.endRead id).nextSerial = s.nextSerial := rfl
@[simp] theorem State.endRead_acq (s : State) (id : Nat) : (s.endRead id).acq = s.acq := rfl
@[simp] theorem State.endRead_stationMap (s : State) (id : Nat) : (s.endRead id).stationMap = s.stationMap := rfl
@[simp] theorem State.endRead_connectors (s : State) (id : Nat) : (s.endRead id).connectors = s.connectors := rfl
@[simp] theorem State.endRead_lines (s : State) (id : Nat) : (s.endRead id).lines = s.lines := rfl
@[simp] theorem State.endRead_stations (s : State) (id : Nat) : (s.endRead id).stations = s.stations := rfl
@[simp] theorem State.endRead_pending (s : State) (id : Nat) : (s.endRead id).pending = s.pending := rfl

@[simp] theorem State.withdraw_tb (s : State) (j : Nat) : (s.withdraw j).tb = s.tb := rfl
@[simp] theorem State.withdraw_elapsed (s : State) (j : Nat) : (s.withdraw j).elapsed = s.elapsed := rfl
@[simp] theorem State.withdraw_pendingLoad (s : State) (j : Nat) : (s.withdraw j).pendingLoad = s.pendingLoad := rfl
@[simp] theorem State.withdraw_run (s : State) (j : Nat) : (s.withdraw j).run = s.run := rfl
@[simp] theorem State.withdraw_attMask (s : State) (j : Nat) : (s.withdraw j).attMask = s.attMask := rfl
@[simp] theorem State.withdraw_attention (s : State) (j : Nat) : (s.withdraw j).attention = s.attention := rfl
@[simp] theorem State.withdraw_runState (s : State) (j : Nat) : (s.withdraw j).runState = s.runState := rfl
@[simp] theorem State.withdraw_startCheck (s : State) (j : Nat) : (s.withdraw j).startCheck = s.startCheck := rfl
@[simp] theorem State.withdraw_faultClass (s : State) (j : Nat) : (s.withdraw j).faultClass = s.faultClass := rfl
@[simp] theorem State.withdraw_faultStation (s : State) (j : Nat) : (s.withdraw j).faultStation = s.faultStation := rfl
@[simp] theorem State.withdraw_faultAddr (s : State) (j : Nat) : (s.withdraw j).faultAddr = s.faultAddr := rfl
@[simp] theorem State.withdraw_areaBaseLow (s : State) (j : Nat) : (s.withdraw j).areaBaseLow = s.areaBaseLow := rfl
@[simp] theorem State.withdraw_areaBaseHigh (s : State) (j : Nat) : (s.withdraw j).areaBaseHigh = s.areaBaseHigh := rfl
@[simp] theorem State.withdraw_start (s : State) (j : Nat) : (s.withdraw j).start = s.start := rfl
@[simp] theorem State.withdraw_halting (s : State) (j : Nat) : (s.withdraw j).halting = s.halting := rfl
@[simp] theorem State.withdraw_resuming (s : State) (j : Nat) : (s.withdraw j).resuming = s.resuming := rfl
@[simp] theorem State.withdraw_startFault (s : State) (j : Nat) : (s.withdraw j).startFault = s.startFault := rfl
@[simp] theorem State.withdraw_dealAtStart (s : State) (j : Nat) : (s.withdraw j).dealAtStart = s.dealAtStart := rfl
@[simp] theorem State.withdraw_area (s : State) (j : Nat) : (s.withdraw j).area = s.area := rfl
@[simp] theorem State.withdraw_held (s : State) (j : Nat) : (s.withdraw j).held = s.held := rfl
@[simp] theorem State.withdraw_nextJid (s : State) (j : Nat) : (s.withdraw j).nextJid = s.nextJid := rfl
@[simp] theorem State.withdraw_sweep (s : State) (j : Nat) : (s.withdraw j).sweep = s.sweep := rfl
@[simp] theorem State.withdraw_cursor (s : State) (j : Nat) : (s.withdraw j).cursor = s.cursor := rfl
@[simp] theorem State.withdraw_nextSerial (s : State) (j : Nat) : (s.withdraw j).nextSerial = s.nextSerial := rfl
@[simp] theorem State.withdraw_acq (s : State) (j : Nat) : (s.withdraw j).acq = s.acq := rfl
@[simp] theorem State.withdraw_stationMap (s : State) (j : Nat) : (s.withdraw j).stationMap = s.stationMap := rfl
@[simp] theorem State.withdraw_connectors (s : State) (j : Nat) : (s.withdraw j).connectors = s.connectors := rfl
@[simp] theorem State.withdraw_lines (s : State) (j : Nat) : (s.withdraw j).lines = s.lines := rfl
@[simp] theorem State.withdraw_stations (s : State) (j : Nat) : (s.withdraw j).stations = s.stations := rfl
@[simp] theorem State.withdraw_pending (s : State) (j : Nat) : (s.withdraw j).pending = s.pending := rfl

@[simp] theorem State.tick_tb (s : State) : s.tick.tb = s.tb + 1 := rfl
@[simp] theorem State.tick_elapsed (s : State) : s.tick.elapsed = s.elapsed + 1 := rfl
@[simp] theorem State.tick_pendingLoad (s : State) : s.tick.pendingLoad = s.pendingLoad := rfl
@[simp] theorem State.tick_run (s : State) : s.tick.run = s.run := rfl
@[simp] theorem State.tick_attMask (s : State) : s.tick.attMask = s.attMask := rfl
@[simp] theorem State.tick_attention (s : State) : s.tick.attention = s.attention := rfl
@[simp] theorem State.tick_runState (s : State) : s.tick.runState = s.runState := rfl
@[simp] theorem State.tick_startCheck (s : State) : s.tick.startCheck = s.startCheck := rfl
@[simp] theorem State.tick_faultClass (s : State) : s.tick.faultClass = s.faultClass := rfl
@[simp] theorem State.tick_faultStation (s : State) : s.tick.faultStation = s.faultStation := rfl
@[simp] theorem State.tick_faultAddr (s : State) : s.tick.faultAddr = s.faultAddr := rfl
@[simp] theorem State.tick_areaBaseLow (s : State) : s.tick.areaBaseLow = s.areaBaseLow := rfl
@[simp] theorem State.tick_areaBaseHigh (s : State) : s.tick.areaBaseHigh = s.areaBaseHigh := rfl
@[simp] theorem State.tick_start (s : State) : s.tick.start = s.start := rfl
@[simp] theorem State.tick_halting (s : State) : s.tick.halting = s.halting := rfl
@[simp] theorem State.tick_resuming (s : State) : s.tick.resuming = s.resuming := rfl
@[simp] theorem State.tick_startFault (s : State) : s.tick.startFault = s.startFault := rfl
@[simp] theorem State.tick_dealAtStart (s : State) : s.tick.dealAtStart = s.dealAtStart := rfl
@[simp] theorem State.tick_area (s : State) : s.tick.area = s.area := rfl
@[simp] theorem State.tick_held (s : State) : s.tick.held = s.held := rfl
@[simp] theorem State.tick_nextJid (s : State) : s.tick.nextJid = s.nextJid := rfl
@[simp] theorem State.tick_sweep (s : State) : s.tick.sweep = s.sweep := rfl
@[simp] theorem State.tick_hmp (s : State) : s.tick.hmp = s.hmp := rfl
@[simp] theorem State.tick_cursor (s : State) : s.tick.cursor = s.cursor := rfl
@[simp] theorem State.tick_nextSerial (s : State) : s.tick.nextSerial = s.nextSerial := rfl
@[simp] theorem State.tick_acq (s : State) : s.tick.acq = s.acq := rfl
@[simp] theorem State.tick_stationMap (s : State) : s.tick.stationMap = s.stationMap := rfl
@[simp] theorem State.tick_connectors (s : State) : s.tick.connectors = s.connectors := rfl
@[simp] theorem State.tick_lines (s : State) : s.tick.lines = s.lines := rfl
@[simp] theorem State.tick_stations (s : State) : s.tick.stations = s.stations := rfl
@[simp] theorem State.tick_pending (s : State) : s.tick.pending = s.pending := rfl

/-! ## Updates of a station at work -/

@[simp] theorem Ctx.modLp_st_state (c : Ctx) (f : LinkPort → LinkPort) : (c.modLp f).st.state = c.st.state := rfl
@[simp] theorem Ctx.modLp_st_profile (c : Ctx) (f : LinkPort → LinkPort) : (c.modLp f).st.profile = c.st.profile := rfl
@[simp] theorem Ctx.modLp_st_queue (c : Ctx) (f : LinkPort → LinkPort) : (c.modLp f).st.queue = c.st.queue := rfl
@[simp] theorem Ctx.modLp_st_head (c : Ctx) (f : LinkPort → LinkPort) : (c.modLp f).st.head = c.st.head := rfl
@[simp] theorem Ctx.modLp_st_lp (c : Ctx) (f : LinkPort → LinkPort) : (c.modLp f).st.lp = f c.st.lp := rfl
@[simp] theorem Ctx.modLp_st_au (c : Ctx) (f : LinkPort → LinkPort) : (c.modLp f).st.au = c.st.au := rfl
@[simp] theorem Ctx.modLp_st_cu (c : Ctx) (f : LinkPort → LinkPort) : (c.modLp f).st.cu = c.st.cu := rfl
@[simp] theorem Ctx.modLp_st_bpu (c : Ctx) (f : LinkPort → LinkPort) : (c.modLp f).st.bpu = c.st.bpu := rfl
@[simp] theorem Ctx.modLp_st_ts (c : Ctx) (f : LinkPort → LinkPort) : (c.modLp f).st.ts = c.st.ts := rfl
@[simp] theorem Ctx.modLp_st_cap (c : Ctx) (f : LinkPort → LinkPort) : (c.modLp f).st.cap = c.st.cap := rfl
@[simp] theorem Ctx.modLp_st_pg (c : Ctx) (f : LinkPort → LinkPort) : (c.modLp f).st.pg = c.st.pg := rfl
@[simp] theorem Ctx.modLp_st_pageQ (c : Ctx) (f : LinkPort → LinkPort) : (c.modLp f).st.pageQ = c.st.pageQ := rfl
@[simp] theorem Ctx.modLp_att (c : Ctx) (f : LinkPort → LinkPort) : (c.modLp f).att = c.att := rfl
@[simp] theorem Ctx.modLp_effs (c : Ctx) (f : LinkPort → LinkPort) : (c.modLp f).effs = c.effs := rfl

@[simp] theorem Ctx.modAu_st_state (c : Ctx) (f : AccessUnit → AccessUnit) : (c.modAu f).st.state = c.st.state := rfl
@[simp] theorem Ctx.modAu_st_profile (c : Ctx) (f : AccessUnit → AccessUnit) : (c.modAu f).st.profile = c.st.profile := rfl
@[simp] theorem Ctx.modAu_st_queue (c : Ctx) (f : AccessUnit → AccessUnit) : (c.modAu f).st.queue = c.st.queue := rfl
@[simp] theorem Ctx.modAu_st_head (c : Ctx) (f : AccessUnit → AccessUnit) : (c.modAu f).st.head = c.st.head := rfl
@[simp] theorem Ctx.modAu_st_lp (c : Ctx) (f : AccessUnit → AccessUnit) : (c.modAu f).st.lp = c.st.lp := rfl
@[simp] theorem Ctx.modAu_st_au (c : Ctx) (f : AccessUnit → AccessUnit) : (c.modAu f).st.au = f c.st.au := rfl
@[simp] theorem Ctx.modAu_st_cu (c : Ctx) (f : AccessUnit → AccessUnit) : (c.modAu f).st.cu = c.st.cu := rfl
@[simp] theorem Ctx.modAu_st_bpu (c : Ctx) (f : AccessUnit → AccessUnit) : (c.modAu f).st.bpu = c.st.bpu := rfl
@[simp] theorem Ctx.modAu_st_ts (c : Ctx) (f : AccessUnit → AccessUnit) : (c.modAu f).st.ts = c.st.ts := rfl
@[simp] theorem Ctx.modAu_st_cap (c : Ctx) (f : AccessUnit → AccessUnit) : (c.modAu f).st.cap = c.st.cap := rfl
@[simp] theorem Ctx.modAu_st_pg (c : Ctx) (f : AccessUnit → AccessUnit) : (c.modAu f).st.pg = c.st.pg := rfl
@[simp] theorem Ctx.modAu_st_pageQ (c : Ctx) (f : AccessUnit → AccessUnit) : (c.modAu f).st.pageQ = c.st.pageQ := rfl
@[simp] theorem Ctx.modAu_att (c : Ctx) (f : AccessUnit → AccessUnit) : (c.modAu f).att = c.att := rfl
@[simp] theorem Ctx.modAu_effs (c : Ctx) (f : AccessUnit → AccessUnit) : (c.modAu f).effs = c.effs := rfl

@[simp] theorem Ctx.modCu_st_state (c : Ctx) (f : ConsoleUnit → ConsoleUnit) : (c.modCu f).st.state = c.st.state := rfl
@[simp] theorem Ctx.modCu_st_profile (c : Ctx) (f : ConsoleUnit → ConsoleUnit) : (c.modCu f).st.profile = c.st.profile := rfl
@[simp] theorem Ctx.modCu_st_queue (c : Ctx) (f : ConsoleUnit → ConsoleUnit) : (c.modCu f).st.queue = c.st.queue := rfl
@[simp] theorem Ctx.modCu_st_head (c : Ctx) (f : ConsoleUnit → ConsoleUnit) : (c.modCu f).st.head = c.st.head := rfl
@[simp] theorem Ctx.modCu_st_lp (c : Ctx) (f : ConsoleUnit → ConsoleUnit) : (c.modCu f).st.lp = c.st.lp := rfl
@[simp] theorem Ctx.modCu_st_au (c : Ctx) (f : ConsoleUnit → ConsoleUnit) : (c.modCu f).st.au = c.st.au := rfl
@[simp] theorem Ctx.modCu_st_cu (c : Ctx) (f : ConsoleUnit → ConsoleUnit) : (c.modCu f).st.cu = f c.st.cu := rfl
@[simp] theorem Ctx.modCu_st_bpu (c : Ctx) (f : ConsoleUnit → ConsoleUnit) : (c.modCu f).st.bpu = c.st.bpu := rfl
@[simp] theorem Ctx.modCu_st_ts (c : Ctx) (f : ConsoleUnit → ConsoleUnit) : (c.modCu f).st.ts = c.st.ts := rfl
@[simp] theorem Ctx.modCu_st_cap (c : Ctx) (f : ConsoleUnit → ConsoleUnit) : (c.modCu f).st.cap = c.st.cap := rfl
@[simp] theorem Ctx.modCu_st_pg (c : Ctx) (f : ConsoleUnit → ConsoleUnit) : (c.modCu f).st.pg = c.st.pg := rfl
@[simp] theorem Ctx.modCu_st_pageQ (c : Ctx) (f : ConsoleUnit → ConsoleUnit) : (c.modCu f).st.pageQ = c.st.pageQ := rfl
@[simp] theorem Ctx.modCu_att (c : Ctx) (f : ConsoleUnit → ConsoleUnit) : (c.modCu f).att = c.att := rfl
@[simp] theorem Ctx.modCu_effs (c : Ctx) (f : ConsoleUnit → ConsoleUnit) : (c.modCu f).effs = c.effs := rfl

@[simp] theorem Ctx.modBpu_st_state (c : Ctx) (f : PowerUnit → PowerUnit) : (c.modBpu f).st.state = c.st.state := rfl
@[simp] theorem Ctx.modBpu_st_profile (c : Ctx) (f : PowerUnit → PowerUnit) : (c.modBpu f).st.profile = c.st.profile := rfl
@[simp] theorem Ctx.modBpu_st_queue (c : Ctx) (f : PowerUnit → PowerUnit) : (c.modBpu f).st.queue = c.st.queue := rfl
@[simp] theorem Ctx.modBpu_st_head (c : Ctx) (f : PowerUnit → PowerUnit) : (c.modBpu f).st.head = c.st.head := rfl
@[simp] theorem Ctx.modBpu_st_lp (c : Ctx) (f : PowerUnit → PowerUnit) : (c.modBpu f).st.lp = c.st.lp := rfl
@[simp] theorem Ctx.modBpu_st_au (c : Ctx) (f : PowerUnit → PowerUnit) : (c.modBpu f).st.au = c.st.au := rfl
@[simp] theorem Ctx.modBpu_st_cu (c : Ctx) (f : PowerUnit → PowerUnit) : (c.modBpu f).st.cu = c.st.cu := rfl
@[simp] theorem Ctx.modBpu_st_bpu (c : Ctx) (f : PowerUnit → PowerUnit) : (c.modBpu f).st.bpu = f c.st.bpu := rfl
@[simp] theorem Ctx.modBpu_st_ts (c : Ctx) (f : PowerUnit → PowerUnit) : (c.modBpu f).st.ts = c.st.ts := rfl
@[simp] theorem Ctx.modBpu_st_cap (c : Ctx) (f : PowerUnit → PowerUnit) : (c.modBpu f).st.cap = c.st.cap := rfl
@[simp] theorem Ctx.modBpu_st_pg (c : Ctx) (f : PowerUnit → PowerUnit) : (c.modBpu f).st.pg = c.st.pg := rfl
@[simp] theorem Ctx.modBpu_st_pageQ (c : Ctx) (f : PowerUnit → PowerUnit) : (c.modBpu f).st.pageQ = c.st.pageQ := rfl
@[simp] theorem Ctx.modBpu_att (c : Ctx) (f : PowerUnit → PowerUnit) : (c.modBpu f).att = c.att := rfl
@[simp] theorem Ctx.modBpu_effs (c : Ctx) (f : PowerUnit → PowerUnit) : (c.modBpu f).effs = c.effs := rfl

@[simp] theorem Ctx.mod_st (c : Ctx) (f : Station → Station) : (c.mod f).st = f c.st := rfl
@[simp] theorem Ctx.mod_att (c : Ctx) (f : Station → Station) : (c.mod f).att = c.att := rfl
@[simp] theorem Ctx.mod_effs (c : Ctx) (f : Station → Station) : (c.mod f).effs = c.effs := rfl
@[simp] theorem Ctx.setAttn_st (c : Ctx) (a : Attn) : (c.setAttn a).st = c.st := rfl
@[simp] theorem Ctx.setAttn_att (c : Ctx) (a : Attn) : (c.setAttn a).att = c.att ||| a.mask := rfl
@[simp] theorem Ctx.setAttn_effs (c : Ctx) (a : Attn) : (c.setAttn a).effs = c.effs := rfl
@[simp] theorem Ctx.emit_st (c : Ctx) (x : Eff) : (c.emit x).st = c.st := rfl
@[simp] theorem Ctx.emit_att (c : Ctx) (x : Eff) : (c.emit x).att = c.att := rfl
@[simp] theorem Ctx.emit_effs (c : Ctx) (x : Eff) : (c.emit x).effs = c.effs ++ [x] := rfl

/-! ## Stations -/

@[simp] theorem State.setStation_station (s : State) (n : StationNo) (t : Station) :
    (s.setStation n t).station n = t := by simp [State.setStation, State.station]

theorem State.setStation_other (s : State) {n m : StationNo} (t : Station) (h : m ≠ n) :
    (s.setStation n t).station m = s.station m := by
  have : n.val ≠ m.val := fun e => h (Fin.ext e.symm)
  simp [State.setStation, State.station, Vector.getElem_set_ne, this]

@[simp] theorem State.put_station (s : State) (n : StationNo) (u : Station) (a : BitVec 11) :
    (s.put n u a).station n = u := State.setStation_station s n u

theorem State.put_other (s : State) {n m : StationNo} (u : Station) (a : BitVec 11) (h : m ≠ n) :
    (s.put n u a).station m = s.station m := State.setStation_other s u h

@[simp] theorem State.mapStations_station (s : State) (f : Station → Station) (n : StationNo) :
    (s.mapStations f).station n = f (s.station n) := by simp [State.mapStations, State.station]

@[simp] theorem State.setAttn_station (s : State) (a : Attn) (n : StationNo) :
    (s.setAttn a).station n = s.station n := rfl
@[simp] theorem State.presentSweep_station (s : State) (a : Access) (n : StationNo) :
    (s.presentSweep a).station n = s.station n := rfl
@[simp] theorem State.presentJob_station (s : State) (a : Access) (n : StationNo) :
    (s.presentJob a).station n = s.station n := rfl
@[simp] theorem State.modHeld_station (s : State) (j : Nat) (f : HeldJob → HeldJob) (n : StationNo) :
    (s.modHeld j f).station n = s.station n := rfl
@[simp] theorem State.addHeld_station (s : State) (h : HeldJob) (n : StationNo) :
    (s.addHeld h).station n = s.station n := rfl

/-! ## Requests issued -/

@[simp] theorem Station.issued_nil (t : Station) (now : Nat) (o : Owner) : t.issued now o [] = t := rfl

/-- Issuing requests changes the table and the link port of a station alone (R63, R66, R67). -/
theorem Station.issued_frame (t : Station) (now : Nat) (o : Owner) (rs : List ReqSpec) :
    t.issued now o rs = { t with au := (t.issued now o rs).au, lp := (t.issued now o rs).lp } := by
  induction rs generalizing t with
  | nil => rfl
  | cons r rs ih => exact ih _

end Sys2Proof.Machine
end

