-- ==== Sys2Proof/Laws/Ops.lean ====
section
/-! SUPPORT. What each shared operation can do, said once: a station's work, the end of a job, a
record's offer, a report, a read's completion. -/

namespace Sys2Proof.Machine

/-! ## Results and presentations leave the stations alone -/

@[simp] theorem State.presentResult_stations (s : State) (j : Nat) :
    (s.presentResult j).stations = s.stations := by
  unfold State.presentResult; repeat' split
  all_goals rfl

@[simp] theorem State.finishJob_stations (s : State) (j : Nat) :
    (s.finishJob j).stations = s.stations := by
  unfold State.finishJob; repeat' split
  all_goals simp

@[simp] theorem State.recordResult_stations (s : State) (n : StationNo) (j : Nat) (r : Res) :
    (s.recordResult n j r).stations = s.stations := by simp [State.recordResult]

@[simp] theorem State.applyEff_stations (n : StationNo) (s : State) (x : Eff) :
    (State.applyEff n s x).stations = s.stations := by cases x <;> simp [State.applyEff]

theorem State.foldEff_stations (n : StationNo) (l : List Eff) (s : State) :
    (l.foldl (State.applyEff n) s).stations = s.stations := by
  induction l generalizing s with
  | nil => rfl
  | cons x xs ih => simp [ih]

/-- Results and presentations change nothing but the held jobs and the waiting JOB accesses. -/
theorem State.presentResult_frame (s : State) (j : Nat) :
    s.presentResult j = { s with hmp := { s.hmp with jobQ := (s.presentResult j).hmp.jobQ } } := by
  unfold State.presentResult; repeat' split
  all_goals rfl

theorem State.finishJob_frame (s : State) (j : Nat) :
    s.finishJob j = { s with
      held := (s.finishJob j).held, hmp := { s.hmp with jobQ := (s.finishJob j).hmp.jobQ } } := by
  unfold State.finishJob
  repeat' split
  · rw [State.presentResult_frame]; rfl
  all_goals rfl

theorem State.recordResult_frame (s : State) (n : StationNo) (j : Nat) (r : Res) :
    s.recordResult n j r = { s with
      held := (s.recordResult n j r).held
      hmp := { s.hmp with jobQ := (s.recordResult n j r).hmp.jobQ } } := by
  unfold State.recordResult; rw [State.finishJob_frame]; rfl

theorem State.applyEff_frame (n : StationNo) (s : State) (x : Eff) :
    State.applyEff n s x = { s with
      held := (State.applyEff n s x).held
      hmp := { s.hmp with jobQ := (State.applyEff n s x).hmp.jobQ } } := by
  cases x with
  | present a => rfl
  | jobEnd j r => exact State.recordResult_frame s n j r

theorem State.foldEff_frame (n : StationNo) (l : List Eff) (s : State) :
    l.foldl (State.applyEff n) s = { s with
      held := (l.foldl (State.applyEff n) s).held
      hmp := { s.hmp with jobQ := (l.foldl (State.applyEff n) s).hmp.jobQ } } := by
  induction l generalizing s with
  | nil => rfl
  | cons x xs ih =>
    rw [List.foldl_cons, ih, State.applyEff_frame]

/-! ## A station's work -/

/-- What station n's work gives: the station, the attention bits, and the held jobs and waiting JOB
accesses its hand-ons leave; nothing else changes. -/
theorem State.withStation_frame (s : State) (n : StationNo) (f : Env → Ctx → Ctx) :
    ∃ held jobQ, s.withStation n f =
      { s.put n (f (s.env n) ⟨s.station n, s.attention, []⟩).st
          (f (s.env n) ⟨s.station n, s.attention, []⟩).att with
        held := held, hmp := { s.hmp with jobQ := jobQ } } :=
  ⟨_, _, State.foldEff_frame n _ _⟩

/-- Work that hands nothing on. -/
theorem State.withStation_quiet {s : State} {n : StationNo} {f : Env → Ctx → Ctx} {u : Station}
    {a : BitVec 11} (h : f (s.env n) ⟨s.station n, s.attention, []⟩ = ⟨u, a, []⟩) :
    s.withStation n f = s.put n u a := by
  unfold State.withStation; rw [h]; rfl

/-- Work that ends a job. -/
theorem State.withStation_ends {s : State} {n : StationNo} {f : Env → Ctx → Ctx} {u : Station}
    {a : BitVec 11} {j : Nat} {r : Res}
    (h : f (s.env n) ⟨s.station n, s.attention, []⟩ = ⟨u, a, [.jobEnd j r]⟩) :
    s.withStation n f = (s.put n u a).recordResult n j r := by
  unfold State.withStation; rw [h]; rfl

/-- Work that presents an access. -/
theorem State.withStation_presents {s : State} {n : StationNo} {f : Env → Ctx → Ctx} {u : Station}
    {a : BitVec 11} {x : Access}
    (h : f (s.env n) ⟨s.station n, s.attention, []⟩ = ⟨u, a, [.present x]⟩) :
    s.withStation n f = (s.put n u a).presentJob x := by
  unfold State.withStation; rw [h]; rfl

theorem State.withStation_station (s : State) (n : StationNo) (f : Env → Ctx → Ctx) :
    (s.withStation n f).station n = (f (s.env n) ⟨s.station n, s.attention, []⟩).st := by
  obtain ⟨held, jobQ, h⟩ := s.withStation_frame n f
  rw [h]
  exact State.put_station s n _ (f (s.env n) ⟨s.station n, s.attention, []⟩).att

theorem State.withStation_other (s : State) {n m : StationNo} (f : Env → Ctx → Ctx) (hm : m ≠ n) :
    (s.withStation n f).station m = s.station m := by
  obtain ⟨held, jobQ, h⟩ := s.withStation_frame n f
  rw [h]
  exact State.put_other s _ (f (s.env n) ⟨s.station n, s.attention, []⟩).att hm

/-- What holds of every station still does when one station's work keeps it. -/
theorem State.withStation_keeps {P : Station → Prop} {s : State} {n : StationNo}
    {f : Env → Ctx → Ctx} (h : ∀ m, P (s.station m))
    (hf : P (f (s.env n) ⟨s.station n, s.attention, []⟩).st) (m : StationNo) :
    P ((s.withStation n f).station m) := by
  by_cases e : m = n
  · subst e; rw [State.withStation_station]; exact hf
  · rw [State.withStation_other s f e]; exact h m

/-! ## The head's job ends (R177) -/

theorem endHead_cons {c : Ctx} {q : QJob} {qs : List QJob} (r : Res) (h : c.st.queue = q :: qs) :
    endHead r c = ⟨{ c.st with queue := qs, head := .waiting }, c.att, c.effs ++ [.jobEnd q.jid r]⟩ := by
  simp [endHead, h]

/-! ## Offers (R134, R144) -/

/-- CAP's answer put into a context: the station with its seal request, and the LOSS bit. -/
theorem Ctx.capOut_eq (c : Ctx) (o : CapOut) :
    c.capOut o = ⟨c.st.take o, c.att ||| o.bits, c.effs⟩ := by
  unfold Ctx.capOut Station.take CapOut.bits
  cases o.lossEntered <;> cases o.sealReq <;> simp [Ctx.setAttn, Ctx.mod]

theorem offerRec_eq (e : Env) (r : SrcRec) (c : Ctx) :
    offerRec e r c = ⟨c.st.take (c.st.offer e.tb r), c.att ||| (c.st.offer e.tb r).bits, c.effs⟩ :=
  c.capOut_eq _

/-- A seal request changes the seal mark alone, so an offer changes CAP and the seal mark alone. -/
theorem Station.take_eq (t : Station) (o : CapOut) :
    t.take o = { t with cap := o.cap, pg := { t.pg with mark := (t.take o).pg.mark } } := by
  unfold Station.take; split <;> rfl

@[simp] theorem Station.take_cap (t : Station) (o : CapOut) : (t.take o).cap = o.cap := by
  rw [Station.take_eq]
@[simp] theorem Station.take_state (t : Station) (o : CapOut) : (t.take o).state = t.state := by
  rw [Station.take_eq]
@[simp] theorem Station.take_profile (t : Station) (o : CapOut) : (t.take o).profile = t.profile := by
  rw [Station.take_eq]
@[simp] theorem Station.take_queue (t : Station) (o : CapOut) : (t.take o).queue = t.queue := by
  rw [Station.take_eq]
@[simp] theorem Station.take_head (t : Station) (o : CapOut) : (t.take o).head = t.head := by
  rw [Station.take_eq]
@[simp] theorem Station.take_lp (t : Station) (o : CapOut) : (t.take o).lp = t.lp := by
  rw [Station.take_eq]
@[simp] theorem Station.take_au (t : Station) (o : CapOut) : (t.take o).au = t.au := by
  rw [Station.take_eq]
@[simp] theorem Station.take_cu (t : Station) (o : CapOut) : (t.take o).cu = t.cu := by
  rw [Station.take_eq]
@[simp] theorem Station.take_bpu (t : Station) (o : CapOut) : (t.take o).bpu = t.bpu := by
  rw [Station.take_eq]
@[simp] theorem Station.take_ts (t : Station) (o : CapOut) : (t.take o).ts = t.ts := by
  rw [Station.take_eq]
@[simp] theorem Station.take_pageQ (t : Station) (o : CapOut) : (t.take o).pageQ = t.pageQ := by
  rw [Station.take_eq]
@[simp] theorem Station.take_prof (t : Station) (o : CapOut) : (t.take o).prof = t.prof := by
  rw [Station.take_eq]; rfl

@[simp] theorem offerRec_st (e : Env) (r : SrcRec) (c : Ctx) :
    (offerRec e r c).st = c.st.take (c.st.offer e.tb r) := by rw [offerRec_eq]
@[simp] theorem offerRec_att (e : Env) (r : SrcRec) (c : Ctx) :
    (offerRec e r c).att = c.att ||| (c.st.offer e.tb r).bits := by rw [offerRec_eq]
@[simp] theorem offerRec_effs (e : Env) (r : SrcRec) (c : Ctx) :
    (offerRec e r c).effs = c.effs := by rw [offerRec_eq]

/-! ## Reports (R119) -/

/-- A sequencer that is not ARMED takes no report. -/
theorem report_unarmed {c : Ctx} (e : Env) (x : Cond) (h : c.st.unarmed) : report e x c = c := by
  have h' : c.st.ts.current = none := h
  simp [report, takeReport, followUp, h']

@[simp] theorem Station.take_unarmed (t : Station) (o : CapOut) :
    (t.take o).unarmed ↔ t.unarmed := by simp [Station.unarmed]

/-! ## Read completions (R160, R163) -/

/-- Data of the right length arrives for an awaited read: its requester takes it up. -/
theorem State.completeRead_awaited {s : State} {id len : Nat} {a : Access}
    {f : Access → State → Option State} (h : s.awaits id a) (hl : a.len = len)
    (hp : a.purpose ≠ .stale) : s.completeRead id len f = (f a (s.endRead id)).getD s := by
  obtain ⟨x, hx, rfl, ht⟩ := h
  simp [State.completeRead, hx, ht, hl, hp]

/-! ## Admission keeps staging in bounds (R142, R143) -/

@[simp] theorem Payload.size_admitted (p : Payload) (k u : Nat) (t : Option Tick) :
    (admittedPayload p k u t).size = p.size := by
  unfold admittedPayload; split <;> rfl

theorem stagedBytes_append (a b : List Staged) :
    stagedBytes (a ++ b) = stagedBytes a + stagedBytes b := by simp [stagedBytes]

/-- An admission adds the record's padded size, and 16 for an ANCHOR it needs. -/
theorem Capture.append_used (c : Capture) (k u : Nat) (p : Payload) (f : RecFlags) :
    (c.append k u p f).used = c.used + c.needed k u p.size := by
  unfold Capture.append Capture.needed Capture.used
  split <;> rename_i h <;>
    simp [h, stagedBytes, Staged.size, Payload.size, Payload.len, paddedSize]
  omega

/-- An admission changes staging, the reference and the next sequence number alone. -/
theorem Capture.append_frame (c : Capture) (k u : Nat) (p : Payload) (f : RecFlags) :
    c.append k u p f = { c with
      staging := (c.append k u p f).staging, seq := (c.append k u p f).seq
      ref := { c.ref with value := u, valid := true } } := by
  unfold Capture.append; split <;> rfl

@[simp] theorem Capture.append_state (c : Capture) (k u : Nat) (p : Payload) (f : RecFlags) :
    (c.append k u p f).state = c.state := by rw [Capture.append_frame]
@[simp] theorem Capture.append_history (c : Capture) (k u : Nat) (p : Payload) (f : RecFlags) :
    (c.append k u p f).history = c.history := by rw [Capture.append_frame]
@[simp] theorem Capture.append_historySize (c : Capture) (k u : Nat) (p : Payload) (f : RecFlags) :
    (c.append k u p f).historySize = c.historySize := by rw [Capture.append_frame]
@[simp] theorem Capture.append_loss (c : Capture) (k u : Nat) (p : Payload) (f : RecFlags) :
    (c.append k u p f).loss = c.loss := by rw [Capture.append_frame]

/-! ## The words of Safety for the head job and the power state -/

/-- With no job queued nothing ends. -/
theorem State.endFirst_nil (s : State) (n : StationNo) (r : Res) (h : (s.station n).queue = []) :
    s.endFirst n r = s := by
  simp [State.endFirst, h]

/-- The first job queued is the one that ends. -/
theorem State.endFirst_cons (s : State) (n : StationNo) (r : Res) (q : QJob) (qs : List QJob)
    (h : (s.station n).queue = q :: qs) : s.endFirst n r = s.endAt n q.jid r := by
  simp [State.endFirst, h]

/-- With no console line open and no job begun at the head, CU has nothing to do when ON is left. -/
theorem State.putLeft_idle (s : State) (n : StationNo) (k : FaultKind)
    (hl : (s.station n).cu.line = []) (hw : (s.station n).head = .waiting) : s.putLeft n k = s := by
  simp [State.putLeft, hl, hw]

/-- With no job begun at the head no fault and no removal ends one. -/
theorem State.endPower_waiting (s : State) (n : StationNo) (k : FaultKind)
    (hw : (s.station n).head = .waiting) : s.endPower n k = s := by
  simp [State.endPower, hw]

/-- With PWR_GOOD low RAMPING is entered and nothing more. -/
theorem State.putRamp_low (s : State) (n : StationNo) (t : Station)
    (h : (s.connector (s.connectorOf n)).pwrGood = false) :
    s.putRamp n t = s.putPower n
      { t with bpu := t.bpu.ramped t.prof (s.connector (s.connectorOf n)) s.elapsed } .rampStart := by
  simp [State.putRamp, h]

/-- With the table full a freed entry is none: nothing is issued. -/
theorem State.offerFreed_full (s : State) (n : StationNo) (h : 4 ≤ (s.station n).au.entries.length) :
    s.offerFreed n = s := by
  simp [State.offerFreed, h]

/-- A free entry goes to the HALT in the holder. -/
theorem State.offerFreed_holder (s : State) (n : StationNo) (hu : (s.station n).lp.up = true)
    (hf : (s.station n).au.entries.length < 4) (hh : (s.station n).au.holder = true) :
    s.offerFreed n = s.put n ((s.station n).haltIssued s.elapsed) s.attention := by
  simp [State.offerFreed, hu, hh, Nat.not_le.2 hf]

/-- With the holder empty and no job begun at the head a free entry stays free. -/
theorem State.offerFreed_waiting (s : State) (n : StationNo) (hh : (s.station n).au.holder = false)
    (hw : (s.station n).head = .waiting) : s.offerFreed n = s := by
  simp [State.offerFreed, hh, hw]

end Sys2Proof.Machine
end

