-- ==== Sys2Proof/Laws/Connectors.lean ====
section
/-! SUPPORT. Commands and outputs at a fixture connector, the console TX line, and what frees an entry
of the access table. -/

namespace Sys2Proof.Machine

/-! ## A connector and its station (R41) -/

/-- Work at a connector is work at the station it serves. -/
theorem State.atConnector_serves {s : State} {c : ConnectorNo} {n : StationNo}
    (h : s.stationOf c = some n) (f : Env → Ctx → Ctx) : s.atConnector c f = s.withStation n f := by
  simp [State.atConnector, h]

/-- What a connector shows is what its station drives. -/
theorem State.outputOf_serves {α : Type} {s : State} {c : ConnectorNo} {n : StationNo}
    (h : s.stationOf c = some n) (rest : α) (f : Station → α) :
    s.outputOf c rest f = f (s.station n) := by
  simp [State.outputOf, h]

/-- The station a connector serves is one whose connector it is. -/
theorem State.connectorOf_stationOf {s : State} {c : ConnectorNo} {n : StationNo}
    (h : s.stationOf c = some n) : s.connectorOf n = c := by
  simpa using List.find?_some h

/-! ## The console TX line (R94) -/

@[simp] theorem frameBits_length (b : Byte) : (frameBits b).length = 10 := rfl

theorem ConsoleUnit.txLine_rest {u : ConsoleUnit} (h : u.tx = none) (now : Nat) :
    u.txLine now = true := by simp [ConsoleUnit.txLine, h]

/-- Within the ten bit times of a frame the line has the bit whose time it is. -/
theorem ConsoleUnit.txLine_bit {u : ConsoleUnit} {x : TxByte} (h : u.tx = some x) {i t : Nat}
    (ht : t < x.divisor) :
    u.txLine (x.begins + (i * x.divisor + t)) = (frameBits x.val).getD i true := by
  have : (i * x.divisor + t) / x.divisor = i := by
    rw [Nat.mul_comm, Nat.mul_add_div (by omega), Nat.div_eq_of_lt ht, Nat.add_zero]
  simp [ConsoleUnit.txLine, h, this]

/-! ## An entry freed (R63, R72) -/

@[simp] theorem LinkPort.dropTag_sending (l : LinkPort) (g : Fin 64) :
    (l.dropTag g).sending = l.sending := rfl
@[simp] theorem LinkPort.dropTag_up (l : LinkPort) (g : Fin 64) : (l.dropTag g).up = l.up := rfl
@[simp] theorem LinkPort.dropTag_health (l : LinkPort) (g : Fin 64) :
    (l.dropTag g).health = l.health := rfl
@[simp] theorem AccessUnit.freeTag_retired (a : AccessUnit) (g : Fin 64) :
    (a.freeTag g).retired = a.retired := rfl
@[simp] theorem AccessUnit.freeTag_holder (a : AccessUnit) (g : Fin 64) :
    (a.freeTag g).holder = a.holder := rfl
@[simp] theorem Ctx.freeEntry_att (c : Ctx) (g : Fin 64) : (c.freeEntry g).att = c.att := rfl
@[simp] theorem Ctx.freeEntry_effs (c : Ctx) (g : Fin 64) : (c.freeEntry g).effs = c.effs := rfl
@[simp] theorem Ctx.freeEntry_lp (c : Ctx) (g : Fin 64) :
    (c.freeEntry g).st.lp = c.st.lp.dropTag g := rfl
@[simp] theorem Ctx.freeEntry_au (c : Ctx) (g : Fin 64) :
    (c.freeEntry g).st.au = c.st.au.freeTag g := rfl
@[simp] theorem Ctx.freeEntry_cap (c : Ctx) (g : Fin 64) : (c.freeEntry g).st.cap = c.st.cap := rfl
@[simp] theorem Ctx.freeEntry_ts (c : Ctx) (g : Fin 64) : (c.freeEntry g).st.ts = c.st.ts := rfl

/-- Neither the table nor the transmit list keeps the tag that was freed. -/
theorem Ctx.freeEntry_gone (c : Ctx) (g : Fin 64) :
    (∀ x ∈ (c.freeEntry g).st.au.entries, x.tag ≠ g)
    ∧ ∀ r ∈ (c.freeEntry g).st.lp.txList, r.tag ≠ g := by
  simp [AccessUnit.freeTag, LinkPort.dropTag]

end Sys2Proof.Machine
end

