-- ==== Sys2Proof/Laws/Stations.lean ====
section
/-! SUPPORT. What work done at every station in turn gives. -/

namespace Sys2Proof.Machine

theorem mem_allStations (n : StationNo) : n ∈ allStations := by
  revert n; decide

theorem allStations_nodup : allStations.Nodup := by decide

/-- A change made at the stations of a list without repeats, one after the other. -/
theorem foldStations_station (g : StationNo → Station → Station) (l : List StationNo) (hl : l.Nodup)
    (s : State) (m : StationNo) :
    (l.foldl (fun s n => s.modStation n (g n)) s).station m
      = if m ∈ l then g m (s.station m) else s.station m := by
  induction l generalizing s with
  | nil => simp
  | cons n ns ih =>
    rw [List.nodup_cons] at hl
    rw [List.foldl_cons, ih hl.2]
    by_cases e : m = n
    · subst e; simp [hl.1, State.modStation]
    · simp [State.modStation, State.setStation_other s _ e, e]

/-- The stations changed at a list, nothing else is. -/
theorem foldStations_frame (g : StationNo → Station → Station) (l : List StationNo) (s : State) :
    l.foldl (fun s n => s.modStation n (g n)) s
      = { s with stations := (l.foldl (fun s n => s.modStation n (g n)) s).stations } := by
  induction l generalizing s with
  | nil => rfl
  | cons n ns ih => rw [List.foldl_cons, ih]; rfl

theorem State.stations_ext {v w : Vector Station 8}
    (h : ∀ n : StationNo, v[n.val] = w[n.val]) : v = w :=
  Vector.ext fun i hi => h ⟨i, hi⟩

/-- A change made at every station. -/
theorem eachStation_eq (g : StationNo → Station → Station) (s : State) :
    s.eachStation (fun s n => s.modStation n (g n))
      = { s with stations := Vector.ofFn fun n => g n (s.station n) } := by
  unfold State.eachStation
  rw [foldStations_frame]
  congr 1
  refine State.stations_ext fun n => ?_
  have := foldStations_station g allStations allStations_nodup s n
  simp only [mem_allStations, if_true] at this
  simpa [State.station] using this

@[simp] theorem eachStation_station (g : StationNo → Station → Station) (s : State) (m : StationNo) :
    (s.eachStation (fun s n => s.modStation n (g n))).station m = g m (s.station m) := by
  rw [eachStation_eq]; simp [State.station]

end Sys2Proof.Machine
end

