-- ==== Sys2Proof/Laws/Jobs.lean ====
section
/-! SUPPORT. Held jobs: finding and changing one of them, and the write-back of a complete job
(R178). -/

namespace Sys2Proof.Machine

/-- With the numbers of the held jobs different, a held job is found by its number. -/
theorem find_jid {l : List HeldJob} (hn : (l.map HeldJob.jid).Nodup) {h : HeldJob} (hm : h ∈ l) :
    (l.find? fun x => x.jid == h.jid) = some h := by
  induction l with
  | nil => simp at hm
  | cons x xs ih =>
    simp only [List.map_cons, List.nodup_cons, List.mem_map, not_exists, not_and] at hn
    rcases List.mem_cons.mp hm with rfl | hm
    · simp
    · have : x.jid ≠ h.jid := fun e => hn.1 h hm e.symm
      simp [this, ih hn.2 hm]

theorem State.heldJob_mem {s : State} (hn : (s.held.map HeldJob.jid).Nodup) {h : HeldJob}
    (hm : h ∈ s.held) : s.heldJob h.jid = some h := find_jid hn hm

/-- A number above those of the earlier held jobs finds the last one. -/
theorem find_last {l : List HeldJob} {h : HeldJob} (hl : ∀ x ∈ l, x.jid < h.jid) :
    ((l ++ [h]).find? fun x => x.jid == h.jid) = some h := by
  have : (l.find? fun x => x.jid == h.jid) = none := by
    rw [List.find?_eq_none]; intro x hx; have := hl x hx; simp; omega
  simp [List.find?_append, this]

/-- A change under a number above those of the earlier held jobs changes the last one. -/
theorem map_last {l : List HeldJob} {h : HeldJob} (f : HeldJob → HeldJob)
    (hl : ∀ x ∈ l, x.jid < h.jid) :
    ((l ++ [h]).map fun x => if x.jid == h.jid then f x else x) = l ++ [f h] := by
  have : (l.map fun x => if x.jid == h.jid then f x else x) = l := by
    conv_rhs => rw [← List.map_id l]
    refine List.map_congr_left fun x hx => ?_
    have := hl x hx
    have : x.jid ≠ h.jid := by omega
    simp [this]
  rw [List.map_append, this]; simp

/-- The last held job, complete and not formed, has its results formed and both writes presented. -/
theorem State.finishJob_last {s : State} {l : List HeldJob} {h : HeldJob} (hs : s.held = l ++ [h])
    (hl : ∀ x ∈ l, x.jid < h.jid) (hc : h.complete = true) (hf : h.formed = none)
    (ht : h.taken ≠ .waiting) :
    let h' : HeldJob := { h with formed := some (resultBytes h.results h.overall s.tb) }
    s.finishJob h.jid = { s with
      held := l ++ [h']
      hmp := { s.hmp with
        jobQ := s.hmp.jobQ ++ h'.backWrites (resultBytes h.results h.overall s.tb) } } := by
  intro h'
  have e1 : s.heldJob h.jid = some h := by unfold State.heldJob; rw [hs]; exact find_last hl
  have e2 : (s.modHeld h.jid fun x =>
      { x with formed := some (resultBytes x.results x.overall s.tb) }).held = l ++ [h'] := by
    unfold State.modHeld; rw [hs]; exact map_last _ hl
  have e3 : (s.modHeld h.jid fun x =>
      { x with formed := some (resultBytes x.results x.overall s.tb) }).heldJob h.jid = some h' := by
    unfold State.heldJob; rw [e2]
    exact find_last (h := h') hl
  unfold State.finishJob
  simp only [e1, hc, hf, Option.isNone_none, Bool.and_self, if_true]
  unfold State.presentResult
  rw [e3]
  simp only [h', ht, if_false]
  rw [show (s.modHeld h.jid fun x =>
      { x with formed := some (resultBytes x.results x.overall s.tb) }) = { s with held := l ++ [h'] }
    from by rw [← e2]; rfl]
  simp [State.presentJob, HeldJob.backWrites, h']

/-- A job that ends at the read: held complete under the next number, written back (R174, R178). -/
theorem State.endAtOnce_eq {s : State} (hl : ∀ h ∈ s.held, h.jid < s.nextJid) (slot : Word64)
    (v : SlotView) (results : Vector (Option Res) 8) (r : Res) :
    let h : HeldJob :=
      { newHeld s.nextJid slot v results (some r) .notNeeded with
        formed := some (resultBytes results r s.tb) }
    s.endAtOnce slot v results r = { s with
      held := s.held ++ [h], nextJid := s.nextJid + 1
      hmp := { s.hmp with jobQ := s.hmp.jobQ ++ h.backWrites (resultBytes results r s.tb) } } := by
  intro h
  have := State.finishJob_last (s := s.hold slot v results (some r) .notNeeded) (l := s.held)
    (h := newHeld s.nextJid slot v results (some r) .notNeeded) rfl hl rfl rfl (by simp [newHeld])
  unfold State.endAtOnce
  rw [show s.nextJid = (newHeld s.nextJid slot v results (some r) .notNeeded).jid from rfl, this]
  rfl

end Sys2Proof.Machine
end

