-- ==== Sys2Proof/Laws/Immediate.lean ====
section
/-! SUPPORT. An immediate job whose effect at a station is local to that station: what executing it at
each station of its mask gives (R175). -/

namespace Sys2Proof.Machine

/-- A local effect: from the station's environment and the station, the new station, the attention bits
set, the JOB accesses presented and the station's result. -/
structure LocalAct where
  station : Env → Station → Station
  bits : Env → Station → BitVec 11
  writes : Env → Station → List Access
  result : Env → Station → Res

/-- A local effect at station n. -/
def LocalAct.apply (A : LocalAct) (s : State) (n : StationNo) : Done :=
  ({ s.put n (A.station (s.env n) (s.station n)) (s.attention ||| A.bits (s.env n) (s.station n)) with
      hmp := { s.hmp with jobQ := s.hmp.jobQ ++ A.writes (s.env n) (s.station n) } },
    A.result (s.env n) (s.station n))

/-- What an immediate job gives at station n: Table 2-2's refusal or the effect's result. -/
def LocalAct.resultAt (A : LocalAct) (j : Job) (s : State) (n : StationNo) : Res :=
  match (s.station n).state.immediateRefusal j with
  | some code => Res.ended code
  | none => A.result (s.env n) (s.station n)

/-- The station after an immediate job that names it. -/
def LocalAct.after (A : LocalAct) (j : Job) (s : State) (n : StationNo) : Station :=
  match (s.station n).state.immediateRefusal j with
  | some _ => s.station n
  | none => A.station (s.env n) (s.station n)

/-- The attention bits of a named station. -/
def LocalAct.bitsAt (A : LocalAct) (j : Job) (s : State) (n : StationNo) : BitVec 11 :=
  match (s.station n).state.immediateRefusal j with
  | some _ => 0
  | none => A.bits (s.env n) (s.station n)

/-- The accesses of a named station. -/
def LocalAct.writesAt (A : LocalAct) (j : Job) (s : State) (n : StationNo) : List Access :=
  match (s.station n).state.immediateRefusal j with
  | some _ => []
  | none => A.writes (s.env n) (s.station n)

/-- The state after an immediate job has acted at the stations of `l`, its own held job being `h` at the
end of `held`. -/
def LocalAct.done (A : LocalAct) (j : Job) (s : State) (held : List HeldJob) (h : HeldJob)
    (l : List StationNo) : State :=
  { s with
    stations := Vector.ofFn fun n => if n ∈ l then A.after j s n else s.station n
    attention := l.foldl (fun a n => a ||| A.bitsAt j s n) s.attention
    held := held ++ [h]
    hmp := { s.hmp with jobQ := s.hmp.jobQ ++ l.flatMap (A.writesAt j s) } }

/-- `h` with the results of the stations of `l`. -/
def LocalAct.filled (A : LocalAct) (j : Job) (s : State) (h : HeldJob) (l : List StationNo) :
    HeldJob :=
  { h with results := Vector.ofFn fun n =>
      if n ∈ l then some (A.resultAt j s n) else h.resultAt n }

theorem mem_maskStations (m : Mask8) (n : StationNo) : n ∈ maskStations m ↔ inMask m n = true := by
  simp [maskStations, mem_allStations]

theorem maskStations_nodup (m : Mask8) : (maskStations m).Nodup :=
  allStations_nodup.filter _

theorem maskStations_ne_nil {m : Mask8} (h : m ≠ 0) : maskStations m ≠ [] := by
  intro he
  apply h
  ext i hi
  have : (⟨i, hi⟩ : StationNo) ∉ maskStations m := by rw [he]; simp
  rw [mem_maskStations] at this
  simp only [inMask, Bool.not_eq_true] at this
  simpa [BitVec.getLsbD_eq_getElem hi] using this

/-- One element of a table over the stations set. -/
theorem set_ofFn {α : Type} (F G : StationNo → α) (n : StationNo) (h : ∀ m, m ≠ n → F m = G m) :
    (Vector.ofFn F).set n.val (G n) = Vector.ofFn G := by
  apply Vector.ext
  intro i hi
  by_cases e : i = n.val
  · subst e; simp
  · have : (⟨i, hi⟩ : StationNo) ≠ n := fun c => e (congrArg Fin.val c)
    simp [Vector.getElem_set_ne, Ne.symm e, h _ this]

/-- One station's part of an immediate job with a local effect. -/
theorem LocalAct.step_finish {A : LocalAct} {j : Job} {s : State} {held : List HeldJob} {h : HeldJob}
    {l : List StationNo} {n : StationNo} {f : State → StationNo → Done}
    (hf : ∀ u m, (u.station m).state.immediateRefusal j = none → f u m = A.apply u m)
    (hl : ∀ x ∈ held, x.jid < h.jid) (hn : n ∉ l) :
    (A.done j s held (A.filled j s h l) l).immediateAt h.jid j f n
      = (A.done j s held (A.filled j s h (l ++ [n])) (l ++ [n])).finishJob h.jid := by
  have hst : (A.done j s held (A.filled j s h l) l).station n = s.station n := by
    simp [LocalAct.done, State.station, hn]
  have henv : (A.done j s held (A.filled j s h l) l).env n = s.env n := rfl
  have hmod : ∀ r, ((held ++ [A.filled j s h l]).map fun x =>
      if x.jid == h.jid then { x with results := x.results.set n.val (some r) } else x)
      = held ++ [{ A.filled j s h l with results := (A.filled j s h l).results.set n.val (some r) }] :=
    fun r => map_last (h := A.filled j s h l) _ hl
  have hset : ∀ r, r = A.resultAt j s n →
      { A.filled j s h l with results := (A.filled j s h l).results.set n.val (some r) }
        = A.filled j s h (l ++ [n]) := by
    rintro r rfl
    have hv := set_ofFn (fun m => if m ∈ l then some (A.resultAt j s m) else h.resultAt m)
      (fun m => if m ∈ l ++ [n] then some (A.resultAt j s m) else h.resultAt m) n
      (fun m hm => by simp [hm])
    simp only [List.mem_append, List.mem_singleton, or_true, if_true] at hv
    simp only [LocalAct.filled, List.mem_append, List.mem_singleton]
    rw [hv]
  have hstations : ∀ g : Station, g = A.after j s n →
      (Vector.ofFn fun m : StationNo => if m ∈ l then A.after j s m else s.station m).set n.val g
        = Vector.ofFn fun m : StationNo => if m ∈ l ++ [n] then A.after j s m else s.station m := by
    rintro g rfl
    have hv := set_ofFn (fun m => if m ∈ l then A.after j s m else s.station m)
      (fun m => if m ∈ l ++ [n] then A.after j s m else s.station m) n (fun m hm => by simp [hm])
    simpa using hv
  unfold State.immediateAt
  rw [hst]
  cases href : (s.station n).state.immediateRefusal j with
  | some code =>
    simp only
    unfold State.recordResult
    have hres : Res.ended code = A.resultAt j s n := by simp [LocalAct.resultAt, href]
    refine congrArg (State.finishJob · h.jid) (?_ : (A.done j s held (A.filled j s h l) l).modHeld h.jid
          (fun x => { x with results := (x.results.set n.val (some (Res.ended code))) })
        = A.done j s held (A.filled j s h (l ++ [n])) (l ++ [n]))
    · have ha : A.after j s n = s.station n := by simp [LocalAct.after, href]
      unfold State.modHeld
      simp only [LocalAct.done, hmod, hset _ hres]
      congr 1
      · simp [LocalAct.bitsAt, href]
      · simp [LocalAct.writesAt, href]
      · refine congrArg Vector.ofFn (funext fun m => ?_)
        by_cases e : m = n
        · subst e; simp [hn, ha]
        · simp [e]
  | none =>
    simp only
    rw [hf _ _ (by rw [hst]; exact href)]
    unfold State.recordResult
    have hres : A.result (s.env n) (s.station n) = A.resultAt j s n := by
      simp [LocalAct.resultAt, href]
    refine congrArg (State.finishJob · h.jid)
      (?_ : (A.apply (A.done j s held (A.filled j s h l) l) n).1.modHeld h.jid
          (fun x => { x with results :=
            (x.results.set n.val (some (A.apply (A.done j s held (A.filled j s h l) l) n).2)) })
        = A.done j s held (A.filled j s h (l ++ [n])) (l ++ [n]))
    · have ha : A.station (s.env n) (s.station n) = A.after j s n := by simp [LocalAct.after, href]
      unfold LocalAct.apply State.modHeld
      simp only [hst, henv]
      simp only [LocalAct.done, State.put, State.setStation, hmod, hset _ hres]
      congr 1
      · simp [LocalAct.bitsAt, href]
      · simp [LocalAct.writesAt, href]
      · exact hstations _ ha

/-- The same with a station of the mask still to come. -/
theorem LocalAct.step_before {A : LocalAct} {j : Job} {s : State} {held : List HeldJob} {h : HeldJob}
    {l : List StationNo} {n : StationNo} {f : State → StationNo → Done}
    (hf : ∀ u m, (u.station m).state.immediateRefusal j = none → f u m = A.apply u m)
    (hl : ∀ x ∈ held, x.jid < h.jid) (hn : n ∉ l)
    (hr : (A.filled j s h (l ++ [n])).complete = false) :
    (A.done j s held (A.filled j s h l) l).immediateAt h.jid j f n
      = A.done j s held (A.filled j s h (l ++ [n])) (l ++ [n]) := by
  rw [LocalAct.step_finish hf hl hn]
  have e1 : (A.done j s held (A.filled j s h (l ++ [n])) (l ++ [n])).heldJob h.jid
      = some (A.filled j s h (l ++ [n])) := find_last (h := A.filled j s h (l ++ [n])) hl
  unfold State.finishJob
  rw [e1]
  simp [hr]

/-- A station's result of a job without one of its own. -/
theorem LocalAct.filled_complete {A : LocalAct} {j : Job} {s : State} {h : HeldJob}
    {l : List StationNo} (ho : h.own = none) (hr : h.results = noResults) :
    (A.filled j s h l).complete = (maskStations h.mask).all fun n => decide (n ∈ l) := by
  unfold HeldJob.complete
  have : (A.filled j s h l).own = none := ho
  rw [this]
  simp only [Option.isSome_none, Bool.false_or]
  have hm : (A.filled j s h l).mask = h.mask := rfl
  rw [hm]
  congr 1
  funext n
  by_cases e : n ∈ l <;> simp [HeldJob.resultAt, LocalAct.filled, e, hr, noResults]

/-- An immediate job with a local effect, executed at each station of its mask in ascending number and
written back (R175, R178). -/
theorem LocalAct.immediate_eq {A : LocalAct} {j : Job} {s : State} {slot : Word64} {v : SlotView}
    {f : Nat → State → StationNo → Done} (hl : ∀ h ∈ s.held, h.jid < s.nextJid)
    (hm : v.header.mask ≠ 0)
    (hf : ∀ u m, (u.station m).state.immediateRefusal j = none → f s.nextJid u m = A.apply u m) :
    let l := maskStations v.header.mask
    let h := A.filled j s (newHeld s.nextJid slot v noResults none .notNeeded) l
    let h' : HeldJob := { h with formed := some (resultBytes h.results h.overall s.tb) }
    s.immediate slot v j f = { A.done j s s.held h' l with
      nextJid := s.nextJid + 1
      hmp := { s.hmp with
        jobQ := s.hmp.jobQ ++ l.flatMap (A.writesAt j s)
          ++ h'.backWrites (resultBytes h.results h.overall s.tb) } } := by
  intro l h h'
  generalize hx : newHeld s.nextJid slot v noResults none .notNeeded = h0 at *
  have hjid : h0.jid = s.nextJid := by rw [← hx]; rfl
  have hown : h0.own = none := by rw [← hx]; rfl
  have hres : h0.results = noResults := by rw [← hx]; rfl
  have hmask : h0.mask = v.header.mask := by rw [← hx]; rfl
  have hnd : l.Nodup := maskStations_nodup _
  have hs1 : s.hold slot v noResults none .notNeeded
      = A.done j { s with nextJid := s.nextJid + 1 } s.held (A.filled j s h0 []) [] := by
    have : A.filled j s h0 [] = h0 := by
      unfold LocalAct.filled
      simp only [List.not_mem_nil, if_false]
      congr 1
      apply Vector.ext; intro i hi; simp [HeldJob.resultAt]
    rw [this]
    unfold State.hold LocalAct.done
    rw [hx]
    simp only [List.not_mem_nil, if_false, List.foldl_nil, List.flatMap_nil, List.append_nil]
    have : (Vector.ofFn fun n => ({ s with nextJid := s.nextJid + 1 } : State).station n)
        = s.stations := by
      apply Vector.ext; intro i hi; simp [State.station]
    rw [this]; rfl
  have hfold : ∀ (rest pre : List StationNo) (n : StationNo), l = pre ++ rest ++ [n] →
      rest.foldl (fun s' n => s'.immediateAt s.nextJid j (f s.nextJid) n)
        (A.done j { s with nextJid := s.nextJid + 1 } s.held (A.filled j s h0 pre) pre)
      = A.done j { s with nextJid := s.nextJid + 1 } s.held (A.filled j s h0 (pre ++ rest))
          (pre ++ rest) := by
    intro rest
    induction rest with
    | nil => intro pre n _; simp
    | cons m ms ih =>
      intro pre n hl'
      rw [List.foldl_cons]
      have hmp : m ∉ pre ∧ n ∉ pre ++ [m] := by
        rw [hl'] at hnd
        simp only [List.append_assoc, List.cons_append, List.nodup_append, List.nodup_cons] at hnd
        constructor
        · intro hc; exact hnd.2.2 m hc m (by simp) rfl
        · intro hc
          rcases List.mem_append.mp hc with hc | hc
          · exact hnd.2.2 n hc n (by simp) rfl
          · have : n = m := by simpa using hc
            subst this
            exact hnd.2.1.1 (by simp)
      have := LocalAct.step_before (A := A) (j := j) (s := { s with nextJid := s.nextJid + 1 })
        (held := s.held) (h := h0) (l := pre) (n := m) (f := f s.nextJid) hf
        (fun x hx' => by rw [hjid]; exact hl x hx') hmp.1 (by
          rw [LocalAct.filled_complete hown hres, hmask]
          rw [List.all_eq_false]
          refine ⟨n, ?_, by simpa using hmp.2⟩
          change n ∈ l; rw [hl']; simp)
      rw [hjid] at this
      have e : ∀ k, A.filled j ({ s with nextJid := s.nextJid + 1 } : State) h0 k
          = A.filled j s h0 k := fun k => rfl
      rw [e, e] at this
      rw [this, ih (pre ++ [m]) n (by rw [hl']; simp)]
      simp
  obtain ⟨pre, n, hpre⟩ : ∃ pre n, l = pre ++ [n] := by
    have := maskStations_ne_nil hm
    exact ⟨l.dropLast, l.getLast this, (List.dropLast_append_getLast this).symm⟩
  have hmaskl : maskStations v.header.mask = l := rfl
  unfold State.immediate
  rw [hmaskl, hs1, hpre, List.foldl_append, hfold pre [] n (by simpa using hpre)]
  simp only [List.nil_append, List.foldl_cons, List.foldl_nil]
  have hnp : n ∉ pre := by
    rw [hpre] at hnd
    simp only [List.nodup_append] at hnd
    intro hc; exact hnd.2.2 n hc n (by simp) rfl
  have := LocalAct.step_finish (A := A) (j := j) (s := { s with nextJid := s.nextJid + 1 })
    (held := s.held) (h := h0) (l := pre) (n := n) (f := f s.nextJid) hf
    (fun x hx' => by rw [hjid]; exact hl x hx') hnp
  rw [hjid] at this
  have e : ∀ k, A.filled j ({ s with nextJid := s.nextJid + 1 } : State) h0 k
      = A.filled j s h0 k := fun k => rfl
  rw [e, e] at this
  rw [this, ← hpre]
  have hfin := State.finishJob_last
    (s := A.done j { s with nextJid := s.nextJid + 1 } s.held (A.filled j s h0 l) l)
    (l := s.held) (h := A.filled j s h0 l) rfl
    (fun x hx' => by change x.jid < h0.jid; rw [hjid]; exact hl x hx')
    (by
      rw [LocalAct.filled_complete hown hres, hmask, List.all_eq_true]
      intro m hm'; simpa using hm')
    (by change h0.formed = none; rw [← hx]; rfl)
    (by change h0.taken ≠ _; rw [← hx]; simp [newHeld])
  have ej : (A.filled j s h0 l).jid = s.nextJid := hjid
  rw [ej] at hfin
  rw [hfin]
  subst hx
  simp only [LocalAct.done, h', h]
  rfl

end Sys2Proof.Machine
end

