-- ==== Sys2Proof/Laws/Sequencer.lean ====
section
/-! SUPPORT. What a station's work that does nothing gives, and what a report, a firing and a step timer's
end can change. -/

namespace Sys2Proof.Machine

/-- A state with a station put where it stands is that state. -/
theorem State.put_self (s : State) (n : StationNo) : s.put n (s.station n) s.attention = s := by
  unfold State.put State.setStation State.station
  simp

/-- Work that does nothing. -/
theorem State.withStation_same {s : State} {n : StationNo} {f : Env → Ctx → Ctx}
    (h : f (s.env n) ⟨s.station n, s.attention, []⟩ = ⟨s.station n, s.attention, []⟩) :
    s.withStation n f = s := by
  rw [State.withStation_quiet h, State.put_self]

/-- What a firing may change (R124): the sequencer, CAP, the seal mark, AU, LP and BPU of its station, and
the attention bits; it hands nothing on. -/
def Ctx.firedFrom (c d : Ctx) : Prop :=
  c.effs = d.effs ∧ c.st = { d.st with
    ts := c.st.ts, cap := c.st.cap, au := c.st.au, lp := c.st.lp, bpu := c.st.bpu
    pg := { d.st.pg with mark := c.st.pg.mark } }

theorem Ctx.firedFrom_refl (c : Ctx) : c.firedFrom c := ⟨rfl, rfl⟩

theorem Ctx.firedFrom.trans {c d e : Ctx} (h : c.firedFrom d) (h' : d.firedFrom e) : c.firedFrom e := by
  refine ⟨h.1.trans h'.1, ?_⟩
  rw [h.2, h'.2]

theorem Ctx.capOut_fired (c : Ctx) (o : CapOut) : (c.capOut o).firedFrom c := by
  rw [Ctx.capOut_eq]
  refine ⟨rfl, ?_⟩
  show c.st.take o = _
  rw [Station.take_eq]

theorem whenAct_fired {f : Ctx → Ctx} (hf : ∀ c, (f c).firedFrom c) (acts : BitVec 8) (i : Nat)
    (c : Ctx) : (whenAct acts i f c).firedFrom c := by
  unfold whenAct; split
  · exact hf c
  · exact c.firedFrom_refl

theorem haltBoard_fired (e : Env) (c : Ctx) : (haltBoard e c).firedFrom c := by
  unfold haltBoard; split <;> exact ⟨rfl, rfl⟩

theorem startPulse_fired (e : Env) (w : Nat) (c : Ctx) : (startPulse e w c).firedFrom c := by
  unfold startPulse offerPower
  exact Ctx.firedFrom.trans (Ctx.capOut_fired _ _) ⟨rfl, rfl⟩

theorem enterTarget_fired (e : Env) (p : Program) (tgt : Target) (c : Ctx) :
    (c.mod (enterTarget e p tgt)).firedFrom c := by
  unfold Ctx.mod enterTarget; dsimp only; split <;> exact ⟨rfl, rfl⟩

theorem driveLine_fired (e : Env) (p : Program) (l : LineNo) (c : Ctx) :
    (c.mod (driveLine e p l)).firedFrom c := ⟨rfl, rfl⟩

theorem fire_fired (e : Env) (p : Program) (i : Fin 4) (st : Step) (cause : Cause) (c : Ctx) :
    (fire e p i st cause c).1.firedFrom c := by
  unfold fire
  dsimp only
  refine (enterTarget_fired ..).trans <|
    (whenAct_fired (fun c => (⟨rfl, rfl⟩ : (c.setAttn .trigger).firedFrom c)) ..).trans <|
    (whenAct_fired (driveLine_fired e p st.line) ..).trans <| (whenAct_fired (fun c => ?_) ..).trans <|
    (whenAct_fired (haltBoard_fired e) ..).trans <|
    (whenAct_fired (fun c => c.capOut_fired _) ..).trans <|
    (whenAct_fired (fun c => c.capOut_fired _) ..).trans <|
    (whenAct_fired (fun c => c.capOut_fired _) ..).trans <| whenAct_fired (fun c => c.capOut_fired _) ..
  split
  · exact startPulse_fired ..
  · exact c.firedFrom_refl

theorem takeReport_fired (e : Env) (x : Cond) (c : Ctx) : (takeReport e x c).1.firedFrom c := by
  unfold takeReport
  split
  · split
    · split
      · exact fire_fired ..
      · exact ⟨rfl, rfl⟩
    · exact Ctx.firedFrom_refl _
  · exact Ctx.firedFrom_refl _

/-- A report changes no more than a firing may (R119, R124). -/
theorem report_fired (e : Env) (x : Cond) (c : Ctx) : (report e x c).firedFrom c := by
  unfold report followUp
  split
  · exact Ctx.firedFrom.trans (takeReport_fired ..) (takeReport_fired ..)
  · exact takeReport_fired ..

/-- A step timer's end changes no more than a firing may (R122, R124). -/
theorem stepTimerExpires_fired (e : Env) (c : Ctx) : (stepTimerExpires e c).firedFrom c := by
  have follow : ∀ x : Ctx × Bool, x.1.firedFrom c → (followUp e x).firedFrom c := by
    intro x hx; unfold followUp; split
    · exact Ctx.firedFrom.trans (takeReport_fired ..) hx
    · exact hx
  unfold stepTimerExpires
  split
  · split
    · split
      · exact follow _ (fire_fired ..)
      · exact ⟨rfl, rfl⟩
    · exact follow _ (fire_fired ..)
  · exact Ctx.firedFrom_refl _

theorem report_effs (e : Env) (x : Cond) (c : Ctx) : (report e x c).effs = c.effs :=
  (report_fired e x c).1

/-- A station's work that hands nothing on. -/
theorem Ctx.eq_of_effs_nil {c : Ctx} (h : c.effs = []) : c = ⟨c.st, c.att, []⟩ := by rw [← h]

/-- A report at a station changes that station, as a firing may, and the attention bits (R119, R124). -/
theorem State.reportAt_fired (s : State) (n : StationNo) (x : Cond) :
    ∃ c : Ctx, s.reportAt n x = s.put n c.st c.att ∧ c.firedFrom ⟨s.station n, s.attention, []⟩ := by
  have h := report_effs (s.env n) x ⟨s.station n, s.attention, []⟩
  refine ⟨_, ?_, report_fired (s.env n) x _⟩
  unfold State.reportAt State.putReport
  exact State.withStation_quiet (Ctx.eq_of_effs_nil h)

/-- A sequencer that is not ARMED takes no report (R119). -/
theorem State.reportAt_unarmed {s : State} {n : StationNo} (h : (s.station n).unarmed) (x : Cond) :
    s.reportAt n x = s := by
  unfold State.reportAt State.putReport
  exact State.withStation_same (report_unarmed (c := ⟨s.station n, s.attention, []⟩) (s.env n) x h)

/-- A power event at a station whose sequencer is not ARMED is its record's offer (R98). -/
theorem State.putPower_unarmed {s : State} {n : StationNo} {u : Station} (h : u.unarmed) (ev : PowerEv) :
    s.putPower n u ev = s.putOffer n u s.attention (s.powerRec ev u.bpu) :=
  State.reportAt_unarmed (by simpa [State.putOffer] using h) _

end Sys2Proof.Machine
end

