-- ==== Sys2Proof/Tests/Slice0.lean ====
section
/-! SUPPORT. Tests of the PL-1840 on small states: ill-formed commands, worked examples of the spec, and
for each statement with hypotheses a concrete state and operands that meet them. Expected values of the
worked examples come from the spec's text. -/

namespace Sys2Proof.Tests

open Sys2Proof Sys2Proof.Machine

/-! ## Ill-formed commands -/

theorem test_wf_refuses_controlWords :
    (Instr.softReset 1 0).wf = false ∧ (Instr.attentionMaskWrite 4).wf = false
      ∧ (Instr.start 0).wf = false ∧ (Instr.start 5).wf = false
      ∧ (Instr.halt 1).wf = false ∧ (Instr.halt 4).wf = false
      ∧ (Instr.resume 1).wf = false ∧ (Instr.resume 2).wf = false
      ∧ (Instr.resume 7).wf = false := by decide

theorem test_wf_refuses_completionLengths :
    (Instr.descriptorReadDone 0 (zeros 63)).wf = false
      ∧ (Instr.slotStateReadDone 0 []).wf = false ∧ (Instr.slotStateReadDone 0 (zeros 2)).wf = false
      ∧ (Instr.slotReadDone 0 (zeros 127)).wf = false
      ∧ (Instr.profileReadDone 0 (zeros 65)).wf = false
      ∧ (Instr.writeDataReadDone 0 []).wf = false ∧ (Instr.writeDataReadDone 0 (zeros 6)).wf = false
      ∧ (Instr.writeDataReadDone 0 (zeros 260)).wf = false
      ∧ (Instr.programReadDone 0 (zeros 320)).wf = false
      ∧ (Instr.entryReadDone 0 (zeros 15)).wf = false
      ∧ (Instr.stationMap 0 ⟨0, false, 0⟩ (zeros 7)).wf = false := by simp [Instr.wf, zeros]

theorem test_wf_accepts :
    (Instr.softReset 4 0).wf = true ∧ (Instr.attentionMaskWrite 0x10001).wf = true
      ∧ (Instr.start 1).wf = true ∧ (Instr.halt 0).wf = true ∧ (Instr.resume 3).wf = true
      ∧ (Instr.descriptorReadDone 0 (zeros 64)).wf = true
      ∧ (Instr.slotReadDone 0 (zeros 128)).wf = true
      ∧ (Instr.writeDataReadDone 0 (zeros 256)).wf = true
      ∧ (Instr.programReadDone 0 (zeros 64)).wf = true
      ∧ (Instr.stationMap 0 ⟨0, false, 0⟩ (zeros 8)).wf = true := by simp [Instr.wf, regBit, zeros]

/-! ## Worked examples of the spec -/

/-- Section 3.3.1: the worked header, info bits 1 and 18. -/
theorem test_checkByte_worked : checkByte 0x00040002 = 0x1D := by decide

/-- Table 3-6, its five rows. -/
theorem test_headerCheck_table36 :
    headerCheck 0x00040002 0x1D = some (0x00040002, false)
      ∧ headerCheck 0x00000002 0x1D = some (0x00040002, true)
      ∧ headerCheck 0x00040002 0x15 = some (0x00040002, true)
      ∧ headerCheck 0x00040002 0x5D = some (0x00040002, true)
      ∧ headerCheck 0x00000000 0x1D = none := by decide

/-- Table 3-7. -/
theorem test_crc_of_zero : crc16 [0] = 0xFD02 := by decide

/-- Padded sizes of section 1.5 (5 and 41 payload bytes), 2.10 and 8.8 (a GAP's 12 bytes). -/
theorem test_padded_sizes :
    paddedSize 5 = 16 ∧ paddedSize 41 = 56 ∧ paddedSize 8 = 16 ∧ paddedSize 12 = 24 := by decide

/-- CAP of section 1.5: RECORDING, R = 1,000, next sequence number 412. -/
def cap15 : Capture :=
  { Capture.reset with state := .recording, ref := ⟨1000, true, .enable⟩, seq := 412 }

/-- Section 1.5, the first event: delta 3, sequence 412, R 1,003. -/
theorem test_delta_of_progress :
    let r : SrcRec := ⟨.progress 1 4, RecFlags.none, 16050, none⟩
    let c := (cap15.offer 4 16050 r).cap
    c.staging = [⟨.progress 1 4, RecFlags.none, 3, 412, 1003, 4⟩] ∧ c.ref = ⟨1003, true, .enable⟩
      ∧ c.seq = 413 := by decide

/-- A console line of 37 bytes, as the second event of section 1.5 offers it. -/
def line37 : SrcRec :=
  ⟨.consoleLine ⟨false, false, false, false, false⟩ 0 (List.replicate 37 0x41), RecFlags.none, 1200000,
    some 1199000⟩

/-- Section 1.5, case A: an ANCHOR of 75,000 before the line, whose origin offset is 63. -/
theorem test_anchor_before_line :
    let c := ({ cap15 with ref := ⟨1003, true, .enable⟩, seq := 413 }.offer 4 1200000 line37).cap
    c.staging.map (fun r => (r.payload.kindCode, r.delta, r.seq, r.size))
        = [(1, 0, 413, 16), (9, 0, 414, 56)]
      ∧ c.staging.head?.map Staged.payload = some (.anchor 75000 4 .deltaOverflow)
      ∧ c.staging.getLast?.map Staged.payload
        = some (.consoleLine ⟨false, false, false, false, false⟩ 63 (List.replicate 37 0x41))
      ∧ c.ref.value = 75000 ∧ c.seq = 415 := by decide

/-- Section 1.5, case B: with too little room (88 bytes free) the line is refused; one record of 56
bytes is lost. -/
theorem test_refused_line :
    let full : Staged := ⟨.fill 1032, RecFlags.none, 0, 0, 0, 4⟩
    let c : Capture := { cap15 with
      ref := ⟨1003, true, .enable⟩, seq := 413
      staging := List.replicate 7 full ++ [⟨.fill 809, RecFlags.none, 0, 0, 0, 4⟩] }
    let o := c.offer 4 1200000 line37
    c.free = 88 ∧ o.lossEntered = true ∧ o.cap.loss = true ∧ o.cap.pend = ⟨1, 56, 75000⟩
      ∧ o.cap.seq = 413 ∧ o.cap.ref.value = 1003 := by decide

/-- Section 5.5, line A: the record's origin offset at k = 4. -/
theorem test_origin_offset : originOffset 4 (unitOf 4 1034286) 1008246 = 1627 := by decide

/-- Section 11.3: the GAP that follows an ANCHOR with reason DELTA OVERFLOW. -/
theorem test_recovery_gap :
    let c : Capture := { Capture.reset with
      state := .recording, loss := true, pend := ⟨8, 6272, 5400000⟩
      ref := ⟨5390000, true, .enable⟩, seq := 2207 }
    (c.recover 4 235200000).staging.map (fun r => (r.payload, r.delta, r.seq))
      = [(.anchor 14700000 4 .deltaOverflow, 0, 2207), (.gap 8 6272 5400000, 0, 2208)] := by decide

/-- Table 12-5 and section 10.3: a posted MARK of stations 0 and 3 with NOTIFY. -/
theorem test_slot_of_mark :
    let d := [1, 4, 9, 1, 0, 0, 0, 0] ++ leBytes 8 77 ++ leBytes 4 0xCAFE ++ zeros 108
    slotView d = ⟨1, 4, ⟨9, true, 77⟩, .job (.mark 0xCAFE)⟩ := by decide

/-- Table 11-1 and Table 11-2: the bench's descriptor passes with entry count 64, and fails ENTRY COUNT
with 12. -/
theorem test_descriptor_of_bench :
    let d (entries : Nat) := leBytes 4 0x38314C50 ++ leBytes 2 32 ++ leBytes 2 entries
      ++ leBytes 8 0x200040040 ++ leBytes 8 0x200041040 ++ leBytes 4 0 ++ zeros 36
    (d 64).length = 64 ∧ descriptorCheck 0x200040000 (d 64) = .ok
      ∧ descriptorCheck 0x200040000 (d 12) = .entryCount
      ∧ areaOf (d 64) = ⟨0x200040040, 32, 0x200041040, 64, 100⟩ := by decide

/-- Section 11.4: a BLOCK READ of 100 words at 64 a request. -/
theorem test_block_of_100 :
    (blockRequests 0 64 100).map (fun r => (r.addr, r.count, r.offset))
      = [(0, 64, 0), (256, 36, 64)] := by decide

/-! ## States the statements speak about -/

/-- An area in force: 8 slots at 64, 16 page list entries at 2,048. -/
def area0 : Area := ⟨64, 8, 2048, 16, 100⟩

/-- RUNNING, every station OFF. -/
def running : State := { State.reset with run := true, runState := .running, area := some area0 }

/-- FAULTED, every station OFF. -/
def faulted : State := { running with runState := .faulted }

/-- A READY station with its link UP, its console IDLE and its board seated. -/
def ready : Station :=
  { Station.reset with
    state := .ready, profile := some Profile.default
    lp := ⟨true, true, none, Health.empty, none, [], none⟩
    cu := { ConsoleUnit.reset with rx := .idle }
    bpu := { PowerUnit.reset with state := .seated } }

/-- RUNNING with `t` as station 0. -/
def at0 (t : Station) : State := running.setStation 0 t

/-- A station with one queued job. -/
def has (t : Station) (j : Job) : Station := { t with queue := [⟨0, 5, j⟩] }

/-- A state whose read 0, issued at 0, is `a`. -/
def awaiting (s : State) (a : Access) : State :=
  { s with hmp := { s.hmp with inFlight := [⟨0, 0, a⟩], nextId := 1 } }

/-- Slot 0 of the area is being read whole as a posted job. -/
def slotRead (s : State) : State :=
  awaiting s (Access.readOf .sweep none 64 128 (.slotWhole 0 64 false true))

/-- A slot's 128 bytes with these first four bytes and parameters. -/
def slotOf (state kind mask : Byte) (params : List Byte) : List Byte :=
  [state, kind, mask, 0] ++ zeros 12 ++ params ++ zeros (112 - params.length)

/-- A slot has 128 bytes. -/
theorem slotOf_length (state kind mask : Byte) (params : List Byte) (h : params.length ≤ 112) :
    (slotOf state kind mask params).length = 128 := by
  simp [slotOf, zeros]; omega

/-- An open page. -/
def page0 : OpenPage := ⟨0, 2048, 4096, 1, 0, 0, 0, 0, 0, false, false⟩

/-- A descriptor with this signature, slot count, entry count, job board and page list. -/
def descriptor (sig slots entries board list : Nat) : List Byte :=
  leBytes 4 sig ++ leBytes 2 slots ++ leBytes 2 entries ++ leBytes 8 board ++ leBytes 8 list
    ++ leBytes 4 0 ++ zeros 36

/-- The descriptor of Table 11-1 with an entry count. -/
def benchDescriptor (entries : Nat) : List Byte :=
  descriptor 0x38314C50 32 entries 0x200040040 0x200041040

/-- With no result write about, the jobs are apart when the held ones are. -/
theorem jobsInv_of (s : State) (hj : (s.held.map HeldJob.jid).Nodup)
    (hs : (s.held.map HeldJob.slot).Nodup) (hn : ∀ h ∈ s.held, h.jid < s.nextJid)
    (hq : ∀ n, ∀ q ∈ (s.station n).queue, q.jid < s.nextJid)
    (ha : ∀ a ∈ s.accesses, a.purpose.resultOf = none) : s.jobsInv :=
  ⟨hj, hs, hn, hq, fun a h _ e => by rw [ha a h] at e; cases e⟩

/-- Slot 0 is awaited wherever it is being read and nothing is held. -/
theorem slotRead_awaitsSlot (s : State) (h : s.held = []) (he : s.elapsed = 0) :
    (slotRead s).awaitsSlot 0 0 64 true :=
  ⟨⟨_, rfl, rfl, by simp [InFlight.inTime, slotRead, awaiting, he]⟩,
    by simp [State.holdsSlot, slotRead, awaiting, h]⟩

/-! ## Witnesses: resets, registers, the start, the halt and faults -/

theorem test_wit_StepRunsFrontCommand :
    { State.reset with pending := [.accessGrant, .syncEdge] }.pending = .accessGrant :: [.syncEdge] := by
  decide

theorem test_wit_IdleStepCountsOneTick : State.reset.pending = [] := by decide

theorem test_wit_SoftResetKeepsMapAndTime : regBit 4 2 = true := by decide

theorem test_wit_AttnFollowsBitsAndMask :
    (regBit 0x07FF0000 2 = false ∧ regBit 0x07FF0000 0 = State.reset.run
      ∧ (regBit 0x07FF0000 1 = true → State.reset.runState = .faulted → State.reset.run = false))
    ∧ regBit 0x10003 2 = false ∧ regBit 0x10003 0 = running.run
      ∧ (regBit 0x10003 1 = true → running.runState = .faulted → running.run = false) := by decide

theorem test_wit_PlainRegisterWrites :
    PlainReg.status ≠ .areaBaseLow ∧ PlainReg.status ≠ .areaBaseHigh := by decide

theorem test_wit_StartReadsDescriptor :
    (let s : State := { State.reset with areaBaseLow := 64 };
      regBit 1 0 = true ∧ regBit 1 2 = false ∧ s.run = false ∧ s.runState = .stopped
        ∧ s.start = .none ∧ s.areaBase.toNat % 64 = 0)
    ∧ (let s : State := { State.reset with areaBaseLow := 63 }
      s.run = false ∧ s.runState = .stopped ∧ s.start = .none ∧ s.areaBase.toNat % 64 ≠ 0)
    ∧ (let s : State := { running with run := false, halting := true }
      regBit 1 1 = false ∧ s.run = false ∧ s.runState = .running)
    ∧ (let s : State := { faulted with run := false }
      s.run = false ∧ s.runState = .faulted ∧ s.areaBase.toNat % 64 = 0) := by decide

/-- A halt's last seal or FILLING write, RUN written 1 again since, the base aligned or not. -/
theorem test_wit_haltEndsInStart (w : Purpose)
    (hw : w = .sealFull false ∨ w = .sealFull true ∨ w = .sealPart ∨ w = .filling) :
    let a := Access.writeOf .page (some 0) 2048 [3] w
    let s : State := { at0 { ready with pageQ := [a] } with halting := true, areaBaseLow := 64 }
    s.runState = .running ∧ s.halting = true ∧ s.run = true ∧ w.isSeal = true ∧ s.nextGrant = some a
      ∧ s.areaBase.toNat % 64 = 0 ∧ { s with areaBaseLow := 63 }.areaBase.toNat % 64 ≠ 0 := by
  rcases hw with rfl | rfl | rfl | rfl <;> decide

/-- The bench's descriptor read is awaited. -/
def descriptorAwaited : State :=
  awaiting { State.reset with run := true, start := .reading }
    ⟨.sweep, none, 0x200040000, 64, none, .descriptorRead⟩

/-- Each check of Table 10-3 at a boundary, and a descriptor that passes them all. -/
theorem test_wit_DescriptorIsChecked :
    (let d := benchDescriptor 64
     d.length = 64 ∧ descriptorAwaited.start = .reading ∧ field d 0 4 = 0x38314C50
      ∧ field d 4 2 = 32 ∧ field d 6 2 = 64 ∧ field d 8 8 = 0x200040040
      ∧ field d 16 8 = 0x200041040)
    ∧ descriptorAwaited.awaits 0 ⟨.sweep, none, 0x200040000, 64, none, .descriptorRead⟩
    ∧ field (descriptor 0x38314C51 32 64 0 0) 0 4 ≠ 0x38314C50
    ∧ (field (descriptor 0 7 64 0 0) 4 2 < 8 ∧ 256 < field (descriptor 0 257 64 0 0) 4 2)
    ∧ (field (benchDescriptor 15) 6 2 < 16 ∧ 4096 < field (benchDescriptor 4097) 6 2)
    ∧ field (descriptor 0 8 16 0x20 0) 8 8 % 64 ≠ 0
    ∧ (let board := field (descriptor 0 8 16 0xFFFFFFFFFFFFFFC0 0) 8 8
     board % 64 = 0 ∧ 2 ^ 64 < board + 128 * 8) :=
  ⟨by decide, ⟨_, rfl, rfl, rfl⟩, by decide⟩

/-- The bench's regions share no byte; a job board at the descriptor's own address shares its first. -/
theorem test_wit_descriptorOverlap :
    (¬ ∃ x : Nat, 0x200040000 ≤ x ∧ x < 0x200040000 + 64 ∧ 0x200040040 ≤ x ∧ x < 0x200040040 + 128 * 32)
    ∧ (¬ ∃ x : Nat, 0x200040000 ≤ x ∧ x < 0x200040000 + 64 ∧ 0x200041040 ≤ x ∧ x < 0x200041040 + 16 * 64)
    ∧ (¬ ∃ x : Nat, 0x200040040 ≤ x ∧ x < 0x200040040 + 128 * 32 ∧ 0x200041040 ≤ x
      ∧ x < 0x200041040 + 16 * 64)
    ∧ ∃ x : Nat, 0x200040000 ≤ x ∧ x < 0x200040000 + 64 ∧ 0x200040000 ≤ x ∧ x < 0x200040000 + 128 * 32 :=
  ⟨by omega, by omega, by omega, 0x200040000, by omega⟩

theorem test_wit_HaltSealsOpenPages :
    (let s := at0 { ready with pg := { PageState.reset with page := some page0 } };
      regBit 0 0 = false ∧ regBit 0 2 = false ∧ s.run = true ∧ s.runState = .running
        ∧ s.halting = false)
    ∧ (faulted.run = true ∧ faulted.runState = .faulted)
    ∧ (let s : State := { State.reset with run := true, start := .reading }
      s.run = true ∧ s.runState = .stopped ∧ s.start ≠ .none) := by decide

theorem test_wit_ResumeSealsPages :
    (regBit 3 0 = true ∧ regBit 3 1 = true ∧ regBit 3 2 = false)
    ∧ (let s : State := { faulted with startFault := true }
      s.run = true ∧ s.runState = .faulted ∧ s.startFault = true)
    ∧ (let s := faulted.setStation 0 { ready with pg := { PageState.reset with page := some page0 } }
      s.run = true ∧ s.runState = .faulted ∧ s.startFault = false ∧ s.resuming = false
        ∧ ((s.station 0).pg.page ≠ none ∨ (s.station 0).pg.detached ≠ none))
    ∧ (faulted.startFault = false ∧ faulted.resuming = false ∧ faulted.area = some area0
      ∧ faulted.sweep.phase = .idle
      ∧ (∀ n, (faulted.station n).pg.page = none ∧ (faulted.station n).pg.detached = none
        ∧ (faulted.station n).pageQ = [] ∧ (faulted.station n).head ≠ .quiesceDrain)
      ∧ ∀ h ∈ faulted.held, h.memFail = 0 ∧ h.writeFail = false ∧ h.takenFail = false) := by decide

/-- A held job whose result bytes are formed, its TAKEN write waiting. -/
def formedJob : HeldJob :=
  ⟨0, 64, 18, 1, true, 5, noResults, none, .waiting, some [1], 0, false, false, false⟩

/-- A released job marked MEMORY at station 0, and one whose DONE write failed. -/
def marked (h : HeldJob) (mem : Mask8) (write tkn : Bool) : HeldJob :=
  { h with taken := .issued, memFail := mem, writeFail := write, takenFail := tkn }

/-- RESUME in FAULTED, and the capability write of an R184 start, with one marked job of each kind. -/
theorem test_wit_markedJobs (h : HeldJob)
    (hh : h = marked formedJob 1 false false ∨ h = marked formedJob 0 true false
      ∨ h = marked formedJob 0 false true ∨ h = marked formedJob 1 true true) :
    let s : State := { faulted with held := [h], nextJid := 1 }
    let a := Access.writeOf .sweep none 96 (zeros 16) (.capability area0)
    let s' : State := { State.reset with
      run := true, start := .writing, dealAtStart := true, held := [h], nextJid := 1
      hmp := { HostPort.reset with sweepQ := [a] } }
    (s.jobsInv ∧ s'.jobsInv) ∧ h ∈ s.held ∧ (∀ x ∈ s.held, x.jid ≠ h.jid → x.unmarked)
      ∧ s.run = true ∧ s.startFault = false ∧ s.resuming = false ∧ s.area = some area0
      ∧ s.sweep.phase = .idle ∧ s'.nextGrant = some a ∧ s'.runState = .stopped
      ∧ s'.halting = false ∧ s'.resuming = false ∧ s'.sweep.phase = .idle := by
  rcases hh with rfl | rfl | rfl | rfl <;>
    exact ⟨⟨jobsInv_of _ (by decide) (by decide) (by decide) (by decide) (by decide),
      jobsInv_of _ (by decide) (by decide) (by decide) (by decide) (by decide)⟩, by decide,
      by simp, by decide⟩

/-- The kinds of marked job that `State.dealtWith` tells apart. -/
theorem test_wit_dealtWith :
    (marked formedJob 1 false false).memFail ≠ 0 ∧ (marked formedJob 1 false false).doneIssued = false
      ∧ (marked formedJob 0 true false).formed = some [1]
      ∧ { marked formedJob 1 true false with doneIssued := true }.doneIssued = true
      ∧ (marked formedJob 1 true true).takenFail = true ∧ formedJob.complete = false := by decide

/-- A resumption whose only waiting access is the FULL write of an open page, or of a detached one. -/
theorem test_wit_resumptionEnds (detached : Bool) :
    let a := Access.writeOf .page (some 0) 2048 [3] (.sealFull detached)
    let g : PageState := { PageState.reset with
      page := some page0, detached := some page0, sealing := some .fault }
    let s : State := { faulted.setStation 0 { ready with pg := g, pageQ := [a] } with resuming := true }
    s.runState = .faulted ∧ s.resuming = true ∧ s.halting = false ∧ s.area = some area0
      ∧ s.sweep.phase = .idle ∧ (∀ m, (s.station m).head ≠ .quiesceDrain)
      ∧ (s.station 0).pg.sealing ≠ some .quiesce ∧ s.nextGrant = some a := by
  cases detached <;> decide

theorem test_wit_FailureFaultsRunningDevice :
    let a : Access := ⟨.sweep, none, 64, 1, none, .slotState 0⟩
    let s : State := { awaiting running a with elapsed := 5000000 }
    let f := awaiting faulted a
    (s.runState = .running ∧ s.readInFlight 0 = some ⟨0, 0, a⟩ ∧ s.elapsed ≤ 0 + 5000000
      ∧ 0 + 5000000 ≤ s.elapsed)
    ∧ f.runState = .faulted ∧ f.resuming = false := by decide

/-- Read 0 of `a`, or a write of `a`, fails by an error completion. -/
theorem test_wit_failsBy (s : State) (a : Access) (he : s.elapsed = 0) :
    (awaiting s a).failsBy (.errorCompletion 0) a
    ∧ { s with hmp := { s.hmp with inFlight := [], writes := [⟨0, a, false⟩] } }.failsBy
        (.errorCompletion 0) a
    ∧ ∀ t : State, t = { awaiting s a with elapsed := 5000000 } → t.failsBy (.readTimeout 0) a :=
  ⟨Or.inl ⟨0, ⟨0, 0, a⟩, rfl, rfl, Or.inl ⟨rfl, by simp [awaiting, he]⟩⟩,
    Or.inr ⟨0, ⟨0, a, false⟩, rfl, rfl, rfl, rfl⟩,
    fun t ht => Or.inl ⟨0, ⟨0, 0, a⟩, by subst ht; rfl, rfl, Or.inr ⟨rfl, by simp [ht]⟩⟩⟩

theorem test_wit_faultStates :
    (running.runState = .running ∧ running.elapsed = 0)
    ∧ (State.reset.runState = .stopped ∧ State.reset.start = .none)
    ∧ ({ State.reset with start := .reading }.runState = .stopped
      ∧ { State.reset with start := .reading }.start ≠ .none)
    ∧ ({ faulted with resuming := true }.runState = .faulted
      ∧ { faulted with resuming := true }.resuming = true)
    ∧ ((∃ x ∈ { running with held := [formedJob] }.held, x.jid = formedJob.jid)
      ∧ (∀ x ∈ { running with held := [{ formedJob with jid := 1 }] }.held, x.jid ≠ formedJob.jid)
      ∧ (∃ x ∈ { running with held := [{ formedJob with jid := 1 }] }.held, x.slot = formedJob.slot)
      ∧ ∀ x ∈ running.held, x.jid ≠ formedJob.jid ∧ x.slot ≠ formedJob.slot) := by decide

/-! ## Witnesses: sweeps and slots -/

theorem test_wit_SweepRequestsBeginOrPend :
    State.reset.runState ≠ .running
    ∧ (let s : State := { running with sweep := ⟨.readingState 7, false, false, 0, some 100⟩ }
      s.runState = .running ∧ s.halting = false ∧ s.sweep.phase ≠ .idle)
    ∧ (let s : State := { running with
          elapsed := 100, sweep := ⟨.readingState 7, false, false, 0, some 100⟩ }
      s.area = some area0 ∧ due s.sweep.timer s.elapsed = true ∧ s.sweep.phase ≠ .idle)
    ∧ (let s : State := { running with elapsed := 100, sweep := ⟨.idle, false, false, 0, some 100⟩ }
      s.area = some area0 ∧ s.sweep.phase = .idle ∧ s.runState = .running ∧ s.halting = false
        ∧ due s.sweep.timer s.elapsed = true) := by decide

/-- The state of slot i is awaited in a first sweep. -/
def stateAwaited (i : Nat) (pend : Bool) : State :=
  awaiting { running with sweep := ⟨.readingState i, true, pend, 0, none⟩ }
    ⟨.sweep, none, area0.slot i, 1, none, .slotState i⟩

theorem test_wit_SlotStateDecidesSlot :
    (∀ i p, (stateAwaited i p).awaits 0 ⟨.sweep, none, area0.slot i, 1, none, .slotState i⟩)
    ∧ (let s := stateAwaited 0 false
      s.area = some area0 ∧ s.holdsSlot (area0.slot 0) = false ∧ s.sweep.first = true
        ∧ 0 + 1 < area0.slotCount ∧ 6 + 1 < area0.slotCount ∧ area0.slotCount ≤ 7 + 1
        ∧ (stateAwaited 7 false).sweep.pending = false
        ∧ (stateAwaited 7 true).sweep.pending = true) :=
  ⟨fun _ _ => ⟨_, rfl, rfl, rfl⟩, by decide⟩

theorem test_wit_slotRead :
    (slotRead (at0 ready)).jobsInv ∧ (slotRead (at0 ready)).awaitsSlot 0 0 64 true :=
  ⟨jobsInv_of _ (by decide) (by decide) (by decide) (by decide) (by decide), slotRead_awaitsSlot _ rfl rfl⟩

theorem test_wit_RefusedJobIsWrittenBack :
    (field (slotOf 0 0 0 []) 0 1 ≠ 1)
    ∧ (let d := slotOf 1 0 1 []
      field d 0 1 = 1 ∧ field d 1 1 = 0)
    ∧ (let d := slotOf 1 24 1 []
      field d 0 1 = 1 ∧ 23 < field d 1 1)
    ∧ (let d := slotOf 1 1 0 []
      field d 0 1 = 1 ∧ field d 1 1 = 1 ∧ field d 2 1 = 0)
    ∧ (let d := slotOf 1 21 0 []
      field d 1 1 = 21 ∧ field d 2 1 = 0)
    ∧ (let d := slotOf 1 22 1 []
      field d 1 1 = 22 ∧ field d 2 1 ≠ 0)
    ∧ (let d := slotOf 1 12 1 [4]
      (slotView d).job = .refused)
    ∧ (let d := slotOf 1 3 1 [4]
      (slotView d).job = .job (.status 4) ∧ (Job.status 4).fieldsOk = false)
    ∧ (let d := slotOf 2 1 1 []
      field d 0 1 = 2 ∧ (slotRead running).holdsSlot 64 = false) := by decide

theorem test_wit_orphanSlot :
    let a := Access.readOf .sweep none 64 128 (.slotWhole 0 64 true true)
    (awaiting running a).jobsInv ∧ (awaiting running a).holdsSlot 64 = false
      ∧ (awaiting running a).awaits 0 a :=
  ⟨jobsInv_of _ (by decide) (by decide) (by decide) (by decide) (by decide), by decide, _, rfl, rfl, rfl⟩

/-- Slots at the boundaries of Tables 10-6 and 4-3, and one of each form of Table 12-5 with a code. -/
theorem test_wit_slotFields :
    (let d := slotOf 1 12 1 [3, 3]
     field d 1 1 = 12 ∧ field d 16 1 = 3 ∧ 2 < field d 17 1)
    ∧ (let d := slotOf 1 13 1 [4]
     field d 1 1 = 13 ∧ 3 < field d 16 1)
    ∧ (let d := slotOf 1 15 1 (zeros 10 ++ [2])
     field d 1 1 = 15 ∧ 1 < field d 26 1)
    ∧ (let d := slotOf 1 21 1 [2]
     field d 1 1 = 21 ∧ 1 < field d 16 1)
    ∧ (Job.read 0 65 4).fieldsOk = false ∧ (Job.blockRead 0 4096 4).fieldsOk = true := by decide

theorem test_wit_slotJobs :
    (let d := slotOf 1 12 1 [3, 1]
     field d 1 1 = 12 ∧ field d 16 1 = 3 ∧ field d 17 1 = 1)
    ∧ (let d := slotOf 1 15 1 (zeros 8 ++ [2, 0, 0])
     field d 1 1 = 15 ∧ field d 26 1 = 0)
    ∧ (let d := slotOf 1 19 1 [2]
     field d 1 1 = 19 ∧ field d 16 1 = 2)
    ∧ field (slotOf 1 23 0 [7, 6, 5, 4, 3, 2, 1, 0]) 1 1 = 23 := by decide

/-- Each of those slots is 128 bytes. -/
theorem test_wit_slotLength :
    (slotOf 1 15 1 (zeros 8 ++ [2, 0, 0])).length = 128
    ∧ (slotOf 1 23 0 [7, 6, 5, 4, 3, 2, 1, 0]).length = 128 :=
  ⟨slotOf_length _ _ _ _ (by decide), slotOf_length _ _ _ _ (by decide)⟩

/-- A station whose queue holds four jobs. -/
def fullStation : Station := { ready with queue := List.replicate 4 ⟨0, 5, .ping⟩ }

theorem test_wit_QueuedJobIsTakenOrLeftPosted :
    (let d := slotOf 1 18 1 [];
      field d 0 1 = 1 ∧ (slotView d).job = .job .ping ∧ Job.ping.cls = .queued
        ∧ (slotView d).header.mask = 1 ∧ Job.ping.fieldsOk = true)
    ∧ (running.station 0).state = .off
    ∧ (((at0 ready).station 0).state = .ready ∧ ((at0 ready).station 0).queue.length < 4
      ∧ inMask (at0 ready).sweep.blocked 0 = false)
    ∧ (fullStation.state = .ready ∧ 4 ≤ ((at0 fullStation).station 0).queue.length) := by decide

theorem test_wit_fullStation :
    let s := { slotRead (at0 fullStation) with nextJid := 1 }
    s.jobsInv ∧ s.awaitsSlot 0 0 64 true :=
  ⟨jobsInv_of _ (by decide) (by decide) (by decide) (by decide) (by decide), ⟨_, rfl, rfl, rfl⟩, rfl⟩

/-! ## Witnesses: the memory arbiter -/

/-- An admitted record of 1,024 padded bytes. -/
def bigRec : Staged := ⟨.fill 1016, RecFlags.none, 0, 0, 0, 4⟩

/-- Accesses waiting by class at a station whose staging holds 6,144 bytes, the burst count at `burst`
and the non-page pointer at `ptr`. -/
def pressed (sw jb pg : Bool) (burst : Nat) (ptr : AccessClass) : State :=
  let a : Access := ⟨.page, some 0, 4128, 8, some (zeros 8), .record true⟩
  let s := at0 { ready with
    cap := { Capture.reset with staging := List.replicate 6 bigRec }
    pageQ := if pg then [a] else [] }
  { s with hmp := { s.hmp with
      sweepQ := if sw then [⟨.sweep, none, 64, 1, none, .slotState 0⟩] else []
      jobQ := if jb then [⟨.job, some 0, 128, 8, some (zeros 8), .data 0 0⟩] else []
      burst := burst, nonPagePtr := ptr } }

theorem test_wit_ArbiterChoosesClassAndStation :
    6144 ≤ ((pressed true true true 2 .job).station 0).cap.used
    ∧ (pressed true true true 2 .job).waiting .page = true
    ∧ ((pressed true true false 0 .job).waiting .page = false
      ∧ (pressed true true false 0 .job).waiting .sweep = true
      ∧ (pressed true true false 0 .job).waiting .job = true)
    ∧ ((pressed true true true 3 .sweep).hmp.burst = 3
      ∧ (pressed true true true 3 .sweep).waiting .sweep = true
      ∧ (pressed true true true 3 .sweep).waiting .job = true)
    ∧ ((pressed true false true 3 .job).waiting .sweep = true
      ∧ (pressed true false true 3 .job).waiting .job = false)
    ∧ ((pressed false true true 3 .job).waiting .sweep = false
      ∧ (pressed false true true 3 .job).waiting .job = true)
    ∧ ((pressed false false true 3 .job).waiting .sweep = false
      ∧ (pressed false false true 3 .job).waiting .job = false
      ∧ (pressed false false true 3 .job).waiting .page = true)
    ∧ ((∀ n, ((at0 ready).station n).cap.used < 6144)
      ∧ (pressed false false true 3 .job).grantClass = some .page
      ∧ (pressed false false true 3 .job).pageStation = some 0) := by decide

/-- Section 9.7, grants 1, 4 and 8: PAGE below a burst count of 3, then SWEEP after JOB, then JOB after
SWEEP. -/
theorem test_grants_under_pressure :
    (pressed true true true 0 .job).grantClass = some .page
    ∧ (pressed true true true 3 .job).grantClass = some .sweep
    ∧ (pressed false true true 3 .sweep).grantClass = some .job := by decide

theorem test_wit_GrantIssuesOneAccess :
    State.reset.nextGrant = none
    ∧ (pressed false false true 3 .job).nextGrant
        = some ⟨.page, some 0, 4128, 8, some (zeros 8), .record true⟩
    ∧ (pressed true false false 3 .job).nextGrant
        = some ⟨.sweep, none, 64, 1, none, .slotState 0⟩ := by decide

theorem test_wit_JobIssuesTakeEffect :
    (let a := Access.writeOf .sweep none 96 (zeros 16) (.capability area0)
     let s : State := { State.reset with
        run := true, start := .writing, hmp := { HostPort.reset with sweepQ := [a] } }
     s.runState = .stopped ∧ s.halting = false ∧ s.resuming = false ∧ s.sweep.phase = .idle
        ∧ s.nextGrant = some a)
    ∧ (let a := Access.writeOf .job none formedJob.slot [3] (.done formedJob)
     let s : State := { running with held := [formedJob], hmp := { HostPort.reset with jobQ := [a] } }
     s.runState = .running ∧ s.halting = false ∧ s.resuming = false ∧ s.nextGrant = some a) := by
  decide

theorem test_wit_takenIssue :
    let a := Access.writeOf .sweep none 64 [2] (.taken 0)
    let s : State := { running with
      held := [formedJob], nextJid := 1, hmp := { HostPort.reset with sweepQ := [a] } }
    s.jobsInv ∧ formedJob ∈ s.held ∧ formedJob.formed = some [1] ∧ s.nextGrant = some a :=
  ⟨jobsInv_of _ (by decide) (by decide) (by decide) (by decide) (by decide), by decide⟩

/-! ## Witnesses: immediate and device jobs -/

theorem test_wit_ImmediateJobs :
    let s := slotRead (at0 ready)
    (s.jobsInv ∧ s.awaitsSlot 0 0 64 true)
      ∧ (⟨1, true, 5⟩ : JobHeader).mask ≠ 0 ∧ (⟨0, true, 5⟩ : JobHeader).mask = 0
      ∧ s.runState = .running ∧ s.halting = false
      ∧ (0x1000 : Word64).toNat % 8 = 0
      ∧ (0xFFFFFFFFFFFF : Word64).toNat < 2 ^ 48 ∧ s.pendingLoad = none :=
  ⟨test_wit_slotRead, by decide⟩

theorem test_wit_AbandonPutsStationsOff :
    let s := slotRead (faulted.setStation 0
      { ready with pg := { PageState.reset with page := some page0 } })
    s.awaitsSlot 0 0 64 true ∧ inMask 1 0 = true ∧ s.runState = .faulted ∧ s.resuming = false
      ∧ (s.station 0).state ≠ .off ∧ (s.station 0).pg.page = some page0 :=
  ⟨slotRead_awaitsSlot _ rfl rfl, by decide⟩

/-- ABANDON in a halt: the halt has begun its seal of station 0's page. -/
theorem test_wit_abandonInHalt :
    let t := { ready with pg := { PageState.reset with page := some page0, sealing := some .halt } }
    let s : State := { slotRead (at0 t) with run := false, halting := true }
    s.jobsInv ∧ s.awaitsSlot 0 0 64 true ∧ s.runState = .running ∧ s.halting = true
      ∧ inMask 1 0 = true ∧ (s.station 0).state ≠ .off :=
  ⟨jobsInv_of _ (by decide) (by decide) (by decide) (by decide) (by decide),
    ⟨⟨_, rfl, rfl, rfl⟩, rfl⟩, by decide⟩

theorem test_wit_StatusWritesRecords :
    ready.cap.bounded ∧ ready.au.bounded ∧ ready.queue.length ≤ 4 ∧ fullStation.queue.length ≤ 4 :=
  ⟨⟨by decide, by decide, by decide, by decide⟩, ⟨by decide, by decide, by decide⟩, by decide⟩

theorem test_wit_statusBounds :
    ready.cap.historySize ≤ 8192 ∧ ready.bpu.retry ≤ 7
      ∧ (∀ h, { ready.bpu with held := some ⟨4, 7⟩ }.held = some h → h.width ≤ 4)
      ∧ (∀ m, CaptureState.stopping 65535 = .stopping m → m ≤ 65535)
      ∧ ready.cap.pend.records ≤ 4294967295 ∧ ready.cap.pend.bytes ≤ 4294967295
      ∧ (∀ p, some page0 = some p → p.serial ≤ 4294967295) ∧ ready.lp.health.corrected ≤ 65535 := by
  refine ⟨by decide, by decide, ?_, ?_, by decide, by decide, ?_, by decide⟩
  · rintro h ⟨⟩; decide
  · rintro m ⟨⟩; decide
  · rintro p ⟨⟩; decide

theorem test_wit_TimeLoadsTakeEffect :
    State.reset.pendingLoad = none
    ∧ { State.reset with pendingLoad := some 7 }.pendingLoad = some 7 := by decide

theorem test_wit_StationMapNeedsAllOff :
    (let cs : List Byte := [7, 6, 5, 4, 3, 2, 1, 0]
     cs.length = 8 ∧ (∀ c ∈ cs, c.toNat ≤ 7) ∧ cs.Nodup)
    ∧ (∀ n, ((slotRead running).station n).state = .off)
    ∧ ((slotRead (at0 ready)).station 0).state ≠ .off
    ∧ (let cs : List Byte := [8, 6, 5, 4, 3, 2, 1, 0]
     cs.length = 8 ∧ ¬ ∀ c ∈ cs, c.toNat ≤ 7)
    ∧ (let cs : List Byte := [7, 7, 5, 4, 3, 2, 1, 0]
     cs.length = 8 ∧ ¬ cs.Nodup) := by decide

theorem test_wit_mapIsPermutation :
    State.reset.stationMap.toList.Nodup ∧ (at0 ready).stationMap.toList.Nodup
      ∧ (at0 ready).stationOf 0 = some 0 := by decide

theorem test_wit_OnlyLoadsChangeTimeBase :
    let s : State := { State.reset with pendingLoad := some 7 }
    ∃ t, exec .syncEdge s = .next t ∧ t.tb ≠ s.tb := ⟨_, rfl, by decide⟩

/-! ## Witnesses: results and queued jobs at the head -/

theorem test_wit_ResultIsRecordedAndWrittenBack :
    (let s : State := { running with held := [{ formedJob with formed := none }], nextJid := 1 }
     formedJob ∈ { s with held := [formedJob] }.held
      ∧ ({ formedJob with results := formedJob.results.set 0 (some (Res.okv 0)) }).complete = true
      ∧ ({ formedJob with mask := 3, results := formedJob.results.set 0 (some (Res.okv 0)) }).complete
        = false
      ∧ formedJob.formed ≠ none ∧ { formedJob with formed := none }.formed = none)
    ∧ (let h : HeldJob := { formedJob with results := formedJob.results.set 0 (some (Res.okv 9)) }
     h.own = none ∧ h.mask ≠ 0
      ∧ ∀ n, inMask h.mask n = true → h.resultAt n = some (Res.okv 9)) := by decide

theorem test_wit_resultBytes :
    let per := noResults.set 0 (some (⟨.boardError, true, 15, 0⟩ : Res))
    (⟨.ok, false, 0, 4294967295⟩ : Res).value ≤ 4294967295 ∧ (⟨.ok, false, 0, 4294967295⟩ : Res).sub < 16
      ∧ ∀ (n : StationNo) r, per[n.val] = some r → r.sub < 16 := by
  refine ⟨by decide, by decide, fun n r => ?_⟩
  fin_cases n <;> (intro h; cases h; try decide)

theorem test_wit_heldJobsInv :
    let s : State := { running with held := [formedJob], nextJid := 1 }
    s.jobsInv ∧ formedJob ∈ s.held :=
  ⟨jobsInv_of _ (by decide) (by decide) (by decide) (by decide) (by decide), by decide⟩

theorem test_wit_HeadCheckRefusals :
    (let t := has { ready with state := .parked } .ping
     t.head = .waiting ∧ t.queue = [⟨0, 5, .ping⟩] ∧ Job.ping.headRow 0 = some (.ping 0)
      ∧ t.state = .parked ∧ Job.ping ≠ .unpark)
    ∧ (let t := has ready .unpark
     t.head = .waiting ∧ Job.unpark.headRow 0 = some (.unpark 0) ∧ t.state = .ready)
    ∧ (let t := has { ready with state := .quiescing } .park
     t.head = .waiting ∧ Job.park.headRow 0 = some (.park 0) ∧ t.state = .quiescing) := by decide

/-- A queued job has come to the head of station 0. -/
theorem atHead_has (t : Station) (j : Job) (hw : t.working = true) (hh : t.head = .waiting) :
    ((at0 (has t j)).station 0).atHead ⟨0, 5, j⟩ j := ⟨hw, hh, rfl, [], rfl⟩

/-- A profile record with the defaults of Table 2-3 and this line limit. -/
def profileBytes (lineLimit : Nat) : List Byte :=
  [1, 4] ++ leBytes 2 4096 ++ leBytes 2 100 ++ [0xFF, 0] ++ leBytes 2 1024 ++ leBytes 2 10000
    ++ [64, 1] ++ leBytes 2 lineLimit ++ leBytes 2 10 ++ leBytes 2 20 ++ leBytes 2 868 ++ [1, 0x7F]
    ++ leBytes 2 500 ++ leBytes 2 200 ++ [10, 3] ++ leBytes 2 500 ++ leBytes 2 2000 ++ leBytes 2 50
    ++ zeros 28

/-- Table 2-3 and section 11.1: the defaults as a record, and a line limit of 600 clamped to 512. -/
theorem test_profile_defaults_and_clamp :
    (profileBytes 256).length = 64 ∧ profileOf (profileBytes 256) = some (Profile.default, false)
      ∧ profileOf (profileBytes 600) = some ({ Profile.default with lineLimit := 512 }, true) := by
  decide

theorem test_wit_ConfigureTakesProfile :
    let t := has ready (.configure 4096)
    let a : Access := ⟨.job, some 0, 4096, 64, none, .profileRead 0 0⟩
    let s := awaiting (at0 { t with head := .profileRead }) a
    ((at0 t).station 0).atHead ⟨0, 5, .configure 4096⟩ (.configure 4096)
      ∧ (t.cap.state = .stopped ∧ t.ts.state = .disarmed)
      ∧ ¬ CaptureState.watching = .stopped
      ∧ s.awaits 0 a
      ∧ (s.station 0).queue = [⟨0, 5, .configure 4096⟩] ∧ (s.station 0).head = .profileRead
      ∧ (s.station 0).cap.state = .stopped
      ∧ profileOf (zeros 64) = none ∧ (s.station 0).prof.powerMode = Profile.default.powerMode :=
  ⟨atHead_has _ _ rfl rfl, by decide, by decide, ⟨_, rfl, rfl, rfl⟩, by decide⟩

/-- A profile record of mode AUTO for a station in mode MANUAL (Table 2-3). -/
theorem test_wit_profileChangesMode :
    let d := (profileBytes 256).set 22 2
    let p : Profile := { Profile.default with powerMode := .auto }
    d.length = 64 ∧ profileOf d = some (p, false) ∧ p.powerMode ≠ ready.prof.powerMode
      ∧ p.autoSettleMs ≠ 0 ∧ ready.cu.line = [] := by decide

/-- A profile record of mode AUTO with an auto settle time of 0 (Table 2-3). -/
theorem test_wit_profileSettlesAtOnce :
    let d := ((profileBytes 256).set 22 2 |>.set 24 0).set 25 0
    let p : Profile := { Profile.default with powerMode := .auto, autoSettleMs := 0 }
    d.length = 64 ∧ profileOf d = some (p, false) ∧ p.powerMode ≠ ready.prof.powerMode := by decide

theorem test_wit_ParkAndUnpark :
    (let t := has ready .park
     ((at0 t).station 0).atHead ⟨0, 5, .park⟩ .park ∧ t.state = .ready ∧ t.au.entries = []
      ∧ t.au.holder = false ∧ t.cap.state = .stopped ∧ t.ts.state = .disarmed
      ∧ t.bpu.state = .seated)
    ∧ { ready.au with holder := true }.holder = true
    ∧ { ready.cap with state := .recording }.state ≠ .stopped
    ∧ (let t := has { ready with state := .parked } .unpark
     t.state = .parked ∧ t.head = .waiting ∧ t.queue = [⟨0, 5, .unpark⟩])
    ∧ (let t := has { ready with state := .parked, head := .wakeInterval 100000 } .unpark
     let s : State := { at0 t with elapsed := 100000 }
     (s.station 0).head = .wakeInterval 100000 ∧ 100000 ≤ s.elapsed ∧ (s.station 0).unarmed
      ∧ (s.station 0).prof.autoSettleMs ≠ 0 ∧ (s.connector (s.connectorOf 0)).settled = false
      ∧ ((s.withPin 0 ⟨true, true, none, false, false, 2⟩).connector (s.connectorOf 0)).settled
        = true) := by
  refine ⟨⟨atHead_has _ _ rfl rfl, by decide⟩, by decide, by decide, by decide, by decide, by decide,
    rfl, by decide⟩

/-- A wake interval's end with a settled PRESENT, in mode AUTO with an auto settle time of 0 and in mode
MANUAL. -/
theorem test_wit_wakesSeated (m : PowerMode) :
    let p : Profile := { Profile.default with powerMode := m, autoSettleMs := 0 }
    let t := has { ready with
      state := .parked, head := .wakeInterval 100000, profile := some p } .unpark
    let s : State := { (at0 t).withPin 0 ⟨true, true, none, true, false, 2⟩ with elapsed := 100000 }
    (s.station 0).head = .wakeInterval 100000 ∧ 100000 ≤ s.elapsed
      ∧ (s.station 0).queue = [⟨0, 5, .unpark⟩]
      ∧ (s.connector (s.connectorOf 0)).settled = true ∧ (s.station 0).prof.powerMode = m := by
  cases m <;> decide

theorem test_wit_QuiesceCutsThenDrains :
    let t := has ready .quiesce
    let q : Station := { t with state := .quiescing }
    ((at0 q).station 0).atHead ⟨0, 5, .quiesce⟩ .quiesce
      ∧ ({ q with cap := { q.cap with staging := [bigRec] } }).cap.staging ≠ []
      ∧ ¬ (q.cap.staging ≠ [] ∨ q.pg.page ≠ none ∨ (at0 q).runState ≠ .running
        ∨ (at0 q).halting = true) :=
  ⟨⟨rfl, rfl, rfl, [], rfl⟩, by decide⟩

/-- The FULL write of the page that a drain seals, with reason QUIESCE and with another. -/
theorem test_wit_drainEnds (why : SealReason) :
    let a := Access.writeOf .page (some 0) 2048 [3] (.sealFull false)
    let t : Station := { has ready .quiesce with
      state := .quiescing, head := .quiesceDrain, pageQ := [a]
      pg := { PageState.reset with page := some page0, sealing := some why } }
    let s := at0 t
    s.runState = .running ∧ s.halting = false ∧ s.resuming = false ∧ s.nextGrant = some a
      ∧ (s.station 0).queue = [⟨0, 5, .quiesce⟩] ∧ (s.station 0).head = .quiesceDrain
      ∧ (s.station 0).pg.page = some page0 ∧ (s.station 0).pg.sealing = some why
      ∧ (s.station 0).cap.staging = [] ∧ SealReason.idle ≠ .quiesce := by
  cases why <;> decide

/-- Four outstanding entries. -/
def fourEntries : List Entry :=
  [⟨0, .ping, 0, 0, 0, 9, .trigger, 0, []⟩, ⟨1, .ping, 0, 0, 0, 9, .trigger, 0, []⟩,
   ⟨2, .ping, 0, 0, 0, 9, .trigger, 0, []⟩, ⟨3, .ping, 0, 0, 0, 9, .trigger, 0, []⟩]

theorem test_wit_AccessJobIssuesItsRequest :
    let t := has ready .ping
    ((at0 t).station 0).atHead ⟨0, 5, .ping⟩ .ping
      ∧ Job.ping.isAccess = true ∧ Job.ping.headRow 0 = some (.ping 0)
      ∧ Job.ping.onlyRequest = some ⟨.ping, 0, [], 0, 0⟩
      ∧ t.lp.up = true ∧ { t.lp with up := false }.up = false
      ∧ t.au.entries.length < 4 ∧ t.au.holder = false ∧ 4 ≤ fourEntries.length
      ∧ { t.au with entries := fourEntries }.bounded :=
  ⟨atHead_has _ _ rfl rfl, by decide, by decide, by decide, by decide, by decide, by decide, by decide,
    by decide, by decide, by decide, by decide⟩

theorem test_wit_BlockAndBufferJobsIssueRequests :
    (let t := has ready (.blockRead 0 100 64)
     ((at0 t).station 0).atHead ⟨0, 5, .blockRead 0 100 64⟩ (.blockRead 0 100 64) ∧ t.lp.up = true
      ∧ t.au.holder = false ∧ t.au.entries.length ≤ 4 ∧ 0 < 100 ∧ 0 < t.prof.requestWords
      ∧ (blockRequests 0 64 100)[1]? = some ⟨.read, 256, [], 36, 64⟩)
    ∧ (let t := has ready (.writeBuffer 0 1 64)
     let a : Access := ⟨.job, some 0, 64, 4 * 1, none, .writeData 0 0⟩
     let s := awaiting (at0 { t with head := .writeDataRead }) a
     ((at0 t).station 0).atHead ⟨0, 5, .writeBuffer 0 1 64⟩ (.writeBuffer 0 1 64)
      ∧ s.awaits 0 a ∧ (zeros 4).length = 4 * 1
      ∧ (s.station 0).queue = [⟨0, 5, .writeBuffer 0 1 64⟩] ∧ (s.station 0).head = .writeDataRead
      ∧ (s.station 0).lp.up = true ∧ (s.station 0).au.entries.length < 4
      ∧ (s.station 0).au.holder = false) :=
  ⟨⟨atHead_has _ _ rfl rfl, by decide⟩, atHead_has _ _ rfl rfl, ⟨_, rfl, rfl, rfl⟩, by decide⟩

/-- A program record's first 256 bytes: one step of condition kind NOTICE, code 1, with count 1, next
DONE and TRIGGER RECORD, pulse width and drive length 1. -/
def programPart0 (drive : Nat) : List Byte :=
  [1, 1, 0, 0] ++ leBytes 2 0 ++ leBytes 2 1 ++ leBytes 2 drive ++ zeros 182
    ++ [4, 1, 0xFF, 0xFF, 2, 0, 0, 0] ++ zeros 4 ++ [1] ++ zeros 51

/-- Tables 7-2, 7-3 and 12-14: the program of that record; a drive length of 0 is clamped to 1. -/
theorem test_program_of_record :
    let st : Step := ⟨.notice 1, 1, .done, 2, 0, .done, 0, 0⟩
    programOf (programPart0 1 ++ zeros 64) = some (⟨0, 1, 1, 0, [], [st]⟩, false)
      ∧ programOf (programPart0 0 ++ zeros 64) = some (⟨0, 1, 1, 0, [], [st]⟩, true) := by decide

theorem test_wit_ArmLoadsProgram :
    let t := has ready (.arm 4096)
    let a : Access := ⟨.job, some 0, 4096, 256, none, .programRead 0 0 0⟩
    let b : Access := ⟨.job, some 0, 4352, 64, none, .programRead 0 0 1⟩
    let s := awaiting (at0 { t with head := .programRead none none }) a
    let s' := awaiting (at0 { t with head := .programRead (some (programPart0 1)) none }) b
    ((at0 t).station 0).atHead ⟨0, 5, .arm 4096⟩ (.arm 4096)
      ∧ t.ts.state.code ≠ 1 ∧ (SeqState.armed 0 0 none).code = 1
      ∧ s.awaits 0 a ∧ (s.station 0).head = .programRead none none
      ∧ s'.awaits 0 b ∧ (s'.station 0).head = .programRead (some (programPart0 1)) none
      ∧ (programPart0 1).length = 256 ∧ (zeros 64).length = 64
      ∧ programOf (zeros 256 ++ zeros 64) = none :=
  ⟨atHead_has _ _ rfl rfl, by decide, by decide, ⟨_, rfl, rfl, rfl⟩, rfl, ⟨_, rfl, rfl, rfl⟩, rfl,
    by
      simp only [programPart0, zeros, List.length_append, List.length_replicate, List.length_cons,
        List.length_nil, leBytes], by simp [zeros], rfl⟩

theorem test_wit_CaptureStartNeedsStopped :
    ((at0 (has ready .captureStartImmediate)).station 0).atHead
        ⟨0, 5, .captureStartImmediate⟩ .captureStartImmediate
      ∧ ((at0 (has ready .captureStartTriggered)).station 0).atHead
        ⟨0, 5, .captureStartTriggered⟩ .captureStartTriggered
      ∧ ready.cap.state = .stopped ∧ { ready.cap with state := .watching }.state ≠ .stopped :=
  ⟨atHead_has _ _ rfl rfl, atHead_has _ _ rfl rfl, by decide⟩

/-! ## Witnesses: the board debug link and the access unit -/

/-- A station whose PING request is outstanding under tag 0, due at 1,000. -/
def pinging : Station :=
  { has ready .ping with
    head := .access ⟨[], 1, none, [], 0⟩
    au := { AccessUnit.reset with entries := [⟨0, .ping, 0, 0, 0, 1000, .job 0 5, 0, []⟩] } }

theorem test_wit_LinkFollowsSignal :
    (({ ready.lp with up := false }).rxOn = true ∧ ({ ready.lp with up := false }).up = false)
    ∧ Station.reset.lp.rxOn = false
    ∧ (ready.lp.up = true ∧ ready.au.entries = [] ∧ ready.head = .waiting)
    ∧ (Station.reset.lp.up = false ∧ Station.reset.head ≠ .parkWait)
    ∧ (pinging.lp.up = true
      ∧ pinging.au.entries = [⟨0, .ping, 0, 0, 0, 1000, .job 0 5, 0, []⟩]
      ∧ pinging.queue = [⟨0, 5, .ping⟩] ∧ pinging.head = .access ⟨[], 1, none, [], 0⟩
      ∧ pinging.prof.accessLogging = false ∧ pinging.unarmed) :=
  ⟨by decide, by decide, by decide, by decide, rfl, rfl, rfl, rfl, rfl, rfl⟩

/-- A READY station whose PARK waits for a trigger HALT outstanding under tag 3, due at 1,000. -/
def parking : Station :=
  { has ready .park with
    head := .parkWait
    au := { AccessUnit.reset with entries := [⟨3, .control, 1, 0, 0, 1000, .trigger, 0, []⟩] } }

theorem test_wit_parkWaits :
    (parking.head = .parkWait ∧ parking.queue = [⟨0, 5, .park⟩] ∧ parking.working = true
      ∧ parking.lp.up = true ∧ parking.au.entries = [⟨3, .control, 1, 0, 0, 1000, .trigger, 0, []⟩]
      ∧ parking.au.holder = false ∧ parking.prof.accessLogging = false
      ∧ parking.au.retired.length < 8)
    ∧ parking.unarmed ∧ (at0 parking).stationOf 0 = some 0 := ⟨by decide, rfl, by decide⟩

/-- A packet in progress with these bytes. -/
def received (bs : List Byte) : PacketBuf := ⟨bs, bs.length⟩

/-- A READY station with this packet in progress. -/
def receiving (p : PacketBuf) : Station := { ready with lp := { ready.lp with packet := some p } }

theorem test_wit_DecoderTakesItems :
    (Station.reset.lp.up = false ∧ ready.lp.up = true ∧ ready.lp.packet = none)
    ∧ ((receiving ⟨[], 0⟩).lp.packet = some ⟨[], 0⟩ ∧ (receiving ⟨[], 0⟩).lp.up = true)
    ∧ (received [1, 2, 3, 4]).count < 5
    ∧ packetVerdict (received [2, 0, 4, 0, 0x15, 0]) = ⟨true, .inl .length⟩
    ∧ packetVerdict (received (packetBytes 9 0 0 [])) = ⟨false, .inl .unknownKind⟩
    ∧ packetVerdict (received ([2, 0, 1, 0] ++ [checkByte 0x00010002] ++ [0, 0, 0]))
        = ⟨false, .inl .crc⟩
    ∧ packetVerdict (received [0, 0, 0, 0, 0x1D]) = ⟨false, .inl .uncorrectable⟩
    ∧ due (some 7) 7 = true
    ∧ { Health.empty with filtered := 1 } ≠ Health.empty := by decide +kernel

/-- Each check of a packet at a boundary, its header clean. -/
theorem test_wit_packetChecks :
    (let p := received (packetBytes 3 0 3 [0, 1, 0, 0, 0])
     p.bytes.length = min p.count 1031 ∧ 5 ≤ p.count
      ∧ headerCheck (BitVec.ofNat 32 (field p.bytes 0 4)) (byteAt p.bytes 4)
        = some (0x00050303, false)
      ∧ p.count - 5 = 5 + 2 ∧ 5 % 4 = 1
      ∧ field p.bytes (5 + 5) 1 = (crc16 [0, 1, 0, 0, 0]).toNat / 256
      ∧ field p.bytes (6 + 5) 1 = (crc16 [0, 1, 0, 0, 0]).toNat % 256)
    ∧ (let p := received (packetBytes 4 0 0 [])
     p.count = 5 ∧ headerCheck (BitVec.ofNat 32 (field p.bytes 0 4)) (byteAt p.bytes 4) = some (4, false))
    ∧ (packetVerdict (received (packetBytes 2 0 0 [1, 2, 3, 4, 5])) = ⟨false, .inl .length⟩
      ∧ packetVerdict (received (packetBytes 3 0 0 [0, 1])) = ⟨false, .inl .length⟩
      ∧ packetVerdict (received (packetBytes 4 0 0 [])) = ⟨false, .inl .length⟩) := by decide +kernel

theorem test_wit_PacketsOfferAndReport :
    (ready.lp.up = true ∧ (receiving (received [])).lp.packet = some (received []))
    ∧ packetVerdict (received (packetBytes 1 7 0 [0])) = ⟨false, .inr (.trace 7 [0])⟩
    ∧ ready.prof.channelMask.getLsbD (7 : BitVec 3).toNat = true
    ∧ { Profile.default with channelMask := 0x7F }.channelMask.getLsbD (7 : BitVec 3).toNat = false
    ∧ packetVerdict (received (packetBytes 2 0 0 [1, 2, 3, 4]))
        = ⟨false, .inr (.progress [1, 2, 3, 4])⟩
    ∧ packetVerdict (received (packetBytes 4 0 0 [1])) = ⟨false, .inr (.notice 1 [])⟩ := by decide +kernel

/-- A station whose READ of one word is outstanding under tag 3. -/
def reading : Station :=
  { has ready (.read 64 1 128) with
    head := .access ⟨[], 1, none, [], 0⟩
    au := { AccessUnit.reset with
      entries := [⟨3, .read, 64, 1, 0, 1000, .job 0 5, 0, []⟩], retired := [⟨7, 500⟩] } }

/-- A station whose trigger HALT is outstanding under tag 3, with logging on. -/
def halting : Station :=
  { ready with
    profile := some { Profile.default with accessLogging := true }
    au := { AccessUnit.reset with entries := [⟨3, .control, 1, 0, 0, 1000, .trigger, 0, []⟩] } }

theorem test_wit_ResponsesComplete :
    (reading.lp.up = true ∧ reading.head ≠ .parkWait
      ∧ packetVerdict (received (packetBytes 3 0 3 [0, 1, 0, 0, 0]))
        = ⟨false, .inr (.response 3 0 [1])⟩)
    ∧ ((∀ x ∈ reading.au.entries, x.tag.val ≠ 7) ∧ ∃ r ∈ reading.au.retired, r.tag.val = 7)
    ∧ ((∀ x ∈ reading.au.entries, x.tag.val ≠ 8) ∧ ∀ r ∈ reading.au.retired, r.tag.val ≠ 8)
    ∧ (reading.au.entries.find? (fun y => y.tag.val == 3)
        = some ⟨3, .read, 64, 1, 0, 1000, .job 0 5, 0, []⟩
      ∧ reading.queue = [⟨0, 5, .read 64 1 128⟩] ∧ reading.head = .access ⟨[], 1, none, [], 0⟩
      ∧ reading.au.holder = false ∧ reading.prof.accessLogging = false)
    ∧ (halting.au.entries.find? (fun y => y.tag.val == 3)
        = some ⟨3, .control, 1, 0, 0, 1000, .trigger, 0, []⟩
      ∧ halting.head = .waiting ∧ halting.au.holder = false ∧ halting.prof.accessLogging = true
      ∧ (1 : Word64).toNat = 1) := by decide +kernel

/-- A station whose BLOCK READ of five words, one a request, has tags 0 to 3 outstanding, one request
not yet issued. -/
def blockReading : Station :=
  { has ready (.blockRead 64 5 128) with
    head := .access ⟨[⟨.read, 80, [], 1, 4⟩], 4, none, [], 0⟩
    au := { AccessUnit.reset with
      nextTag := 4
      entries := (List.range 4).map fun i =>
        ⟨BitVec.ofNat 6 i |>.toFin, .read, 64, 1, 0, 1000, .job 0 5, i, []⟩ } }

theorem test_wit_blockReadCompletes :
    (blockReading.au.entries.find? (fun y => y.tag.val == 3)
        = some ⟨3, .read, 64, 1, 0, 1000, .job 0 5, 3, []⟩
      ∧ blockReading.queue = [⟨0, 5, .blockRead 64 5 128⟩] ∧ blockReading.au.holder = false
      ∧ blockReading.head = .access ⟨[⟨.read, 80, [], 1, 4⟩], 4, none, [], 0⟩
      ∧ blockReading.au.entries.length = 4)
    ∧ blockReading.au.bounded ∧ blockReading.unarmed
    ∧ (AccessExec.mk [] 1 none [(0, 1)] 0).reqs = []
    ∧ (AccessExec.mk [⟨.read, 80, [], 1, 4⟩] 2 (some .timeout) [] 0).fail ≠ none :=
  ⟨by decide, ⟨by decide, by decide, by decide⟩, rfl, rfl, by decide⟩

/-- A HALT waits in the holder with the table full: of a job's requests with one still to issue, and of a
trigger's entry under tag 9 beside three of them. -/
theorem test_wit_holderWaits :
    (let t : Station := { blockReading with au := { blockReading.au with holder := true } }
     t.au.holder = true ∧ t.au.entries.length = 4 ∧ t.au.bounded
      ∧ t.head = .access ⟨[⟨.read, 80, [], 1, 4⟩], 4, none, [], 0⟩)
    ∧ (let x : Entry := ⟨9, .control, 1, 0, 0, 1000, .trigger, 0, []⟩
     let t : Station := { blockReading with au := { blockReading.au with
       entries := blockReading.au.entries.take 3 ++ [x] } }
     t.au.entries.find? (fun y => y.tag.val == 9) = some x ∧ t.head ≠ .parkWait ∧ t.issuesOne) :=
  ⟨⟨by decide, by decide, ⟨by decide, by decide, by decide⟩, rfl⟩, by decide, by decide,
    Or.inr (Or.inr ⟨by decide, by decide, by decide, by decide⟩)⟩

/-- R63, R72, R74: an entry that times out goes to the HALT in the holder, whose request is put before the
job's in the transmit list; the job's next request stays. -/
theorem test_holder_takes_freed_entry :
    let l : LinkPort := { ready.lp with sending := some [], txList := [⟨2, ⟨.read, 72, [], 1, 2⟩⟩] }
    let t : Station := { blockReading with
      head := .access ⟨[⟨.read, 80, [], 1, 4⟩], 3, none, [], 0⟩, lp := l
      au := { blockReading.au with
        holder := true
        entries := blockReading.au.entries.take 3 ++ [⟨9, .control, 1, 0, 0, 1000, .trigger, 0, []⟩] } }
    ∀ u, exec (.responseTimeoutExpiry 0 9) { at0 t with elapsed := 1000 } = .next u →
      (u.station 0).au.holder = false
        ∧ (u.station 0).au.entries.map (fun x => (x.tag, x.owner))
          = [(0, .job 0 5), (1, .job 0 5), (2, .job 0 5), (4, .trigger)]
        ∧ (u.station 0).lp.txList.map TxReq.tag = [4, 2]
        ∧ (u.station 0).head = .access ⟨[⟨.read, 80, [], 1, 4⟩], 3, none, [], 0⟩ := by
  intro l t u h
  simp only [exec, execResponseTimeoutExpiry, Host.Outcome.next.injEq] at h
  subst h
  decide

/-- A PING's entry, and a list of eight retired tags whose earliest is the first of two equal ones. -/
theorem test_wit_otherCompletions :
    (pinging.au.entries.find? (fun y => y.tag.val == 0) = some ⟨0, .ping, 0, 0, 0, 1000, .job 0 5, 0, []⟩
      ∧ Job.ping.isAccess = true ∧ Job.ping.readBuffer = none ∧ AccessOp.ping ≠ .read)
    ∧ (let l : List RetiredTag := [⟨7, 9⟩, ⟨8, 5⟩, ⟨9, 5⟩, ⟨10, 9⟩, ⟨11, 9⟩, ⟨12, 9⟩, ⟨13, 9⟩, ⟨14, 9⟩]
     ¬ l.length < 8 ∧ l[1]? = some ⟨8, 5⟩
      ∧ ∀ j y, l[j]? = some y → 5 ≤ y.expiry ∧ (y.expiry = 5 → 1 ≤ j)) := by
  refine ⟨by decide, by decide, by decide, fun j y h => ?_⟩
  have hj : j < 8 := (List.getElem?_eq_some_iff.1 h).1
  interval_cases j <;> cases h <;> decide

/-- Three of five one-word requests completed OK, words 0, 1 and 3: the unbroken run is two words. -/
theorem test_wit_goodWords :
    let oks : List (Nat × Nat) := [(3, 1), (0, 1), (1, 1)]
    (∀ y ∈ oks, ∃ i, i * 1 < 5 ∧ y = (i * 1, min 1 (5 - i * 1)))
      ∧ (∀ i < 2, i * 1 < 5 → (i * 1, min 1 (5 - i * 1)) ∈ oks)
      ∧ (2 * 1, min 1 (5 - 2 * 1)) ∉ oks := by
  refine ⟨?_, by decide, by decide⟩
  simp only [List.mem_cons, List.not_mem_nil, or_false, forall_eq_or_imp, forall_eq]
  exact ⟨⟨3, by decide⟩, ⟨0, by decide⟩, ⟨1, by decide⟩⟩

theorem test_wit_TimeoutsComplete :
    (reading.head ≠ .parkWait
      ∧ reading.au.entries.find? (fun y => y.tag == 3)
        = some ⟨3, .read, 64, 1, 0, 1000, .job 0 5, 0, []⟩
      ∧ (999 < 1000 ∧ 1000 ≤ { at0 reading with elapsed := 1000 }.elapsed)
      ∧ reading.au.retired.length < 8 ∧ reading.unarmed ∧ halting.unarmed)
    ∧ reading.au.bounded ∧ (⟨7, 500⟩ : RetiredTag) ∈ reading.au.retired :=
  ⟨⟨by decide, by decide, by decide, by decide, rfl, rfl⟩, ⟨by decide, by decide, by decide⟩,
    by decide⟩

/-- A station sending a packet with one more request waiting. -/
def sendingTwo : Station :=
  { ready with lp := { ready.lp with
      sending := some [8, 0, 0, 0, 0], txList := [⟨1, ⟨.ping, 0, [], 0, 0⟩⟩] } }

theorem test_wit_TransmittersServeTheirQueues :
    (sendingTwo.lp.sending = some [8, 0, 0, 0, 0] ∧ sendingTwo.lp.up = true
      ∧ sendingTwo.lp.txList = [⟨1, ⟨.ping, 0, [], 0, 0⟩⟩])
    ∧ (ready.lp.sending = none ∧ ready.lp.up = true ∧ ready.lp.txList = [])
    ∧ ((at0 (has ready (.consoleSend 1 [0x41]))).station 0).atHead
        ⟨0, 5, .consoleSend 1 [0x41]⟩ (.consoleSend 1 [0x41])
    ∧ (ready.bpu.state ≠ .on ∧ { ready.bpu with state := .on }.state = .on ∧ ready.cu.sendQ = []
      ∧ ready.cu.tx = none)
    ∧ (let t : Station := { has ready (.consoleSend 2 [0x41, 0x42]) with
        head := .consoleSend 2 0, cu := { ready.cu with sendQ := [0x42], tx := some ⟨0x41, 868, 0⟩ } }
     t.head = .consoleSend 2 0 ∧ t.queue = [⟨0, 5, .consoleSend 2 [0x41, 0x42]⟩]
      ∧ t.cu.tx = some ⟨0x41, 868, 0⟩ ∧ 0 + 10 * 868 ≤ { at0 t with elapsed := 8680 }.elapsed ∧ 0 + 1 < 2
      ∧ t.cu.sendQ = [0x42] ∧ 2 = 1 + 1) :=
  ⟨by decide, by decide, atHead_has _ _ rfl rfl, by decide, by decide⟩

/-- A WRITE request of 64 words, and the TX frame of a byte at each of its parts. -/
theorem test_wit_packetAndFrame :
    (let r : ReqSpec := ⟨.write, 0, List.replicate 64 7, 64, 0⟩
     r.words.length ≤ 64 ∧ r.count ≤ 64)
    ∧ (let u : ConsoleUnit := { ready.cu with tx := some ⟨0x41, 868, 0⟩ }
     u.tx = some ⟨0x41, 868, 0⟩ ∧ 867 < 0 + 868 ∧ 0 + (0 + 1) * 868 ≤ 868 ∧ 868 < 0 + (0 + 2) * 868
      ∧ 0 + 9 * 868 ≤ 7812 ∧ u.txLine 867 = false ∧ u.txLine 868 = true ∧ u.txLine 1736 = false
      ∧ u.txLine 7812 = true ∧ ready.cu.txLine 0 = true) := by decide

/-- Section 3.7: the packets of a PING under tag 8 and of a CONTROL HALT. -/
theorem test_request_packets :
    (⟨8, ⟨.ping, 0, [], 0, 0⟩⟩ : TxReq).packet.take 4 = [0x14, 8, 0, 0]
      ∧ ((⟨3, ⟨.control, 1, [], 0, 0⟩⟩ : TxReq).packet.take 6).eraseIdx 4 = [0x13, 3, 1, 0, 1] := by
  decide +kernel

/-! ## Witnesses: the console -/

theorem test_wit_ConsoleReceiverTakesFrames :
    (ready.cu.rx = .idle ∧ Station.reset.cu.rx ≠ .idle)
    ∧ (433 < 0 + 868 / 2 ∧ 0 + 868 / 2 ≤ 434)
    ∧ (let t : Station := { ready with cu := { ready.cu with rx := .receiving 0 868 } }
     t.cu.rx = .receiving 0 868 ∧ 0 + 868 / 2 + 9 * 868 ≤ 8246
      ∧ matchingPatterns t.cu.patterns (t.cu.line ++ [(⟨0x41, false⟩ : LineByte)]) = []
      ∧ (t.cu.line ++ [(⟨0x41, false⟩ : LineByte)]).length < t.prof.lineLimit)
    ∧ { Profile.default with lineLimit := 16 }.lineLimit
        ≤ (List.replicate 15 (⟨0x41, false⟩ : LineByte) ++ [(⟨0x41, false⟩ : LineByte)]).length
    ∧ matchingPatterns [[⟨0x41, 0xFF⟩]] [⟨0x41, false⟩] = [0]
    ∧ (let t : Station := { ready with cu := { ready.cu with rx := .held 0 868 8246 } }
     t.cu.rx = .held 0 868 8246 ∧ 17359 < 0 + 20 * 868 ∧ 0 + 20 * 868 ≤ 17360
      ∧ matchingPatterns t.cu.patterns (t.cu.line ++ [⟨0, true⟩]) = [])
    ∧ due (some 2000000) 2000000 = true := by decide

/-- Two patterns at one byte, in a line that reaches its limit of 16. -/
theorem test_wit_patternsAtLimit :
    let line := List.replicate 15 (⟨0x41, false⟩ : LineByte) ++ [⟨0, true⟩]
    matchingPatterns [[⟨0, 0⟩], [⟨0x41, 0xFF⟩, ⟨0, 0⟩]] line = [0, 1]
      ∧ { Profile.default with lineLimit := 16 }.lineLimit ≤ line.length := by decide

/-- Section 5.5: pattern 1 matches at the 'K' of line A; pattern 0 does not match a line whose 'I' has
the framing mark. -/
theorem test_patterns_worked :
    let panic : List PatPos := [0x50, 0x41, 0x4E, 0x49, 0x43].map fun b => ⟨b, 0xFF⟩
    let ok : List PatPos := [⟨0x6F, 0xDF⟩, ⟨0x6B, 0xDF⟩]
    matchingPatterns [panic, ok] [⟨0x4F, false⟩, ⟨0x4B, false⟩] = [1]
      ∧ matchingPatterns [panic, ok]
          [⟨0x50, false⟩, ⟨0x41, false⟩, ⟨0x4E, false⟩, ⟨0x49, true⟩, ⟨0x43, false⟩] = [] := by
  decide

/-! ## Witnesses: power and reset -/

/-- A station whose power unit is in state `p`. -/
def powered (p : PowerState) : Station := { ready with bpu := { ready.bpu with state := p } }

theorem test_wit_PowerJobsSwitchPower :
    ((at0 (has ready .powerOn)).station 0).atHead ⟨0, 5, .powerOn⟩ .powerOn
    ∧ (ready.unarmed ∧ ready.bpu.state = .seated ∧ ready.prof.powerMode ≠ .off
      ∧ ((at0 ready).connector ((at0 ready).connectorOf 0)).pwrGood = false
      ∧ ¬ ((powered .on).bpu.state = .seated ∧ (powered .on).prof.powerMode ≠ .off))
    ∧ ((at0 (has (powered .on) .powerOff)).station 0).atHead ⟨0, 5, .powerOff⟩ .powerOff
    ∧ ((powered .on).unarmed ∧ (powered .on).bpu.state = .on ∧ (powered .on).cu.line = [])
    ∧ ((powered .seated).bpu.state ≠ .ramping ∧ (powered .seated).bpu.state ≠ .on) :=
  ⟨atHead_has _ _ rfl rfl, ⟨rfl, by decide⟩, atHead_has _ _ rfl rfl, ⟨rfl, by decide⟩, by decide⟩

theorem test_wit_setMode :
    (∀ m p, ((at0 (has (powered p) (.setMode m))).station 0).atHead ⟨0, 5, .setMode m⟩ (.setMode m))
    ∧ (∀ p, (powered p).profile = some Profile.default ∧ (powered p).unarmed)
    ∧ (Profile.default.powerMode = .manual ∧ Profile.default.powerMode ≠ .off
      ∧ Profile.default.powerMode ≠ .auto ∧ Profile.default.autoSettleMs ≠ 0)
    ∧ ((powered .cooldown).bpu.state = .cooldown ∧ (powered .seated).bpu.state = .seated
      ∧ (powered .absent).bpu.state = .absent) :=
  ⟨fun _ _ => atHead_has _ _ rfl rfl, fun _ => ⟨rfl, rfl⟩, by decide, by decide⟩

/-- A profile with an auto settle time and a reset delay of 0. -/
def promptProfile (m : PowerMode) : Profile :=
  { Profile.default with powerMode := m, autoSettleMs := 0, resetDelayMs := 0 }

/-- POWER ON, and SET MODE to AUTO with an auto settle time of 0, where PWR_GOOD is already asserted; a
class that the mask allows and one that it refuses; a mode changed in ON with a console line open. -/
theorem test_wit_rampFindsPowerGood :
    (let s := (at0 (has ready .powerOn)).withPin 0 ⟨true, true, none, true, false, 2⟩
     (s.connector (s.connectorOf 0)).pwrGood = true ∧ (s.station 0).bpu.state = .seated
      ∧ (s.station 0).prof.powerMode ≠ .off ∧ (s.station 0).prof.resetDelayMs ≠ 0)
    ∧ ((promptProfile .manual).powerMode ≠ .auto ∧ (promptProfile .manual).autoSettleMs = 0
      ∧ (promptProfile .manual).classMask.getLsbD (2 : BitVec 3).toNat = true
      ∧ ¬ (promptProfile .manual).classMask.getLsbD (7 : BitVec 3).toNat = true)
    ∧ (powered .on).bpu.state = .on := by decide

/-- R101, R103, R108, R111: POWER ON with PWR_GOOD already asserted and a reset delay of 0 leaves the
station ON, BOARD_RESET released and the job ended. -/
theorem test_powerOn_finds_good :
    let t := { has ready .powerOn with profile := some (promptProfile .manual) }
    let s := (at0 t).withPin 0 ⟨true, true, none, true, false, 2⟩
    ∀ u, exec (.powerOn 0) s = .next u →
      (u.station 0).bpu.state = .on ∧ (u.station 0).bpu.ctl = .released
        ∧ (u.station 0).bpu.delay = none ∧ (u.station 0).queue = []
        ∧ (u.station 0).head = .waiting := by
  intro t s u h
  simp only [exec, execPowerOn, Host.Outcome.next.injEq] at h
  subst h
  decide

/-- A station in ON with this reset controller state. -/
def onWith (c : ResetCtl) : Station := { ready with bpu := { ready.bpu with state := .on, ctl := c } }

theorem test_wit_ResetJobsDriveBoardReset :
    ((at0 (has (onWith .released) (.resetPulse 0))).station 0).atHead
        ⟨0, 5, .resetPulse 0⟩ (.resetPulse 0)
    ∧ ((at0 (has (onWith .released) .resetHold)).station 0).atHead ⟨0, 5, .resetHold⟩ .resetHold
    ∧ ((at0 (has (onWith .held) .resetRelease)).station 0).atHead ⟨0, 5, .resetRelease⟩ .resetRelease
    ∧ ((onWith .released).bpu.state = .on ∧ (onWith .released).bpu.ctl = .released
      ∧ (onWith .released).bpu.released = true ∧ (onWith .held).bpu.released = false
      ∧ (onWith .held).bpu.ctl = .held
      ∧ ¬ (ready.bpu.state = .on ∧ ready.bpu.ctl = .released)) :=
  ⟨atHead_has _ _ rfl rfl, atHead_has _ _ rfl rfl, atHead_has _ _ rfl rfl, by decide⟩

/-- RUNNING at 2,000,000 with `t` as station 0 and its connector's inputs. -/
def seatedAt (t : Station) (p : Connector) : State :=
  { (at0 t).withPin 0 p with elapsed := 2000000 }

theorem test_wit_PresentSettlesAndSeats :
    (let s := seatedAt (powered .absent) ⟨true, false, some 2000000, false, false, 2⟩
     due (s.connector 0).settle s.elapsed = true ∧ s.stationOf 0 = some 0
      ∧ (s.connector 0).present = true ∧ (s.station 0).bpu.state = .absent
      ∧ (s.station 0).prof.autoSettleMs ≠ 0)
    ∧ (let t : Station := { has (powered .ramping) .powerOn with head := .ramp 0 }
     let s := seatedAt t ⟨false, true, some 2000000, false, false, 2⟩
     due (s.connector 0).settle s.elapsed = true ∧ (s.connector 0).present = false
      ∧ (s.station 0).queue = [⟨0, 5, .powerOn⟩] ∧ (s.station 0).head = .ramp 0
      ∧ (s.station 0).bpu.state = .ramping)
    ∧ ((powered .seated).head = .waiting ∧ (powered .on).cu.line = []
      ∧ (powered .inactive).bpu.state = .inactive ∧ (powered .seated).bpu.state ≠ .absent) := by
  decide

/-- A seating in mode AUTO with an auto settle time of 0, for an allowed class and a refused one, and
removals with a RESET PULSE and a CONSOLE SEND at the head. -/
theorem test_wit_seatingAndRemoval :
    (let p : Profile := { Profile.default with powerMode := .auto, autoSettleMs := 0 }
     let t : Station := { powered .absent with profile := some p }
     t.bpu.state = .absent ∧ t.prof.powerMode = .auto ∧ t.prof.autoSettleMs = 0
      ∧ t.prof.classMask.getLsbD (2 : BitVec 3).toNat = true
      ∧ ¬ t.prof.classMask.getLsbD (7 : BitVec 3).toNat = true ∧ t.bpu.latched = .none
      ∧ Profile.default.powerMode ≠ .auto)
    ∧ (let t := has (onWith .pulse) (.resetPulse 3)
     t.bpu.state = .on ∧ t.cu.line = [] ∧ { t with head := .pulse 3 false }.queue = [⟨0, 5, .resetPulse 3⟩])
    ∧ (let t := has (powered .on) (.consoleSend 2 [0x41, 0x42])
     t.bpu.state = .on ∧ t.cu.line = []
      ∧ { t with head := .consoleSend 2 1 }.queue = [⟨0, 5, .consoleSend 2 [0x41, 0x42]⟩]) := by decide

theorem test_wit_PowerGoodAndOverload :
    (let t : Station := { has (powered .ramping) .powerOn with head := .ramp 0 }
     let s := seatedAt t ⟨true, true, none, false, false, 2⟩
     s.stationOf 0 = some 0 ∧ (s.connector 0).pwrGood = false ∧ (s.station 0).bpu.state = .ramping
      ∧ (s.station 0).prof.resetDelayMs ≠ 0 ∧ (s.station 0).queue = [⟨0, 5, .powerOn⟩]
      ∧ (s.station 0).head = .ramp 0 ∧ (powered .ramping).head = .waiting)
    ∧ (powered .on).bpu.state ≠ .ramping
    ∧ ((seatedAt ready ⟨true, true, none, true, true, 2⟩).connector 0).pwrGood = true
    ∧ (let s := seatedAt (powered .on) ⟨true, true, none, true, false, 2⟩
     (s.connector 0).overload = false ∧ (s.station 0).bpu.state = .on
      ∧ (s.station 0).bpu.inrush = none)
    ∧ ((seatedAt ready ⟨true, true, none, true, true, 2⟩).connector 0).overload = true
    ∧ ¬ ((powered .seated).bpu.state = .ramping ∨ (powered .seated).bpu.state = .on)
    ∧ due (some 2000000) (seatedAt ready Connector.reset).elapsed = true := by decide

theorem test_wit_FaultsEnterCooldown :
    (let s := seatedAt (powered .on) ⟨true, true, none, true, false, 2⟩
     s.stationOf 0 = some 0 ∧ (s.connector 0).pwrGood = true ∧ (s.station 0).bpu.state = .on
      ∧ (s.station 0).cu.line = [] ∧ (s.station 0).head = .waiting)
    ∧ (powered .seated).bpu.state ≠ .on
    ∧ (let t := powered .ramping
     let s := seatedAt { t with bpu := { t.bpu with ramp := some 2000000 } } Connector.reset
     due (s.station 0).bpu.ramp s.elapsed = true ∧ (s.station 0).bpu.state = .ramping
      ∧ (s.station 0).head = .waiting)
    ∧ (let t := has (powered .on) (.consoleSend 2 [0x41, 0x42])
     let s := seatedAt { t with head := .consoleSend 2 1, bpu := { t.bpu with overload := some 2000000 } }
       Connector.reset
     due (s.station 0).bpu.overload s.elapsed = true ∧ (s.station 0).bpu.state = .on
      ∧ (s.station 0).cu.line = [] ∧ (s.station 0).queue = [⟨0, 5, .consoleSend 2 [0x41, 0x42]⟩]
      ∧ (s.station 0).head = .consoleSend 2 1)
    ∧ ({ has (powered .ramping) .powerOn with head := .ramp 0 }).queue = [⟨0, 5, .powerOn⟩] := by
  decide

/-- A rise of PWR_GOOD with a reset delay of 0, the hold flag clear or set. -/
theorem test_wit_goodWithoutDelay (hold : Bool) :
    let t : Station := { has (powered .ramping) .powerOn with
      head := .ramp 0, profile := some (promptProfile .manual) }
    let s := seatedAt { t with bpu := { t.bpu with hold := hold } } ⟨true, true, none, false, false, 2⟩
    s.stationOf 0 = some 0 ∧ (s.connector 0).pwrGood = false ∧ (s.station 0).bpu.state = .ramping
      ∧ (s.station 0).prof.resetDelayMs = 0 ∧ (s.station 0).bpu.hold = hold
      ∧ (s.station 0).queue = [⟨0, 5, .powerOn⟩] ∧ (s.station 0).head = .ramp 0 := by
  cases hold <;> decide

/-- A console line of two bytes is open in a station in ON. -/
def lineOpen : Station :=
  { powered .on with cu := { ready.cu with line := [⟨0x41, false⟩, ⟨0x42, true⟩] } }

/-- A fall of PWR_GOOD in ON with a RESET PULSE or a CONSOLE SEND at the head, or a line open; the overload
filter's end in RAMPING, a POWER ON at the head or none. -/
theorem test_wit_faultsMeetJobs :
    (let s := seatedAt lineOpen ⟨true, true, none, true, false, 2⟩
     s.stationOf 0 = some 0 ∧ (s.connector 0).pwrGood = true ∧ (s.station 0).bpu.state = .on
      ∧ (s.station 0).cu.line ≠ [])
    ∧ (let t := { has (onWith .pulse) (.resetPulse 3) with head := .pulse 3 false }
     t.queue = [⟨0, 5, .resetPulse 3⟩] ∧ t.bpu.state = .on ∧ t.cu.line = []
      ∧ t.head = .pulse 3 false)
    ∧ (let t := { has (powered .on) (.consoleSend 2 [0x41, 0x42]) with head := .consoleSend 2 1 }
     t.queue = [⟨0, 5, .consoleSend 2 [0x41, 0x42]⟩] ∧ t.bpu.state = .on ∧ t.cu.line = []
      ∧ t.head = .consoleSend 2 1)
    ∧ (let t : Station := { has (powered .ramping) .powerOn with head := .ramp 0 }
     let s := seatedAt { t with bpu := { t.bpu with overload := some 2000000 } } Connector.reset
     due (s.station 0).bpu.overload s.elapsed = true ∧ (s.station 0).bpu.state = .ramping
      ∧ (s.station 0).queue = [⟨0, 5, .powerOn⟩] ∧ (s.station 0).head = .ramp 0
      ∧ (powered .ramping).head = .waiting) := by decide

/-- R90, R91, R98: a fall of PWR_GOOD in ON while RECORDING stages the fault's POWER EVENT record and after
it the open console line, closed with CUT, a framing mark in it. -/
theorem test_powerLost_cuts_line :
    let t : Station := { lineOpen with cap := { ready.cap with
      state := .recording, ref := ⟨0, true, .enable⟩ } }
    ∀ u, exec (.pwrGoodFall 0) (seatedAt t ⟨true, true, none, true, false, 2⟩) = .next u →
      (u.station 0).cap.staging.map Staged.payload
          = [.powerEvent .powerLostFault .cooldown t.bpu.cls .powerLost 0,
            .consoleLine { LineFlags.none with cut := true, framing := true } 0 [0x41, 0x42]]
        ∧ (u.station 0).cu.line = [] ∧ u.attention = Attn.powerFault.mask := by
  intro t u h
  simp only [exec, execPwrGoodFall, Host.Outcome.next.injEq] at h
  subst h
  decide

/-- Heads that no power event ends, and a running pulse that a firing started, the hold flag set. -/
theorem test_wit_otherHeads (h : Head)
    (hh : h = .quiesceDrain ∨ h = .profileRead ∨ h = .access ⟨[], 1, none, [], 0⟩) :
    (let t : Station := { powered .ramping with head := h }
     let s := seatedAt { t with bpu := { t.bpu with ramp := some 2000000 } }
       ⟨false, true, some 2000000, false, false, 2⟩
     due (s.station 0).bpu.ramp s.elapsed = true ∧ due (s.connector 0).settle s.elapsed = true
      ∧ (s.connector 0).present = false ∧ (s.station 0).bpu.state = .ramping
      ∧ (s.station 0).head ≠ .waiting)
    ∧ (let t := onWith .pulse
     let s := seatedAt { t with head := h, bpu := { t.bpu with pulse := some 2000000, hold := true } }
       Connector.reset
     due (s.station 0).bpu.pulse s.elapsed = true ∧ (s.station 0).head.isPulse = false
      ∧ (s.station 0).bpu.hold = true) := by
  rcases hh with rfl | rfl | rfl <;> decide

/-- R98 step 3: the POWER GOOD of a rise of PWR_GOOD fires the step of an ARMED sequencer that waits for
it, which sets TRIGGER. -/
theorem test_power_event_fires :
    let st : Step := ⟨.power .powerGood, 1, .done, 128, 0, .done, 0, 0⟩
    let t : Station := { powered .ramping with ts :=
      { Sequencer.reset with state := .armed 0 0 none, program := some ⟨0, 1, 1, 0, [], [st]⟩ } }
    ∀ u, exec (.pwrGoodRise 0) (at0 t) = .next u →
      u.attention = Attn.trigger.mask ∧ (u.station 0).ts.state = .done ∧ (u.station 0).bpu.state = .on := by
  rintro st t u ⟨⟩; decide

theorem test_wit_PowerAndResetTimersDecide :
    (let b : PowerUnit := { ready.bpu with
        autoSettle := some 2000000, cooldown := some 2000000, cls := 6 }
     let s := seatedAt { ready with bpu := b } Connector.reset
     (s.connector (s.connectorOf 0)).pwrGood = false
      ∧ due (s.station 0).bpu.autoSettle s.elapsed = true
      ∧ (s.station 0).prof.classMask.getLsbD (s.station 0).bpu.cls.toNat = true
      ∧ (s.station 0).bpu.latched = .none
      ∧ due (s.station 0).bpu.cooldown s.elapsed = true
      ∧ ¬ (s.station 0).prof.powerMode = .auto)
    ∧ ¬ Profile.default.classMask.getLsbD (7 : BitVec 3).toNat = true
    ∧ (2 < Profile.default.retryLimit
      ∧ { Profile.default with powerMode := .auto }.powerMode = .auto)
    ∧ (let t := has (onWith .pulse) (.resetPulse 0)
     let s := seatedAt { t with
        head := .pulse 1 true, bpu := { t.bpu with pulse := some 2000000, delay := some 2000000 } }
       Connector.reset
     due (s.station 0).bpu.pulse s.elapsed = true ∧ due (s.station 0).bpu.delay s.elapsed = true
      ∧ (s.station 0).bpu.hold = false ∧ { (s.station 0).bpu with hold := true }.hold = true
      ∧ (s.station 0).queue = [⟨0, 5, .resetPulse 0⟩] ∧ (s.station 0).head = .pulse 1 true)
    ∧ (onWith .pulse).head = .waiting := by decide

/-- The auto settle timer's end, and a retry at the cooldown timer's, with PWR_GOOD already asserted. -/
theorem test_wit_timersFindPowerGood :
    let b : PowerUnit := { ready.bpu with
      autoSettle := some 2000000, cooldown := some 2000000, cls := 6 }
    let s := seatedAt { ready with bpu := b, profile := some (promptProfile .auto) }
      ⟨true, true, none, true, false, 2⟩
    (s.connector (s.connectorOf 0)).pwrGood = true ∧ due (s.station 0).bpu.autoSettle s.elapsed = true
      ∧ due (s.station 0).bpu.cooldown s.elapsed = true ∧ (s.station 0).prof.powerMode = .auto
      ∧ (s.station 0).bpu.retry < (s.station 0).prof.retryLimit
      ∧ (ready.prof.powerMode ≠ .auto) := by decide

/-! ## Witnesses: the trigger sequencer and the bench lines -/

/-- A program of one step. -/
def oneStep (st : Step) : Program := ⟨0, 1, 1, 0, [], [st]⟩

/-- A station ARMED in step 0 of a program of one step, with `k` occurrences counted. -/
def armedWith (st : Step) (k : Nat) (timer : Option Nat) : Station :=
  { ready with ts :=
    { Sequencer.reset with state := .armed 0 k timer, program := some (oneStep st) } }

theorem test_wit_ReportsAreCountedAndFire :
    let st : Step := ⟨.notice 1, 2, .done, 0xDF, 0, .done, 0, 0⟩
    let u := armedWith st 1 none
    (u.ts.state = .armed 0 1 none ∧ u.ts.program = some (oneStep st)
      ∧ (oneStep st).steps[(0 : Fin 4).val]? = some st)
    ∧ st.cond.matches (.notice 2) = false
    ∧ (st.cond.matches (.notice 1) = true ∧ 0 + 1 < st.count ∧ st.count ≤ 1 + 1)
    ∧ (hasAct st.matchActs 5 = false ∧ hasAct st.matchActs 0 = true ∧ hasAct st.matchActs 3 = true
      ∧ hasAct st.matchActs 4 = true ∧ hasAct st.matchActs 6 = true ∧ hasAct st.matchActs 7 = true)
    ∧ (hasAct 2#8 0 = false ∧ hasAct 2#8 3 = false ∧ hasAct 2#8 4 = false ∧ hasAct 2#8 2 = false
      ∧ hasAct 0x05#8 1 = false ∧ hasAct 1#8 3 = false)
    ∧ ((oneStep st).postCount = 0 ∧ u.cap.state = .stopped ∧ u.cap.loss = false ∧ u.lp.up = true
      ∧ u.au.entries.length < 4 ∧ 4 ≤ fourEntries.length)
    ∧ ready.ts.current = none := by decide

/-- R12, R124, R127: a firing of START CAPTURE, TRIGGER RECORD, HALT BOARD and PULSE RESET in a station
already RECORDING, its table and holder full and its board not ON: its TRIGGER record has itself done alone,
with ALREADY RECORDING and CONTROL OVERRUN. -/
theorem test_trigger_record_notes_outcomes :
    let t := armedWith ⟨.notice 1, 1, .done, 0x33, 0, .done, 0, 0⟩ 0 none
    let u : Station := { t with
      cap := { t.cap with state := .recording, ref := ⟨0, true, .enable⟩ }
      au := { t.au with entries := fourEntries, holder := true } }
    (((at0 u).reportAt 0 (.notice 1)).station 0).cap.staging.map Staged.payload
      = [.trigger 0 .done .onMatch .notice 0x33 0x02 true true] := by decide

/-- A firing of each single action or of any set, with what its clause asks of the station. -/
theorem test_wit_singleActions (m : BitVec 8) :
    let st : Step := ⟨.notice 1, 1, .done, m, 0, .done, 0, 0⟩
    let u := armedWith st 0 none
    (u.ts.state = .armed 0 0 none ∧ u.ts.program = some (oneStep st)
      ∧ (oneStep st).steps[(0 : Fin 4).val]? = some st)
    ∧ st.cond.matches (.notice 1) = true ∧ st.count ≤ 0 + 1
    ∧ { u.cap with state := .watching }.state = .watching
    ∧ (∃ k, { u.cap with state := .stopping 3 }.state = .stopping k)
    ∧ 0 < { oneStep st with postCount := 1 }.postCount
    ∧ ({ (onWith .released) with ts := u.ts }.bpu.state = .on
      ∧ { (onWith .released) with ts := u.ts }.bpu.ctl = .released)
    ∧ ¬ (u.bpu.state = .on ∧ u.bpu.ctl = .released) :=
  ⟨⟨rfl, rfl, rfl⟩, rfl, Nat.le_refl 1, rfl, ⟨3, rfl⟩, Nat.zero_lt_one, ⟨rfl, rfl⟩, fun h => by cases h.1⟩

theorem test_wit_StepTimerCountsOrFires :
    (let st : Step := ⟨.elapsed, 2, .done, 2, 1, .done, 0, 0⟩
     let t := armedWith st 0 (some 100000)
     t.ts.state = .armed 0 0 (some 100000) ∧ t.ts.program = some (oneStep st)
      ∧ (oneStep st).steps[(0 : Fin 4).val]? = some st ∧ due (some 100000) 100000 = true
      ∧ st.cond = .elapsed ∧ 0 + 1 < st.count ∧ st.count ≤ 1 + 1 ∧ st.timeoutMs ≠ 0
      ∧ st.matchActs = 2#8)
    ∧ (let st : Step := ⟨.notice 1, 1, .done, 0, 1, .done, 2, 0⟩
     (oneStep st).steps[(0 : Fin 4).val]? = some st ∧ st.cond ≠ .elapsed ∧ st.timeoutActs = 2#8) := by
  decide

theorem test_wit_BenchLinesAreSeen :
    State.reset.lines.getLsbD (3 : LineNo).val = false
    ∧ { State.reset with lines := 8 }.lines.getLsbD (3 : LineNo).val = true
    ∧ (∀ n, (State.reset.station n).ts.drives[(3 : LineNo).val] = none)
    ∧ (let t : Station := { ready with ts := { ready.ts with drives := #v[none, none, none, some 100] } }
     ((at0 t).station 0).ts.drives[(3 : LineNo).val] ≠ none
      ∧ due t.ts.drives[(3 : LineNo).val] 100 = true ∧ due t.ts.drives[(3 : LineNo).val] 99 = false) := by
  decide

/-! ## Witnesses: capture -/

theorem test_wit_OffersFollowCaptureState :
    let r : SrcRec := ⟨.progress 1 4, RecFlags.none, 16050, none⟩
    let full (big : Nat) : Capture := { cap15 with
      ref := ⟨1003, true, .enable⟩
      staging := List.replicate 7 ⟨.fill 1032, RecFlags.none, 0, 0, 0, 4⟩
        ++ [⟨.fill big, RecFlags.none, 0, 0, 0, 4⟩] }
    Capture.reset.state = .stopped
    ∧ (let c : Capture := { cap15 with state := .watching, historySize := 16 }
      c.state = .watching ∧ r.size ≤ c.historySize ∧ line37.size > c.historySize)
    ∧ cap15.state = .recording
    ∧ (let c : Capture := { cap15 with state := .stopping 1 }
      c.state = .stopping 1 ∧ (c.admission 4 16050 r).cap.state = .stopping 1)
    ∧ ((full 864).loss = false
      ∧ (full 864).used + (full 864).needed 4 (unitOf 4 r.entry) r.size + 24 = 8192)
    ∧ ((full 872).loss = false
      ∧ 8192 < (full 872).used + (full 872).needed 4 (unitOf 4 r.entry) r.size + 24)
    ∧ (let c : Capture := { cap15 with loss := true, staging := List.replicate 4 bigRec }
      c.loss = true ∧ c.used ≤ 4096)
    ∧ (let c : Capture := { cap15 with loss := true, staging := List.replicate 5 bigRec }
      c.loss = true ∧ 4096 < c.used ∧ c.pend.records + 1 < 4294967295) := by decide

/-- The greatest lost count, a recording stopped by it, and a WATCHING capture with its window. -/
theorem test_wit_forcedStopAndRelease :
    let r : SrcRec := ⟨.progress 1 4, RecFlags.none, 16050, none⟩
    let c : Capture := { cap15 with
      loss := true, staging := List.replicate 5 bigRec, pend := ⟨4294967294, 16, 5⟩ }
    (c.loss = true ∧ 4096 < c.used ∧ 4294967295 ≤ c.pend.records + 1 ∧ c.state = .recording)
    ∧ ({ c with state := .stopping 3 }.admission 4 16050 r).cap.state = .stopped
    ∧ { cap15 with state := .watching, history := [r] }.state = .watching := by decide

theorem test_wit_captureBounded :
    let c : Capture := { cap15 with loss := true, staging := List.replicate 4 bigRec }
    cap15.bounded ∧ c.bounded :=
  ⟨⟨by decide, by decide, by decide, by decide⟩, by decide, by decide, by decide, by decide⟩

theorem test_wit_AdmittedRecordsCarryTimeAndPadding :
    (4 ≤ 8 ∧ 66535 < 2 ^ (48 - 4) ∧ cap15.ref.value < 2 ^ (48 - 4) ∧ cap15.ref.valid = true
      ∧ 66535 - cap15.ref.value ≤ 65535 ∧ 65535 < 66536 - cap15.ref.value
      ∧ Capture.reset.ref.valid = false)
    ∧ (Payload.fill 4056).len ≤ 4056 ∧ (Payload.progress 1 4).len ≤ 4056
    ∧ (8 ≤ 8 ∧ 4064 ≤ 4064 ∧ 4064 % 8 = 0) := by decide

theorem test_wit_payloads :
    2 ^ 48 - 1 < 2 ^ 48 ∧ 8 ≤ 8 ∧ 4294967295 ≤ 4294967295 ∧ 65535 ≤ 65535 ∧ 4 ≤ 4 ∧ 4096 ≤ 4096
      ∧ Health.empty.corrected ≤ 65535 := by decide

/-! ## Witnesses: pages -/

/-- The entry at index i is being read for station 0's acquisition, after `k` entries examined. -/
def entryAwaited (i k : Nat) : State :=
  awaiting { at0 { ready with cap := { Capture.reset with staging := [bigRec] } } with
      acq := some ⟨0, i, k⟩ }
    ⟨.page, some 0, area0.entry i, 16, none, .entryRead i⟩

theorem test_wit_PagesAreAcquiredInOrder :
    (let s := at0 { ready with cap := { Capture.reset with staging := [bigRec] } }
     s.area = some area0 ∧ s.runState = .running ∧ s.halting = false ∧ s.acq = none
      ∧ (s.station 0).asks = true ∧ (s.hmp.stationPtr = 7)
      ∧ (∀ m : StationNo, (s.station m).asks = true →
        (0 + 7 - s.hmp.stationPtr.val) % 8 ≤ (m.val + 7 - s.hmp.stationPtr.val) % 8))
    ∧ (State.reset.runState ≠ .running ∧ (∀ n, (running.station n).asks = false))
    ∧ ((entryAwaited 15 0).area = some area0 ∧ (entryAwaited 15 0).acq = some ⟨0, 15, 0⟩)
    ∧ (let d := [1] ++ zeros 7 ++ leBytes 8 4096
      d.length = 16 ∧ field d 0 1 = 1 ∧ field d 8 8 % 4096 = 0)
    ∧ (let d := [1] ++ zeros 7 ++ leBytes 8 4097
      field d 0 1 = 1 ∧ field d 8 8 % 4096 ≠ 0 ∧ 0 + 1 < area0.entryCount)
    ∧ (field (zeros 16) 0 1 ≠ 1 ∧ 14 + 1 < area0.entryCount ∧ area0.entryCount ≤ 15 + 1)
    ∧ ((allStations.any fun m =>
        (((entryAwaited 15 0).station m).pg.page.map OpenPage.index) == some 15) = false)
    ∧ ((allStations.any fun m => (((at0 { ready with pg := { PageState.reset with page := some page0 } }
        ).station m).pg.page.map OpenPage.index) == some 0) = true) := by decide

theorem test_wit_entryAwaited (i k : Nat) :
    (entryAwaited i k).awaits 0 ⟨.page, some 0, area0.entry i, 16, none, .entryRead i⟩ :=
  ⟨_, rfl, rfl, rfl⟩

/-- The last of 16 entries is EMPTY with a page address that is not a multiple of 4,096. -/
theorem test_wit_lastEntryRefused :
    let d := [1] ++ zeros 7 ++ leBytes 8 4097
    (entryAwaited 15 15).area = some area0 ∧ (entryAwaited 15 15).acq = some ⟨0, 15, 15⟩
      ∧ d.length = 16 ∧ field d 0 1 = 1 ∧ field d 8 8 % 4096 ≠ 0 ∧ area0.entryCount ≤ 15 + 1
      ∧ ∀ m p, ((entryAwaited 15 15).station m).pg.page = some p → p.index ≠ 15 :=
  ⟨rfl, rfl, by decide, by decide, by decide, by decide, fun m p h => by fin_cases m <;> cases h⟩

/-- A station with page 0 open, these records staged and this seal mark. -/
def paged (l : List Staged) (m : Option SealMark) : Station :=
  { ready with
    cap := { Capture.reset with staging := l }
    pg := { PageState.reset with page := some page0, mark := m } }

theorem test_wit_PagesAreDrainedAndSealed :
    (let s := at0 (paged [] none)
     s.runState = .running ∧ s.halting = false ∧ (s.station 0).pg.page = some page0
      ∧ (s.station 0).pg.inHand = none ∧ (s.station 0).pg.sealing = none
      ∧ (∀ m ∈ (s.station 0).pg.mark, m.count ≠ 0) ∧ (s.station 0).cap.staging = []
      ∧ (s.station 0).head ≠ .quiesceDrain)
    ∧ ((paged [] (some ⟨0, .flush⟩)).pg.mark = some ⟨0, .flush⟩ ∧ SealReason.flush ≠ .full)
    ∧ ((paged [bigRec] none).cap.staging = [bigRec] ∧ bigRec.size ≤ page0.remainder
      ∧ { page0 with used := 3040 }.remainder = bigRec.size
      ∧ { page0 with used := 3048 }.remainder < bigRec.size)
    ∧ due (some 10000000) 10000000 = true := by decide

theorem test_wit_pageIssues :
    (let a := Access.writeOf .page (some 0) 4128 (zeros 8) (.record true)
     let t := paged [bigRec] none
     let s := at0 { t with pg := { t.pg with inHand := some bigRec }, pageQ := [a] }
     s.runState = .running ∧ s.halting = false ∧ s.resuming = false ∧ s.nextGrant = some a
      ∧ (s.station 0).pg.inHand = some bigRec ∧ (s.station 0).pg.page = some page0
      ∧ (s.station 0).cap.loss = false)
    ∧ (let a := Access.writeOf .page (some 0) 2048 [3] (.sealFull false)
     let t := paged [] none
     let s : State := { at0 { t with pg := { t.pg with sealing := some .halt }, pageQ := [a] } with
        run := false, halting := true }
     s.runState = .running ∧ (s.halting = true → s.run = false) ∧ s.resuming = false
      ∧ s.nextGrant = some a ∧ (s.station 0).pg.sealing ≠ some .quiesce
      ∧ (s.station 0).head ≠ .quiesceDrain) := by decide

/-- The last write of a record of a station in LOSS, whose staging then is within 4,096 bytes or not. -/
theorem test_wit_removalInLoss (k : Nat) (hk : k = 5 ∨ k = 6) :
    let a := Access.writeOf .page (some 0) 4128 (zeros 8) (.record true)
    let t := paged (List.replicate k bigRec) none
    let s := at0 { t with
      cap := { t.cap with loss := true }, pg := { t.pg with inHand := some bigRec }, pageQ := [a] }
    s.runState = .running ∧ s.halting = false ∧ s.resuming = false ∧ s.nextGrant = some a
      ∧ (s.station 0).pg.inHand = some bigRec ∧ (s.station 0).pg.page = some page0
      ∧ (s.station 0).cap.loss = true
      ∧ { t.cap with staging := t.cap.staging.tail }.used = if k = 5 then 4096 else 5120 := by
  rcases hk with rfl | rfl <;> decide

/-- A page with room for a FILL of more than one access, and one with none. -/
theorem test_wit_fill :
    { page0 with used := 3040 }.used < 4064 ∧ { page0 with used := 4064 }.used = 4064
      ∧ (fillWrites { page0 with used := 3040 } 0).map Access.len = [256, 256, 256, 256]
      ∧ 8 ≤ 1024 ∧ 1024 ≤ 4064 ∧ 1024 % 8 = 0 := by
  refine ⟨by decide, by decide, ?_, by decide, by decide, by decide⟩
  decide +kernel

theorem test_wit_pageHeader :
    page0.serial ≤ 4294967295 ∧ page0.used ≤ 4064 ∧ page0.count ≤ 65535 ∧ page0.shift ≤ 8
      ∧ page0.base < 2 ^ 64 := by decide

/-! ## Witnesses: the invariants -/

theorem test_wit_EveryStepKeepsCaptureBounds :
    (at0 (paged [bigRec] none)).captureInv ∧ ∃ t, step (at0 (paged [bigRec] none)) = .next t :=
  ⟨fun n => by fin_cases n <;> exact ⟨by decide, by decide, by decide, by decide⟩, _, rfl⟩

/-- With no page open and no record in hand a station's pages are within bounds. -/
theorem bounded_of_noPage (g : PageState) (hp : g.page = none) (hi : g.inHand = none) : g.bounded :=
  ⟨fun p h => by simp [hp] at h, fun r h => by simp [hi] at h⟩

theorem test_wit_EveryStepKeepsTableBounds :
    (at0 reading).boundsInv ∧ ∃ t, step (at0 reading) = .next t := by
  refine ⟨⟨fun n => ?_, by decide, by decide, by decide, by decide⟩, _, rfl⟩
  fin_cases n <;>
    exact ⟨⟨by decide, by decide, by decide⟩, by decide, bounded_of_noPage _ rfl rfl⟩

/-- A station with two requests outstanding, one of them still in the transmit list. -/
theorem test_wit_transmitInv :
    let t : Station := { ready with
      lp := { ready.lp with sending := some [], txList := [⟨1, ⟨.ping, 0, [], 0, 0⟩⟩] }
      au := { AccessUnit.reset with
        entries := [⟨0, .ping, 0, 0, 0, 9, .trigger, 0, []⟩, ⟨1, .ping, 0, 0, 0, 9, .trigger, 0, []⟩] } }
    (at0 t).transmitInv ∧ ∃ u, step (at0 t) = .next u :=
  ⟨fun n => by fin_cases n <;> decide, _, rfl⟩

theorem test_wit_EveryStepKeepsJobsApart :
    let s : State := { running with held := [formedJob], nextJid := 1 }
    s.jobsInv ∧ ∃ t, step s = .next t := ⟨test_wit_heldJobsInv.1, _, rfl⟩

end Sys2Proof.Tests
end

section
/-! An immediate job executed from its slot read, and MARK (R138, R173 to R175, R178). -/

namespace Sys2Proof.Machine

/-! ## An immediate job from its slot read -/

@[simp] theorem postedView_state (h : JobHeader) (j : Job) : (postedView h j).state = 1 := rfl
@[simp] theorem postedView_kind (h : JobHeader) (j : Job) : (postedView h j).kind = j.kind := rfl
@[simp] theorem postedView_header (h : JobHeader) (j : Job) : (postedView h j).header = h := rfl
@[simp] theorem postedView_job (h : JobHeader) (j : Job) : (postedView h j).job = .job j := rfl

/-- No immediate kind is a device kind (Table 10-5). -/
theorem Job.not_deviceKind_of_immediate {j : Job} (hj : j.cls = .immediate) :
    isDeviceKind j.kind = false := by
  cases j <;> simp_all [Job.cls, Job.kind, isDeviceKind]

/-- An immediate job that names a station passes the mask check (R174). -/
theorem postedView_maskOk_of_immediate {h : JobHeader} {j : Job} (hj : j.cls = .immediate)
    (hm : h.mask ≠ 0) : (postedView h j).maskOk = true := by
  have hd := Job.not_deviceKind_of_immediate hj
  simp only [SlotView.maskOk, postedView_kind, postedView_header, hd, beq_false, Bool.not_eq_true',
    beq_eq_false_iff_ne]
  exact hm

/-- A posted immediate job with a station named and its fields in order is executed (R174, R175). -/
theorem State.handlePosted_immediate (s : State) (slot : Word64) {h : JobHeader} {j : Job}
    (hj : j.cls = .immediate) (hf : j.fieldsOk = true) (hm : h.mask ≠ 0) :
    s.handlePosted slot (postedView h j)
      = s.immediate slot (postedView h j) j (j.doAt (postedView h j)) := by
  simp [State.handlePosted, State.runJob, postedView_maskOk_of_immediate hj hm, hf, hj]

/-- An awaited slot read that returns an immediate job executes it, and the sweep goes on (R173). -/
theorem State.jobArrives_immediate {s : State} {id i : Nat} {slot : Word64} {live : Bool}
    {h : JobHeader} {j : Job} (ha : s.awaitsSlot id i slot live) (hj : j.cls = .immediate)
    (hf : j.fieldsOk = true) (hm : h.mask ≠ 0) :
    s.jobArrives id h j = ((s.endRead id).immediate slot (postedView h j) j
      (j.doAt (postedView h j))).afterSlot i live := by
  obtain ⟨hread, hfree⟩ := ha
  have hfree' : (s.endRead id).holdsSlot slot = false := hfree
  unfold State.jobArrives
  rw [State.completeRead_awaited (len := 128) hread rfl (by simp [Access.readOf])]
  simp [State.slotArrives, Access.readOf, hfree', State.afterSlot,
    State.handlePosted_immediate _ slot hj hf hm]

/-- What an immediate job with a local effect leaves when its slot read returns it: each named
station's effect and result, the accesses presented, and the job written back after them (R175,
R178). -/
theorem LocalAct.jobArrives_eq {A : LocalAct} {s : State} {id i : Nat} {slot : Word64} {live : Bool}
    {h : JobHeader} {j : Job} (hi : s.jobsInv) (ha : s.awaitsSlot id i slot live) (hm : h.mask ≠ 0)
    (hj : j.cls = .immediate) (hf : j.fieldsOk = true)
    (hA : ∀ u m, (u.station m).state.immediateRefusal j = none →
      j.doAt (postedView h j) s.nextJid u m = A.apply u m) :
    ∃ u : State, s.jobArrives id h j = u.afterSlot i live ∧ s.afterExecuted u id
      ∧ (∀ n, u.station n = if inMask h.mask n then A.after j s n else s.station n)
      ∧ u.attention = (maskStations h.mask).foldl (fun a n => a ||| A.bitsAt j s n) s.attention
      ∧ u.writtenBack (s.hmp.jobQ ++ (maskStations h.mask).flatMap (A.writesAt j s)) slot h
          (perStation h.mask (A.resultAt j s)) none s.tb := by
  obtain ⟨-, -, hjid, -, -⟩ := hi
  have hresults : (A.filled j (s.endRead id)
      (newHeld s.nextJid slot (postedView h j) noResults none .notNeeded) (maskStations h.mask)).results
        = perStation h.mask (A.resultAt j s) := by
    simp only [LocalAct.filled, perStation, mem_maskStations, HeldJob.resultAt, newHeld, noResults,
      Vector.getElem_replicate]
    rfl
  refine ⟨_, State.jobArrives_immediate ha hj hf hm, ?_⟩
  rw [LocalAct.immediate_eq (s := s.endRead id) (v := postedView h j) hjid hm hA, postedView_header]
  refine ⟨rfl, fun n => ?_, rfl, _, List.mem_append_right _ (List.mem_singleton_self _),
    rfl, rfl, rfl, hresults, rfl, ?_, ?_⟩
  · simp only [LocalAct.done, State.station, mem_maskStations, Vector.getElem_ofFn]
    rfl
  · rw [← hresults]; rfl
  · rw [← hresults]; rfl

/-! ## MARK -/

/-- The bits of a mask set once or more, along a list of stations. -/
theorem foldl_or_bits (p : StationNo → Bool) (b : BitVec 11) (l : List StationNo) (a : BitVec 11) :
    l.foldl (fun a n => a ||| if p n then b else 0) a = if l.any p then a ||| b else a := by
  induction l generalizing a with
  | nil => rfl
  | cons n ns ih =>
    rw [List.foldl_cons, ih, List.any_cons]
    cases p n <;> cases ns.any p <;> simp [BitVec.or_assoc]

/-- What a station's CAP gives for the MARK record of a MARK job (R11, R138). -/
def markOut (value : Word32) (hostRef : Word64) (e : Env) (t : Station) : CapOut :=
  t.offer e.tb (SrcRec.now e (.mark value .job hostRef) RecFlags.none)

/-- MARK's effect at a station: the offer of its record, which presents no access (R138). -/
def markAct (value : Word32) (hostRef : Word64) : LocalAct where
  station e t := t.take (markOut value hostRef e t)
  bits e t := (markOut value hostRef e t).bits
  writes _ _ := []
  result e t := Res.okv (bit (t.cap.state.admitting && !(markOut value hostRef e t).cap.loss))

/-- `markAct` is what the model's MARK does at a station. -/
theorem State.doMark_eq (s : State) (value : Word32) (hostRef : Word64) (n : StationNo) :
    s.doMark value hostRef n = (markAct value hostRef).apply s n := by
  have hoffer : jobMark value hostRef (s.env n) ⟨s.station n, s.attention, []⟩
      = ⟨(s.station n).take (markOut value hostRef (s.env n) (s.station n)),
          s.attention ||| (markOut value hostRef (s.env n) (s.station n)).bits, []⟩ :=
    offerRec_eq ..
  unfold State.doMark LocalAct.apply
  rw [State.withStation_quiet hoffer]
  simp only [markAct, State.put_station, Station.take_cap, List.append_nil]
  rfl

section
variable (s : State) (value : Word32) (hostRef : Word64) (n : StationNo)

/-- Only READY and QUIESCING stations execute MARK (Table 2-2). -/
theorem Station.markRefusal_eq (t : Station) :
    t.state.immediateRefusal (.mark value) = if t.working then none else some .unavailable := by
  unfold Station.working
  cases t.state <;> rfl

theorem markAct_after : (markAct value hostRef).after (.mark value) s n
    = if (s.station n).working then
        (s.station n).take (markOut value hostRef (s.env n) (s.station n))
      else s.station n := by
  unfold LocalAct.after
  rw [Station.markRefusal_eq]
  split_ifs <;> rfl

theorem markAct_bitsAt : (markAct value hostRef).bitsAt (.mark value) s n
    = if (s.station n).working && (markOut value hostRef (s.env n) (s.station n)).lossEntered then
        Attn.loss.mask
      else 0 := by
  unfold LocalAct.bitsAt
  rw [Station.markRefusal_eq]
  cases (s.station n).working <;> rfl

theorem markAct_writesAt : (markAct value hostRef).writesAt (.mark value) s n = [] := by
  unfold LocalAct.writesAt
  split <;> rfl

/-- The value is 1 where the record was admitted to staging (R138). -/
theorem markAct_resultAt : (markAct value hostRef).resultAt (.mark value) s n
    = if (s.station n).working then
        Res.okv (if (s.station n).cap.state.admitting
          ∧ (markOut value hostRef (s.env n) (s.station n)).cap.loss = false then 1 else 0)
      else Res.ended .unavailable := by
  unfold LocalAct.resultAt
  rw [Station.markRefusal_eq]
  cases (s.station n).working with
  | false => rfl
  | true => simp [markAct, bit]

end

/-- Settles O23: MARK is an immediate job whose effect at a station is `markAct`. -/
theorem markJobOffersMarks : Obligations.MarkJobOffersMarks := by
  unfold Obligations.MarkJobOffersMarks
  intro s id i slot live h value hi ha hm r o
  obtain ⟨u, hu, hframe, hstation, hattention, hback⟩ :=
    LocalAct.jobArrives_eq (A := markAct value h.hostRef) (j := .mark value) hi ha hm rfl rfl
      fun u m _ => u.doMark_eq ..
  refine ⟨u, congrArg _ hu, hframe, fun n => ?_, ?_, ?_⟩
  · rw [hstation, markAct_after, ite_and]
    rfl
  · rw [hattention]
    simp only [markAct_bitsAt, foldl_or_bits]
    refine if_congr ?_ rfl rfl
    simp only [List.any_eq_true, mem_maskStations, Bool.and_eq_true]
    rfl
  · have hquiet : (maskStations h.mask).flatMap
        ((markAct value h.hostRef).writesAt (.mark value) s) = [] :=
      List.flatMap_eq_nil_iff.mpr fun n _ => markAct_writesAt ..
    rw [hquiet, List.append_nil, funext (markAct_resultAt s value h.hostRef)] at hback
    exact hback

end Sys2Proof.Machine
end

section
/-! The memory arbiter's choice of a class and of a station (R161, R162). -/

namespace Sys2Proof.Machine

/-! ## The stations in turn (R161) -/

/-- How many stations have their turn before `n` where the turns begin after `p`. -/
def turnAfter (p n : StationNo) : Nat := (n.val + 7 - p.val) % 8

/-- `cyclic p` lists the stations in the order of their turns. -/
theorem map_turnAfter_cyclic (p : StationNo) : (cyclic p).map (turnAfter p) = List.range 8 := by
  revert p; decide

theorem mem_cyclic (p n : StationNo) : n ∈ cyclic p := by
  revert p n; decide

theorem cyclic_pairwise (p : StationNo) :
    (cyclic p).Pairwise fun m n => turnAfter p m < turnAfter p n :=
  List.pairwise_map.mp (map_turnAfter_cyclic p ▸ List.pairwise_lt_range)

/-- The first station found in cyclic order has its turn before every other one that qualifies. -/
theorem turnAfter_le_of_find {p n m : StationNo} {q : StationNo → Bool}
    (hn : (cyclic p).find? q = some n) (hm : q m = true) : turnAfter p n ≤ turnAfter p m := by
  obtain ⟨-, before, after, hsplit, hbefore⟩ := List.find?_eq_some_iff_append.mp hn
  obtain ⟨-, hlater, -⟩ := List.pairwise_append.mp (hsplit ▸ cyclic_pairwise p)
  have hmem : m ∈ before ++ n :: after := hsplit ▸ mem_cyclic p m
  rcases List.mem_append.mp hmem with hfirst | hrest
  · exact absurd hm (by simpa using hbefore m hfirst)
  · rcases List.mem_cons.mp hrest with rfl | hafter
    · exact le_rfl
    · exact (List.rel_of_pairwise_cons hlater hafter).le

section
variable {s : State}

theorem State.nextPageOf_isSome_of_pageStation {n : StationNo} (h : s.pageStation = some n) :
    (s.nextPageOf n).isSome = true :=
  List.find?_some (p := fun n => (s.nextPageOf n).isSome) h

/-! ## Staging pressure (R162) -/

theorem State.pressure_iff : s.pressure = true ↔ ∃ n, 6144 ≤ (s.station n).cap.used := by
  simp [State.pressure, mem_allStations]

/-- SWEEP and JOB in the order in which they have their turns under pressure. -/
theorem nonPageOrder_eq (k : AccessClass) :
    (classesAfter k).filter (· != .page) = if k = .sweep then [.job, .sweep] else [.sweep, .job] := by
  cases k <;> rfl

/-- SWEEP is granted where it waits, unless JOB waits too and SWEEP was granted before. -/
theorem State.nonPageClass_eq : s.nonPageClass
    = if s.waiting .sweep = true ∧ (s.waiting .job = false ∨ s.hmp.nonPagePtr ≠ .sweep) then
        some .sweep
      else if s.waiting .job = true then some .job else none := by
  unfold State.nonPageClass
  rw [nonPageOrder_eq]
  by_cases hptr : s.hmp.nonPagePtr = .sweep
  · cases hjob : s.waiting .job <;> simp [hptr, hjob, List.find?_singleton]
  · cases hsweep : s.waiting .sweep <;> simp [hptr, hsweep, List.find?_singleton]

/-! ## The class granted (R161, R162) -/

/-- Under pressure PAGE is granted while it waits and fewer than three grants went to it in a row. -/
theorem State.grantClass_of_burst (hp : s.pressure = true) (hw : s.waiting .page = true)
    (hb : s.hmp.burst < 3) : s.grantClass = some .page := by
  simp [State.grantClass, hp, hw, hb]

/-- Under pressure, with PAGE's three grants taken or none of it waiting, SWEEP or JOB is granted, and
PAGE where neither waits. -/
theorem State.grantClass_of_turn (hp : s.pressure = true)
    (ht : s.waiting .page = false ∨ 3 ≤ s.hmp.burst) :
    s.grantClass = s.nonPageClass.or (if s.waiting .page = true then some .page else none) := by
  have hno : ¬ (s.waiting .page = true ∧ s.hmp.burst < 3) := by
    rintro ⟨hw, hb⟩
    rcases ht with hn | hfull
    · simp [hw] at hn
    · omega
  unfold State.grantClass
  rw [if_pos hp, if_neg hno]
  cases s.nonPageClass <;> rfl

theorem State.grantClass_of_noPressure (hp : s.pressure = false) :
    s.grantClass = (classesAfter s.hmp.classPtr).find? s.waiting := by
  simp [State.grantClass, hp]

theorem State.nextGrant_of_page (h : s.grantClass = some .page) :
    s.nextGrant = s.pageStation.bind s.nextPageOf := by
  simp [State.nextGrant, h]

end

/-- Settles O17: under pressure the burst count decides between PAGE and the others, and the non-page
pointer between SWEEP and JOB; the rotations are first finds in cyclic order. -/
theorem arbiterChoosesClassAndStation : Obligations.ArbiterChoosesClassAndStation := by
  unfold Obligations.ArbiterChoosesClassAndStation
  constructor
  · intro s hpressed
    have hp := State.pressure_iff.mpr hpressed
    refine ⟨State.grantClass_of_burst hp, ?_, ?_, ?_, ?_, ?_⟩
    · intro ht hsweep hjob hptr
      simp [State.grantClass_of_turn hp ht, State.nonPageClass_eq, hsweep, hptr]
    · intro ht hsweep hjob hptr
      simp [State.grantClass_of_turn hp ht, State.nonPageClass_eq, hjob, hptr]
    · intro ht hsweep hjob
      simp [State.grantClass_of_turn hp ht, State.nonPageClass_eq, hsweep, hjob]
    · intro ht hsweep hjob
      simp [State.grantClass_of_turn hp ht, State.nonPageClass_eq, hsweep, hjob]
    · intro hb hpage hsweep hjob
      simp [State.grantClass_of_turn hp (.inr hb), State.nonPageClass_eq, hpage, hsweep, hjob]
  · intro s order
    refine ⟨fun hlow => ?_, State.nextGrant_of_page, fun n hn => ⟨?_, fun m hm => ?_⟩⟩
    · have hp : s.pressure = false := by
        rw [← Bool.not_eq_true, State.pressure_iff]
        simpa using hlow
      have horder : order = classesAfter s.hmp.classPtr := by
        unfold order
        cases s.hmp.classPtr <;> rfl
      rw [horder, State.grantClass_of_noPressure hp]
    · exact State.nextPageOf_isSome_of_pageStation hn
    · exact turnAfter_le_of_find hn hm

end Sys2Proof.Machine
end

section
/-! The ATTN output and CONTROL writes that give the attention mask alone (R165, R182). -/

namespace Sys2Proof.Machine

/-! ## ATTN (R182) -/

/-- Every bit number of the attention register is that of an attention bit (Table 12-2). -/
theorem Attn.exists_num_eq (i : Fin 11) : ∃ a : Attn, a.num = i.val := by
  revert i
  simp only [Fin.forall_fin_succ]
  exact ⟨⟨.jobDone, rfl⟩, ⟨.pageSealed, rfl⟩, ⟨.pageStarved, rfl⟩, ⟨.loss, rfl⟩, ⟨.trigger, rfl⟩,
    ⟨.powerFault, rfl⟩, ⟨.linkChange, rfl⟩, ⟨.boardNotice, rfl⟩, ⟨.hostMemoryFault, rfl⟩,
    ⟨.areaInvalid, rfl⟩, ⟨.pageRefused, rfl⟩, fun i => i.elim0⟩

/-- A value of the attention register is not zero exactly when it has some attention bit. -/
theorem Attn.ne_zero_iff (b : BitVec 11) : b ≠ 0 ↔ ∃ a : Attn, b.getLsbD a.num = true := by
  constructor
  · intro hb
    by_contra! hnone
    refine hb (BitVec.eq_of_getLsbD_eq fun i hi => ?_)
    obtain ⟨a, ha⟩ := Attn.exists_num_eq ⟨i, hi⟩
    have hbit : b.getLsbD i = false := by simpa [ha] using hnone a
    simpa using hbit
  · rintro ⟨a, ha⟩ rfl
    simp at ha

theorem State.attnActive_iff (s : State) : s.attnActive = true ↔
    ∃ a : Attn, s.attention.getLsbD a.num = true ∧ s.attMask.getLsbD a.num = true := by
  unfold State.attnActive
  rw [bne_iff_ne, Attn.ne_zero_iff]
  simp only [BitVec.getLsbD_and, Bool.and_eq_true]

/-! ## CONTROL writes (R165) -/

/-- The attention mask is bits 16 to 26 of the value written (Table 12-1). -/
theorem maskOf_getLsbD (v : Word32) (i : Fin 11) :
    (maskOf v).getLsbD i.val = v.getLsbD (16 + i.val) := by
  simp [maskOf]

section
variable {s : State} {v : Word32}

theorem State.takeControl_of_noSoftReset (lines : BitVec 4) (hreset : regBit v 2 = false) :
    s.takeControl v lines = s.writeControl v := by
  simp [State.takeControl, hreset]

/-- A CONTROL write with RUN as held and no RESUME that acts gives the mask alone (R165 step 2). -/
theorem State.writeControl_maskOnly (hrun : regBit v 0 = s.run)
    (hresume : regBit v 1 = true → s.runState = .faulted → s.run = false) :
    s.writeControl v = { s with attMask := maskOf v } := by
  have hno : ¬ (regBit v 1 = true ∧ s.runState = .faulted ∧ s.run = true) := by
    rintro ⟨hbit, hfaulted, hheld⟩
    simp [hresume hbit hfaulted] at hheld
  unfold State.writeControl
  simp only [if_pos hrun, if_neg hno]

end

/-- Settles O6: ATTN is active where the attention bits under the mask are not all 0, and such a CONTROL
write answers with the mask of bits 16 to 26. -/
theorem attnFollowsBitsAndMask : Obligations.AttnFollowsBitsAndMask := by
  unfold Obligations.AttnFollowsBitsAndMask
  refine ⟨State.attnActive_iff, fun s v hreset hrun hresume => ?_⟩
  have hexec : exec (.attentionMaskWrite v) s = .next { s with attMask := maskOf v } :=
    congrArg Host.Outcome.next <| (State.takeControl_of_noSoftReset s.lines hreset).trans
      (State.writeControl_maskOnly hrun hresume)
  exact ⟨_, hexec, rfl, maskOf_getLsbD v⟩

end Sys2Proof.Machine
end

section
/-! What one piece of a station's work can do to what the invariants speak of: CAP, PGM's page and record in
hand, the outstanding request table, the transmit list, the job queue and the waiting PAGE accesses. Each
function of a station's context is taken apart once, into these steps; the invariants are then kept by
the steps. -/

namespace Sys2Proof.Machine

/-! ## The steps -/

/-- One step of CAP. -/
inductive Capture.Step : Capture → Capture → Prop where
  | offer (c : Capture) (k : Nat) (tb : Tick) (r : SrcRec) : Step c (c.offer k tb r).cap
  | start (c : Capture) (k : Nat) (tb : Tick) : Step c (c.start k tb).cap
  | stop (c : Capture) (n : Nat) : Step c (c.stop n).cap
  | recover (c : Capture) (k : Nat) (tb : Tick) : c.canRecover = true → Step c (c.recover k tb)
  | invalidate (c : Capture) (why : AnchorReason) : Step c (c.invalidate why)
  | cut (c : Capture) : Step c c.cut
  | shut (c : Capture) (q : BitVec 16) : Step c { c.shut with seq := q }
  | reset (c : Capture) : Step c Capture.reset
  | watch (c : Capture) (size : Nat) :
      Step c { c with state := .watching, history := [], historySize := size }
  | remove (c : Capture) : Step c { c with staging := c.staging.tail }

/-- The parts of a station that the invariants of the block speak of. -/
def Station.core (t : Station) :=
  (t.cap, t.pg.page, t.pg.inHand, t.au.entries, t.au.retired, t.lp.txList, t.queue, t.pageQ)

/-- One step of a station. -/
inductive Station.Step : Station → Station → Prop where
  /-- Anything else of the station changes. -/
  | frame {t u : Station} : u.core = t.core → Step t u
  | cap {t : Station} {c : Capture} : t.cap.Step c → Step t { t with cap := c }
  | issue {t : Station} (e : Env) (r : ReqSpec) (o : Owner) (front : Bool) : t.au.hasFree = true →
      Step t (issueReq e r o front t)
  | free (t : Station) (tag : Fin 64) :
      Step t { t with au := t.au.freeTag tag, lp := t.lp.dropTag tag }
  /-- A freed tag joins the retired list. -/
  | retire {t : Station} {tag : Fin 64} (expiry : Nat) : (∃ x ∈ t.au.entries, x.tag = tag) →
      Step t { t with au := (t.au.freeTag tag).retire tag expiry, lp := t.lp.dropTag tag }
  | unretire {t : Station} {l : List RetiredTag} : l.Sublist t.au.retired →
      Step t { t with au := { t.au with retired := l } }
  | unlist {t : Station} {l : List TxReq} : l.Sublist t.lp.txList →
      Step t { t with lp := { t.lp with txList := l } }
  /-- The outstanding request table is emptied with the transmit list. -/
  | clear (t : Station) :
      Step t { t with au := { t.au with entries := [], retired := [] }, lp := { t.lp with txList := [] } }
  | queue {t : Station} {l : List QJob} : l.Sublist t.queue → Step t { t with queue := l }
  | page {t : Station} {g : PageState} {q : List Access} : (t.pg.bounded → g.bounded) →
      (∀ a ∈ q, a ∈ t.pageQ ∨ a.purpose.resultOf = none) → Step t { t with pg := g, pageQ := q }

/-- Steps of a station, one after the other. -/
abbrev Station.Steps : Station → Station → Prop := Relation.ReflTransGen Station.Step

/-- A station's work: steps of the station, and no result or DONE write handed on. -/
def Ctx.Runs (c d : Ctx) : Prop :=
  c.st.Steps d.st ∧ ∃ l, d.effs = c.effs ++ l ∧ ∀ a, Eff.present a ∈ l → a.purpose.resultOf = none

namespace Ctx.Runs
variable {c d : Ctx}

theorem refl (c : Ctx) : c.Runs c := ⟨.refl, [], by simp, by simp⟩

theorem trans {b : Ctx} (h : c.Runs d) (h' : d.Runs b) : c.Runs b := by
  obtain ⟨hs, l, he, hl⟩ := h
  obtain ⟨hs', l', he', hl'⟩ := h'
  refine ⟨hs.trans hs', l ++ l', by rw [he', he, List.append_assoc], fun a ha => ?_⟩
  rcases List.mem_append.mp ha with h | h
  · exact hl a h
  · exact hl' a h

theorem step (h : c.Runs d) {d' : Ctx} (hs : d.st.Step d'.st) (he : d'.effs = d.effs) : c.Runs d' :=
  ⟨h.1.tail hs, he ▸ h.2⟩

theorem frame (h : c.Runs d) {d' : Ctx} (hs : d'.st.core = d.st.core) (he : d'.effs = d.effs) :
    c.Runs d' := h.step (.frame hs) he

theorem ite {p : Prop} [Decidable p] {d' : Ctx} (h : c.Runs d) (h' : c.Runs d') :
    c.Runs (if p then d else d') := by split <;> assumption

theorem emit (h : c.Runs d) {x : Eff} (hx : ∀ a, x = .present a → a.purpose.resultOf = none) :
    c.Runs (d.emit x) := by
  obtain ⟨hs, l, he, hl⟩ := h
  refine ⟨hs, l ++ [x], by simp [he], fun a ha => ?_⟩
  rcases List.mem_append.mp ha with h | h
  · exact hl a h
  · exact hx a (List.mem_singleton.mp h).symm

/-- Work on what the invariants do not speak of. -/
theorem mod (h : c.Runs d) (f : Station → Station) (hf : (f d.st).core = d.st.core) :
    c.Runs (d.mod f) := h.frame hf rfl

theorem modLp (h : c.Runs d) (f : LinkPort → LinkPort) (hf : (f d.st.lp).txList = d.st.lp.txList) :
    c.Runs (d.modLp f) := h.mod _ (by simp only [Station.core, hf])

theorem setAttn (h : c.Runs d) (a : Attn) : c.Runs (d.setAttn a) := h.frame rfl rfl
theorem modBpu (h : c.Runs d) (f : PowerUnit → PowerUnit) : c.Runs (d.modBpu f) := h.frame rfl rfl
theorem modCu (h : c.Runs d) (f : ConsoleUnit → ConsoleUnit) : c.Runs (d.modCu f) := h.frame rfl rfl
theorem setHead (h : c.Runs d) (x : Head) : c.Runs (d.setHead x) := h.frame rfl rfl

theorem capOut (h : c.Runs d) {o : CapOut} (ho : d.st.cap.Step o.cap) : c.Runs (d.capOut o) := by
  have : c.Runs { d with st := { d.st with cap := o.cap } } := h.step (.cap ho) rfl
  rw [Ctx.capOut_eq, Station.take_eq]
  exact this.frame rfl rfl

theorem offerRec (h : c.Runs d) (e : Env) (r : SrcRec) : c.Runs (offerRec e r d) :=
  h.capOut (.offer ..)

end Ctx.Runs

/-! ## The loss of an idle link (R44, R82) -/

/-- The quiet timer restarts, but not in PARKED (R60). -/
theorem restartQuiet_eq (e : Env) (t : Station) : restartQuiet e t = { t with lp := { t.lp with
    quiet := if t.state = .parked then t.lp.quiet
      else some (e.now + t.prof.healthMs * Config.ticksPerMs) } } := by
  unfold restartQuiet; split <;> rfl

theorem dropPacket_none {c : Ctx} (e : Env) (h : c.st.lp.packet = none) : dropPacket e c = c := by
  simp [dropPacket, h]

theorem dropPacket_some {c : Ctx} (e : Env) {p : PacketBuf} (h : c.st.lp.packet = some p) :
    dropPacket e c = ⟨{ c.st with lp := { c.st.lp with
        packet := none, health := c.st.lp.health.discard 0
        quiet := if c.st.state = .parked then c.st.lp.quiet
          else some (e.now + c.st.prof.healthMs * Config.ticksPerMs) } }, c.att, c.effs⟩ := by
  unfold dropPacket
  rw [h]
  simp only [Ctx.mod, restartQuiet_eq]
  rfl

/-- With no entry outstanding and no job begun at the head no entry completes at a link loss. -/
theorem auLinkLoss_idle {c : Ctx} (e : Env) (he : c.st.au.entries = []) (hw : c.st.head = .waiting) :
    auLinkLoss e c = c.modAu fun a => { a with retired := [], holder := false, boardRun := .unknown } := by
  unfold auLinkLoss loseWaiting
  rw [he]
  simp only [completeDown, hw]

theorem linkLoss_idle {d : Ctx} (e : Env) (he : d.st.au.entries = []) (hw : d.st.head = .waiting) :
    linkLoss e d =
      ⟨{ d.st with
          lp := { (dropPacket e d).st.lp with up := false, txList := [], sending := none }
          au := { d.st.au with retired := [], holder := false, boardRun := .unknown } },
        d.att ||| Attn.linkChange.mask, d.effs⟩ := by
  unfold linkLoss
  dsimp only
  cases hp : d.st.lp.packet with
  | none =>
    rw [dropPacket_none e (c := d.modLp fun l => { l with up := false }) hp, dropPacket_none e hp]
    refine (congrArg (Ctx.setAttn · .linkChange) (auLinkLoss_idle e ?_ ?_)).trans rfl
    · exact he
    · exact hw
  | some p =>
    rw [dropPacket_some e (c := d.modLp fun l => { l with up := false }) hp, dropPacket_some e hp]
    refine (congrArg (Ctx.setAttn · .linkChange) (auLinkLoss_idle e ?_ ?_)).trans rfl
    · exact he
    · exact hw

/-! ## Requests (R66, R67, R73, R74) -/

theorem issueHolder_steps (e : Env) (t : Station) : t.Steps (issueHolder e t) := by
  unfold issueHolder
  split
  · rename_i h
    simp only [Bool.and_eq_true] at h
    exact (Relation.ReflTransGen.single (.frame (u := { t with au := { t.au with holder := false } }) rfl)).tail
      (.issue _ _ _ _ h.2)
  · exact .refl

theorem issueNext_steps (e : Env) (t : Station) : t.Steps (issueNext e t) := by
  unfold issueNext
  split
  · split
    · split
      · rename_i a _ _ _ _ _ r rest _ h
        simp only [Bool.and_eq_true] at h
        exact (Relation.ReflTransGen.single (.frame (u :=
          { t with head := .access { a with reqs := rest, flying := a.flying + 1 } }) rfl)).tail
          (.issue _ _ _ _ h.1.1.2)
      · exact .refl
    · exact .refl
  · exact .refl

/-- Freed entries go to waiting requests, each to one while an entry is free (R72, R74, R80). -/
theorem offerEntries_steps (e : Env) (t : Station) : t.Steps (offerEntries e t) :=
  (issueHolder_steps e t).trans <| (issueNext_steps e _).trans <| (issueNext_steps e _).trans <|
    (issueNext_steps e _).trans (issueNext_steps e _)

namespace Ctx.Runs
variable {c d : Ctx} (h : c.Runs d) (e : Env)
include h

theorem steps {d' : Ctx} (hs : d.st.Steps d'.st) (he : d'.effs = d.effs) : c.Runs d' :=
  ⟨h.1.trans hs, he ▸ h.2⟩

/-- One step of the station with work that the invariants do not speak of. -/
theorem stepFrame {u : Station} (hs : d.st.Step u) {d' : Ctx} (hu : d'.st.core = u.core)
    (he : d'.effs = d.effs) : c.Runs d' := h.steps (.tail (.single hs) (.frame hu)) he

theorem offerEntries : c.Runs (d.mod (offerEntries e)) := h.steps (offerEntries_steps e _) rfl

theorem haltBoard : c.Runs (haltBoard e d) := by
  unfold Machine.haltBoard
  split
  · rename_i ho
    refine h.step (.issue _ _ _ _ ?_) rfl
    unfold Station.haltOutcome at ho
    by_contra hfree
    simp only [hfree] at ho
    split at ho
    · cases ho
    · simp at ho
      split at ho <;> cases ho
  · exact h.frame rfl rfl
  · exact h
  · exact h

/-! ## Sequencer (R119 to R124) -/

theorem whenAct (acts : BitVec 8) (i : Nat) {f : Ctx → Ctx} (hf : c.Runs (f d)) :
    c.Runs (whenAct acts i f d) := hf.ite h

theorem startPulse (w : Nat) : c.Runs (startPulse e w d) := (h.modBpu _).offerRec _ _

theorem enterTarget (p : Program) (tgt : Target) : c.Runs (d.mod (enterTarget e p tgt)) := by
  cases tgt <;> exact h.mod _ (by rfl)

theorem fire (p : Program) (i : Fin 4) (s : Step) (cause : Cause) : c.Runs (fire e p i s cause d).1 := by
  have h1 := h.whenAct (s.chosen cause).1 0 (f := startCapture e) (h.capOut (.start ..))
  have h2 := fun r => h1.whenAct (s.chosen cause).1 1 (f := Machine.offerRec e r) (h1.offerRec e r)
  have h3 := fun r r' =>
    (h2 r).whenAct (s.chosen cause).1 2 (f := Machine.offerRec e r') ((h2 r).offerRec e r')
  have h4 := fun r r' =>
    (h3 r r').whenAct (s.chosen cause).1 3 (f := stopCapture p.postCount) ((h3 r r').capOut (.stop ..))
  have h5 := fun r r' =>
    (h4 r r').whenAct (s.chosen cause).1 4 (f := Machine.haltBoard e) ((h4 r r').haltBoard e)
  refine enterTarget (whenAct (whenAct (whenAct (h5 _ _) _ _ ?_) _ _ ?_) _ _ ?_) e _ _
  · exact ((h5 _ _).startPulse e _).ite (h5 _ _)
  · exact frame (whenAct (h5 _ _) _ _ (((h5 _ _).startPulse e _).ite (h5 _ _))) rfl rfl
  · refine setAttn (whenAct (whenAct (h5 _ _) _ _ (((h5 _ _).startPulse e _).ite (h5 _ _))) _ _ ?_) _
    exact frame (whenAct (h5 _ _) _ _ (((h5 _ _).startPulse e _).ite (h5 _ _))) rfl rfl

theorem takeReport (x : Cond) : c.Runs (takeReport e x d).1 := by
  unfold Machine.takeReport
  split
  · split
    · split
      · exact h.fire ..
      · exact h.mod _ (by rfl)
    · exact h
  · exact h

omit h in
theorem followUp {x : Ctx × Bool} (h : c.Runs x.1) : c.Runs (followUp e x) := (h.takeReport e _).ite h

theorem report (x : Cond) : c.Runs (report e x d) := (h.takeReport e x).followUp e

theorem stepTimerExpires : c.Runs (stepTimerExpires e d) := by
  unfold Machine.stepTimerExpires
  split
  · exact ite (ite ((h.fire ..).followUp e) (h.mod _ (by rfl))) ((h.fire ..).followUp e)
  · exact h

/-! ## The head's job and the completion of entries (R72, R177) -/

theorem endHead (r : Res) : c.Runs (endHead r d) := by
  unfold Machine.endHead
  split
  · exact h
  · rename_i q qs hq
    have : c.Runs { d with st := { d.st with queue := qs } } :=
      h.step (.queue (hq ▸ List.sublist_cons_self q qs)) rfl
    exact (this.emit (x := .jobEnd q.jid r) (by simp)).frame rfl rfl

theorem endAccess : c.Runs (endAccess d) := by
  unfold Machine.endAccess
  split
  · exact ite (h.endHead _) h
  · exact h

theorem readData (n : StationNo) (q : QJob) (x : Entry) (ws : List Word32) :
    c.Runs (readData n q x ws d) := by
  unfold Machine.readData
  split
  · exact h.emit (by rintro a ⟨⟩; rfl)
  · exact h

theorem toOwner (x : Entry) (o : AccessOutcome) (ws : List Word32) : c.Runs (toOwner e x o ws d) := by
  unfold Machine.toOwner
  split
  · split
    · have h1 : c.Runs (if o = .ok then Machine.readData e.n ‹QJob› x ws d else d) :=
        ite (h.readData ..) h
      exact (h1.setHead _).endAccess
    · exact h
  · exact h

theorem complete (x : Entry) (o : AccessOutcome) (ws : List Word32) (corrected : Bool) :
    c.Runs (complete e x o ws corrected d) := by
  have h1 : c.Runs (controlDone x o d) := ite (h.mod _ (by rfl)) h
  have h2 := ite (p := (controlDone x o d).st.prof.accessLogging = true)
    (h1.offerRec e (accessRecord e x o ws corrected)) h1
  exact ((ite (p := o = .ok) h2 (h2.report e .accessError)).toOwner e x o ws).offerEntries e

theorem freeEntry (g : Fin 64) : c.Runs (d.freeEntry g) := h.step (.free _ _) rfl

theorem takeResponse (tag : Nat) (st : Byte) (ws : List Word32) (corrected : Bool) :
    c.Runs (takeResponse e tag st ws corrected d) := by
  unfold Machine.takeResponse
  split
  · exact (h.freeEntry _).complete ..
  · exact ite (h.modLp _ (by rfl)) (h.modLp _ (by rfl))

theorem takeTimeout (tag : Fin 64) : c.Runs (takeTimeout e tag d) := by
  unfold Machine.takeTimeout
  split
  · rename_i x hx
    have hmem : ∃ y ∈ d.st.au.entries, y.tag = tag :=
      ⟨x, List.mem_of_find?_eq_some hx, by simpa using List.find?_some hx⟩
    have h1 (y : Nat) : c.Runs ((d.freeEntry tag).modAu (·.retire tag y)) :=
      h.step (.retire y hmem) rfl
    have h2 := (h1 (e.now + d.st.prof.responseTimeout * Config.ticksPer10us)).complete e x .timeout [] false
    exact ite h2 h
  · exact h

theorem takeRetireExpiry (tag : Fin 64) : c.Runs (takeRetireExpiry e tag d) :=
  h.step (.unretire List.filter_sublist) rfl

theorem loseWaiting : c.Runs (loseWaiting d) := by
  unfold Machine.loseWaiting
  split
  · exact endAccess (h.mod _ (by rfl))
  · exact h

omit h in
theorem completeDown (l : List Entry) {d : Ctx} (h : c.Runs d) : c.Runs (completeDown e d l) := by
  induction l generalizing d with
  | nil => exact h
  | cons x xs ih => exact ih ((h.freeEntry _).complete ..)

theorem auLinkLoss : c.Runs (auLinkLoss e d) := by
  have h1 := (h.completeDown e d.st.au.entries).loseWaiting
  exact h1.stepFrame (.unretire (List.nil_sublist _)) rfl rfl

/-! ## The console (Chapter 5) -/

theorem closeLine (f : LineFlags) (at' : Tick) : c.Runs (closeLine e f at' d) :=
  (h.offerRec e _).modCu _

theorem cutLine : c.Runs (cutLine e d) := h.ite (h.closeLine ..)

theorem foldReports (l : List Nat) : c.Runs (l.foldl (fun c p => Machine.report e (.pattern p) c) d) := by
  induction l generalizing d with
  | nil => exact h
  | cons p ps ih => exact ih (h.report e _)

theorem storeByte (b : LineByte) (time : Tick) : c.Runs (storeByte e b time d) := by
  have h1 : c.Runs ((d.modCu fun u => { u with line := u.line ++ [b] }).mod (restartIdle e)) :=
    h.frame rfl rfl
  have h2 := h1.foldReports e
  exact ((h2 _).closeLine ..).ite (h2 _)

theorem takeByte (b : LineByte) (time : Tick) : c.Runs (takeByte e b time d) := by
  have h1 := (h.modCu fun u => { u with origin := time }).ite (p := d.st.cu.line.isEmpty = true) h
  exact (h1.closeLine ..).ite (h1.storeByte ..)

theorem startEdge : c.Runs (startEdge e d) := by
  unfold Machine.startEdge
  split
  · exact h.modCu _
  all_goals exact h

theorem startSample (high : Bool) : c.Runs (startSample e high d) := by
  unfold Machine.startSample
  split
  · refine ite (ite (h.modCu _) ?_) h
    exact ite (h.modCu _) ((h.modCu _).mod _ (by rfl))
  all_goals exact h

theorem stopSample (b : Byte) (stop : Bool) : c.Runs (stopSample e b stop d) := by
  unfold Machine.stopSample
  split
  · exact ite (ite (h.modCu _) ((h.modCu _).takeByte ..)) h
  all_goals exact h

theorem heldRise : c.Runs (heldRise e d) := by
  unfold Machine.heldRise
  split
  · exact (h.modCu _).takeByte ..
  all_goals exact h

theorem breakThreshold : c.Runs (breakThreshold e d) := by
  unfold Machine.breakThreshold
  split
  · exact ite ((h.modCu _).closeLine ..) h
  all_goals exact h

theorem idleExpires : c.Runs (idleExpires e d) := (h.closeLine ..).ite h

omit h in
theorem beginTx_core (t : Station) : (beginTx e t).core = t.core := by
  unfold beginTx; split <;> rfl

theorem sendConsole (n : Nat) (bs : List Byte) : c.Runs (sendConsole e n bs d) :=
  ite (h.mod _ (beginTx_core e _)) (h.endHead _)

theorem countSent : c.Runs (countSent d) := by
  unfold Machine.countSent
  split
  · exact ite (h.endHead _) (h.mod _ (by rfl))
  · exact h

theorem byteSent : c.Runs (byteSent e d) := by
  unfold Machine.byteSent
  split
  · exact ite (mod (countSent (h.modCu _)) _ (beginTx_core e _)) h
  · exact h

theorem endSend (k : FaultKind) : c.Runs (endSend k d) := by
  unfold Machine.endSend
  split
  · exact (h.modCu _).endHead _
  · exact h

theorem powerLeft (k : FaultKind) : c.Runs (powerLeft e k d) := (h.cutLine e).endSend k

/-! ## Board power (Chapter 6) -/

theorem powerEvent (ev : PowerEv) (leftOn : Bool) : c.Runs (powerEvent e ev leftOn d) := by
  have h1 := (h.offerRec e (powerRecord e ev d.st)).report e (.power ev)
  have h2 := (h1.powerLeft e (ev.faultOf.getD .none)).ite (p := leftOn = true) h1
  exact (h2.setAttn _).ite h2

theorem endPowerJob (k : FaultKind) : c.Runs (endPowerJob k d) := by
  unfold Machine.endPowerJob
  split
  · exact h.endHead _
  · exact h.endHead _
  · exact h

theorem endAssertion : c.Runs (endAssertion e d) := by
  unfold Machine.endAssertion
  exact ite ((h.modBpu _).modBpu _) (powerEvent ((h.modBpu _).modBpu _) ..)

theorem endRampJob : c.Runs (endRampJob e d) := by
  unfold Machine.endRampJob
  split
  · exact h.endHead _
  · exact h

theorem powerGood : c.Runs (powerGood e d) := by
  have h1 := fun b => (powerEvent (h.modBpu b) e .powerGood false).endRampJob e
  exact ((h1 _).endAssertion e).ite (h1 _)

theorem enterRamping : c.Runs (enterRamping e d) := by
  have h1 : ∀ b p [Decidable p], c.Runs (if p then (d.modBpu b).mod (startFilter e) else d.modBpu b) :=
    fun b p _ => ite ((h.modBpu b).mod _ (by rfl)) (h.modBpu b)
  have h2 := fun b p [Decidable p] => (h1 b p).powerEvent e .rampStart false
  exact ((h2 _ _).powerGood e).ite (h2 _ _)

theorem settleDecides : c.Runs (settleDecides e d) := (h.enterRamping e).ite (h.modBpu _)

theorem startSettle : c.Runs (startSettle e d) := (h.settleDecides e).ite (h.modBpu _)

theorem seat : c.Runs (seat e d) := by
  have h1 := fun b => powerEvent (h.modBpu b) e .seated false
  exact ((h1 _).startSettle e).ite (h1 _)

theorem remove : c.Runs (remove e d) := ((h.modBpu _).powerEvent ..).endPowerJob _

theorem presentSettled : c.Runs (presentSettled e d) := by
  unfold Machine.presentSettled
  split
  · exact (h.seat e).ite h
  · exact h.ite (h.remove e)
  · exact h.ite (h.remove e)
  · exact h.ite (h.remove e)
  · exact h.ite (h.remove e)
  · exact h

theorem takeFault (k : FaultKind) : c.Runs (takeFault e k d) :=
  ((h.modBpu _).powerEvent ..).endPowerJob _

theorem cooldownExpires : c.Runs (cooldownExpires e d) :=
  ((h.modBpu _).enterRamping e).ite ((h.modBpu _).powerEvent ..)

theorem goodRises : c.Runs (goodRises e d) := (h.powerGood e).ite h
theorem goodFalls : c.Runs (goodFalls e d) := (h.takeFault e _).ite h
theorem overloadRises : c.Runs (overloadRises e d) := ite (h.mod _ (by rfl)) h
theorem overloadFalls : c.Runs (overloadFalls d) := h.modBpu _
theorem inrushCloses : c.Runs (inrushCloses e d) := ite ((h.modBpu _).mod _ (by rfl)) (h.modBpu _)
theorem switchOff : c.Runs (switchOff e d) := (h.modBpu _).powerEvent ..

theorem modeStops : c.Runs (modeStops e d) := by
  unfold Machine.modeStops
  split
  · exact h.switchOff e
  · exact h.modBpu _
  all_goals exact h

theorem changeMode (old new : PowerMode) : c.Runs (changeMode e old new d) := by
  have h1 := h.modBpu fun b => { b with latched := .none, retry := 0 }
  unfold Machine.changeMode
  dsimp only
  split
  · exact (h1.switchOff e).ite (h1.modeStops e)
  · exact h1.modeStops e
  · exact (h1.startSettle e).ite h1
  · exact h1
  · exact h1

theorem powerOnJob : c.Runs (powerOnJob e d) :=
  ite (enterRamping ((h.mod _ (by rfl)).modBpu _) e) (h.endHead _)
theorem powerOffJob : c.Runs (powerOffJob e d) := ((h.switchOff e).endHead _).ite (h.endHead _)

theorem setModeJob (m : PowerMode) : c.Runs (setModeJob e m d) :=
  ite (h.endHead _) (endHead (changeMode (h.mod _ (by rfl)) e _ m) _)

theorem resetPulseJob (w : Nat) : c.Runs (resetPulseJob e w d) :=
  ite (report (startPulse (h.mod _ (by rfl)) e _) e _) (h.endHead _)

theorem endPulseJob : c.Runs (endPulseJob d) := by
  unfold Machine.endPulseJob
  split
  · exact h.endHead _
  · exact h

theorem pulseExpires : c.Runs (pulseExpires e d) := (h.endAssertion e).endPulseJob

theorem resetHoldJob : c.Runs (resetHoldJob e d) := by
  unfold Machine.resetHoldJob
  exact ite (endHead (powerEvent ((h.modBpu _).modBpu _) ..) _) (endHead (h.modBpu _) _)

theorem resetReleaseJob : c.Runs (resetReleaseJob e d) := by
  unfold Machine.resetReleaseJob
  exact ite (endHead (powerEvent ((h.modBpu _).modBpu _) ..) _) (endHead (h.modBpu _) _)

theorem findBoard : c.Runs (findBoard e d) := (h.seat e).ite (h.modBpu _)

/-! ## The link (Chapter 3) -/

omit h in
theorem restartQuiet_core (t : Station) : (restartQuiet e t).core = t.core := by
  unfold restartQuiet; split <;> rfl

theorem restartQuiet : c.Runs (d.mod (restartQuiet e)) := h.mod _ (restartQuiet_core e _)

theorem quietExpires : c.Runs (quietExpires e d) :=
  ite (h.modLp _ (by rfl)) (offerRec ((h.modLp _ (by rfl)).modLp _ (by rfl)) ..)

theorem signalUp : c.Runs (signalUp d) := ite ((h.modLp _ (by rfl)).setAttn _) h

theorem dropPacket : c.Runs (dropPacket e d) := by
  unfold Machine.dropPacket
  split
  · exact restartQuiet (h.modLp _ (by rfl)) e
  · exact h

theorem linkLoss : c.Runs (linkLoss e d) := by
  have h1 : c.Runs (Machine.dropPacket e (d.modLp fun l => { l with up := false })) :=
    dropPacket (h.modLp _ (by rfl)) e
  refine setAttn (auLinkLoss ?_ e) _
  exact h1.stepFrame (.unlist (List.nil_sublist _)) rfl rfl

theorem signalDown : c.Runs (signalDown e d) := (h.linkLoss e).ite h
theorem linkOff : c.Runs (linkOff e d) := modLp (h.signalDown e) _ (by rfl)
theorem takeDataByte (b : Byte) : c.Runs (takeDataByte b d) := ite (h.modLp _ (by rfl)) h

theorem takeStart : c.Runs (takeStart d) := by
  refine ite (h.modLp _ ?_) h
  split <;> rfl

theorem takeEndInIdle : c.Runs (takeEndInIdle e d) := ite (restartQuiet (h.modLp _ (by rfl)) e) h

theorem endPacket (corrected : Bool) : c.Runs (endPacket e corrected d) :=
  restartQuiet (h.modLp _ (by rfl)) e

theorem acceptTrace (corrected : Bool) (ch : BitVec 3) (p : List Byte) :
    c.Runs (acceptTrace e corrected ch p d) := ite ((h.offerRec ..).report ..) (h.modLp _ (by rfl))

theorem acceptProgress (corrected : Bool) (p : List Byte) : c.Runs (acceptProgress e corrected p d) :=
  ((h.modBpu _).offerRec ..).report ..

theorem acceptNotice (corrected : Bool) (code : Byte) (rest : List Byte) :
    c.Runs (acceptNotice e corrected code rest d) := by
  have h1 : c.Runs (d.modAu fun a => { a with boardRun := a.boardRun.afterNotice code }) :=
    h.mod _ (by rfl)
  have h2 := fun r => (h1.offerRec e r).report e (.notice code)
  exact ite ((h2 _).setAttn _) (h2 _)

theorem endDiscarded : c.Runs (endDiscarded e d) := by
  unfold Machine.endDiscarded
  split
  · exact modLp (h.endPacket ..) _ (by rfl)
  all_goals exact h

theorem endTrace : c.Runs (endTrace e d) := by
  unfold Machine.endTrace
  split
  · exact (h.endPacket ..).acceptTrace ..
  · exact h

theorem endProgress : c.Runs (endProgress e d) := by
  unfold Machine.endProgress
  split
  · exact (h.endPacket ..).acceptProgress ..
  · exact h

theorem endResponse : c.Runs (endResponse e d) := by
  unfold Machine.endResponse
  split
  · exact (h.endPacket ..).takeResponse ..
  · exact h

theorem endNotice : c.Runs (endNotice e d) := by
  unfold Machine.endNotice
  split
  · exact (h.endPacket ..).acceptNotice ..
  · exact h

omit h in
/-- The transmitter begins nothing, or takes the first request off its list (R63). -/
theorem kick_txList (l : LinkPort) : l.kick.txList.Sublist l.txList := by
  unfold LinkPort.kick
  split
  · rename_i hl
    split
    · rw [hl]; exact List.sublist_cons_self ..
    · exact List.Sublist.refl _
  · exact List.Sublist.refl _

theorem transmitted : c.Runs (transmitted d) := by
  unfold Machine.transmitted
  cases hs : d.st.lp.sending with
  | none => exact h.modLp _ (by simp [hs])
  | some b =>
    exact h.stepFrame (.unlist (kick_txList { d.st.lp with sending := none }))
      (by simp [Ctx.modLp, Ctx.mod, Station.core, hs]) rfl

/-! ## Jobs at the head (Chapters 2, 4, 7, 8) -/

theorem gated (j : Job) {f : Ctx → Ctx} (hf : c.Runs (f d)) : c.Runs (gated j f d) := by
  unfold Machine.gated
  split
  · exact h.endHead _
  · exact hf

theorem configureJob (a : Word64) : c.Runs (configureJob e a d) :=
  ite ((h.setHead _).emit (by rintro a ⟨⟩; rfl)) (h.endHead _)

omit h in
theorem consoleOn_core (t : Station) : (consoleOn t).core = t.core := by
  unfold consoleOn; split <;> rfl

theorem consoleChange (old new : Bool) : c.Runs (consoleChange e old new d) := by
  cases old <;> cases new
  · exact h
  · exact h.mod _ (consoleOn_core _)
  · exact mod (h.cutLine e) _ (by rfl)
  · exact h

theorem applyProfile (p : Profile) : c.Runs (applyProfile e p d) := by
  have h1 : c.Runs (d.mod fun t =>
      { t with
        profile := some p
        cap := if d.st.prof.timeShift = p.timeShift then t.cap else t.cap.invalidate .enable }) := by
    by_cases hk : d.st.prof.timeShift = p.timeShift
    · simp only [hk, if_true]
      exact h.mod _ (by rfl)
    · simp only [hk, if_false]
      exact h.stepFrame (.cap (.invalidate _ .enable)) rfl rfl
  have h2 := h1.consoleChange e d.st.prof.consoleEnable p.consoleEnable
  exact h2.ite (h2.changeMode ..)

theorem profileArrives (data : List Byte) : c.Runs (profileArrives e data d) := by
  unfold Machine.profileArrives
  split
  · exact (h.applyProfile ..).endHead _
  · exact h.endHead _

theorem endPark : c.Runs (endPark e d) := by
  unfold Machine.endPark
  exact ite (endHead (mod (mod (cutLine (linkOff (h.modBpu _) e) e) _ (by rfl)) _ (by rfl)) _) (h.endHead _)

theorem parkCheck : c.Runs (parkCheck e d) := (h.endPark e).ite h
theorem parkJob : c.Runs (parkJob e d) := (h.setHead _).parkCheck e

theorem unparkJob : c.Runs (unparkJob e d) :=
  mod (h.modLp _ (by rfl)) _ (consoleOn_core _)

theorem wakeEnds : c.Runs (wakeEnds e d) := by
  unfold Machine.wakeEnds
  split
  · exact ite (endHead (mod (findBoard (h.modLp _ (by rfl)) e) _ (by rfl)) _) h
  · exact h

theorem quiesceJob : c.Runs (quiesceJob e d) := by
  have h1 : c.Runs (d.mod fun t =>
      endDrives (disarmStation { t with cap := t.cap.cut, head := .quiesceDrain })) :=
    h.stepFrame (.cap (.cut _)) rfl rfl
  have h2 := h1.modBpu (·.inactivate)
  exact mod (cutLine (linkOff (ite (h2.powerLeft e .none) h2) e) e) _ (by rfl)

theorem startAccess (reqs : List ReqSpec) : c.Runs (startAccess e reqs d) :=
  ((h.setHead _).offerEntries e).ite (h.endHead _)

theorem writeBufferJob (n : Nat) (b : Word64) : c.Runs (writeBufferJob e n b d) :=
  ite ((h.setHead _).emit (by rintro a ⟨⟩; rfl)) (h.endHead _)

theorem writeDataArrives (data : List Byte) : c.Runs (writeDataArrives e data d) := by
  unfold Machine.writeDataArrives
  split
  · exact h.startAccess ..
  · exact h

theorem armJob (a : Word64) : c.Runs (armJob e a d) := by
  unfold Machine.armJob
  split
  · exact h.endHead _
  all_goals exact ((h.setHead _).emit (by rintro a ⟨⟩; rfl)).emit (by rintro a ⟨⟩; rfl)

theorem programArrives (data : List Byte) : c.Runs (programArrives e data d) := by
  unfold Machine.programArrives
  split
  · exact endHead (h.mod _ (by rfl)) _
  · exact h.endHead _

theorem programPart (part : Nat) (data : List Byte) : c.Runs (programPart e part data d) := by
  unfold Machine.programPart
  split
  · split
    · exact h.programArrives ..
    · exact h.setHead _
  · exact h

theorem captureImmediateJob : c.Runs (captureImmediateJob e d) :=
  (endHead (h.capOut (.start ..)) _).ite (h.endHead _)

theorem captureTriggeredJob : c.Runs (captureTriggeredJob d) :=
  ite (endHead (h.step (d' := d.mod _) (.cap (.watch ..)) rfl) _) (h.endHead _)

theorem enableStation : c.Runs (enableStation e d) := by
  have h1 := h.step (d' := ⟨_, d.att, d.effs⟩) (.clear _) rfl
  have h2 := h1.step (d' := ⟨_, d.att, d.effs⟩) (.queue (List.nil_sublist _)) rfl
  have h3 := h2.step (d' := ⟨_, d.att, d.effs⟩) (.cap (.reset _)) rfl
  unfold Machine.enableStation
  exact findBoard (h3.frame (consoleOn_core _) (by rfl)) e

theorem finishQuiesce (v : Nat) : c.Runs (finishQuiesce v d) := by
  exact (h.endHead (Res.okv v)).stepFrame (.cap (.shut _ 0)) rfl rfl

/-! ## The end of a station's service (R37) -/

theorem abandonJobs : c.Runs (abandonJobs d) := by
  have h1 : c.Runs (d.mod fun t => { t with queue := [] }) :=
    h.step (.queue (List.nil_sublist _)) rfl
  have h2 : (d.mod fun t => { t with queue := [] }).Runs (Machine.abandonJobs d) :=
    ⟨.single (.frame rfl), _, rfl, by simp⟩
  exact h1.trans h2

omit h in
/-- The parts of an abandoned station that the invariants speak of: CAP shut, the table, the transmit list
and the queue empty (R37). -/
theorem abandonStation_core : (abandonStation e d).st.core =
    (d.st.cap.shut, d.st.pg.page, d.st.pg.inHand, [], [], [], [], d.st.pageQ)
    ∧ (abandonStation e d).effs = (Machine.abandonJobs d).effs := by
  unfold abandonStation Machine.linkOff Machine.signalDown
  dsimp only
  split
  · rw [linkLoss_idle e rfl rfl]; exact ⟨rfl, rfl⟩
  · exact ⟨rfl, rfl⟩

theorem abandonStation : c.Runs (abandonStation e d) := by
  obtain ⟨hcore, heffs⟩ := abandonStation_core (d := d) e
  have h1 := h.abandonJobs
  have h2 := h1.step (d' := ⟨_, d.att, (Machine.abandonJobs d).effs⟩)
    (.cap (.shut _ d.st.cap.seq)) rfl
  exact h2.stepFrame (.clear _) hcore heffs

/-! ## Records leave staging (R147, R153) -/

omit h in
theorem Staged.size_mod (r : Staged) : r.size % 8 = 0 := by
  unfold Staged.size Payload.size paddedSize; omega

omit h in
/-- A record in hand fits the page it is removed into. -/
theorem page_add_bounded {g : PageState} {r : Staged} {f : SealMark → SealMark} {idle : Option Nat}
    (hr : g.inHand = some r) (hb : g.bounded) :
    ({ g with page := g.page.map (·.add r), mark := g.mark.map f, idleFlush := idle, inHand := none } :
      PageState).bounded := by
  refine ⟨fun p hp => ?_, fun r hr => by simp at hr⟩
  obtain ⟨p0, hp0, hsize⟩ := hb.2 r hr
  obtain ⟨hused, hmod⟩ := hb.1 p0 hp0
  have hp : p0.add r = p := by simpa [hp0] using hp
  have hsize' : r.size ≤ Config.pageData - p0.used := hsize
  have := Staged.size_mod r
  subst hp
  change p0.used + r.size ≤ _ ∧ (p0.used + r.size) % 8 = 0
  omega

theorem recoverAtRemoval : c.Runs (recoverAtRemoval e d) := by
  unfold Machine.recoverAtRemoval
  split
  · exact h.step (.cap (.recover _ _ _ ‹_›)) rfl
  · exact h

theorem removeRecord : c.Runs (removeRecord e d) := by
  unfold Machine.removeRecord
  split
  · rename_i r hr
    have h1 := h.step (d' := ⟨_, d.att, d.effs⟩) (.cap (.remove _)) rfl
    refine recoverAtRemoval (h1.step ?_ (by rfl)) e
    exact .page (page_add_bounded hr) (fun a ha => .inl ha)
  · exact h

end Ctx.Runs

end Sys2Proof.Machine
end

section
/-! What a command can do to what the invariants of the block speak of: the device's steps, each function
of the device taken apart once into them, and from that what a command gives. -/

namespace Sys2Proof.Machine

/-! ## Steps of a station's pages -/

namespace Station.Steps

theorem ofFrame {t u : Station} (h : u.core = t.core) : t.Steps u := .single (.frame h)

/-- PAGE accesses of PGM are no result or DONE writes. -/
theorem present (t : Station) {as : List Access} (h : ∀ a ∈ as, a.purpose.resultOf = none) :
    t.Steps { t with pageQ := t.pageQ ++ as } :=
  .single (.page (g := t.pg) id fun a ha => (List.mem_append.mp ha).imp_right (h a))

theorem filterQ (t : Station) (p : Access → Bool) : t.Steps { t with pageQ := t.pageQ.filter p } :=
  .single (.page (g := t.pg) id fun a ha => .inl (List.mem_filter.mp ha).1)

theorem sealWrites (p : OpenPage) (n : StationNo) (why : SealReason) (k : Nat) (det : Bool) :
    ∀ a ∈ sealWrites p n why k det, a.purpose.resultOf = none := by
  unfold Machine.sealWrites
  simp [Access.writeOf, Purpose.resultOf]

theorem fillWrites (p : OpenPage) (n : StationNo) : ∀ a ∈ fillWrites p n, a.purpose.resultOf = none := by
  unfold Machine.fillWrites
  split
  · simp
  · intro a ha
    obtain ⟨x, -, rfl⟩ := List.mem_map.mp ha
    rfl

theorem recordWrites (p : OpenPage) (n : StationNo) (r : Staged) :
    ∀ a ∈ recordWrites p n r, a.purpose.resultOf = none := by
  unfold Machine.recordWrites
  intro a ha
  obtain ⟨x, -, rfl⟩ := List.mem_map.mp ha
  rfl

theorem sealStation (n : StationNo) (why : SealReason) (t : Station) : t.Steps (sealStation n why t) := by
  unfold Machine.sealStation
  split
  · refine .single (.page (fun h => h) fun a ha => ?_)
    rcases List.mem_append.mp ha with ha | ha
    · refine (List.mem_append.mp ha).imp_right fun ha => ?_
      split at ha
      · exact fillWrites _ _ a ha
      · simp at ha
    · exact .inr (sealWrites _ _ _ _ _ a ha)
  · exact .refl

theorem cutPage (t : Station) : t.Steps (cutPage t) :=
  .single (.page (fun h => ⟨h.1, fun r hr => by simp at hr⟩) fun a ha => .inl (List.mem_filter.mp ha).1)

theorem forgetPage (t : Station) : t.Steps (forgetPage t) :=
  .single (.page (fun _ => ⟨fun p hp => by simp at hp, fun r hr => by simp at hr⟩)
    fun a ha => .inl (List.mem_filter.mp ha).1)

theorem drainStation (n : StationNo) (t : Station) : t.Steps (drainStation n t) := by
  unfold Machine.drainStation
  split
  · rename_i p hp _ _
    split
    · exact .trans (ofFrame (by rfl)) (sealStation ..)
    · split
      · exact sealStation ..
      · exact .refl
    · split
      · exact sealStation ..
      · rename_i hfit
        refine .single (.page (fun hb => ⟨hb.1, fun r hr => ⟨p, hp, ?_⟩⟩) fun a ha => ?_)
        · have : _ = r := Option.some.inj hr
          subst this
          exact Nat.le_of_not_lt hfit
        · exact (List.mem_append.mp ha).imp_right (recordWrites p n _ a)
  · exact .refl

theorem idleFlushStation (n : StationNo) (t : Station) : t.Steps (idleFlushStation n t) := by
  unfold Machine.idleFlushStation
  dsimp only
  split
  · exact .trans (ofFrame (by rfl)) (sealStation ..)
  · exact ofFrame (by rfl)

theorem sealDetached (n : StationNo) (t : Station) : t.Steps (sealDetached n t) := by
  unfold Machine.sealDetached
  split
  · exact present t (sealWrites _ _ _ _ _)
  · exact .refl

theorem detachPage {t : Station} (h : t.pg.inHand = none) : t.Steps (detachPage t) := by
  unfold Machine.detachPage
  split
  · exact .single (.page (q := t.pageQ)
      (fun _ => ⟨fun p hp => by simp at hp, fun r hr => by simp [h] at hr⟩) fun a ha => .inl ha)
  · exact .refl

theorem popHead (j : Nat) (t : Station) : t.Steps (popHead j t) := by
  unfold Machine.popHead
  split
  · exact .tail (.single (.queue (List.tail_sublist _))) (.frame rfl)
  · exact .refl

theorem sealRequest (why : SealReason) (t : Station) : t.Steps (t.sealRequest why) := ofFrame (by rfl)
theorem disarmStation (t : Station) : t.Steps (disarmStation t) := ofFrame (by rfl)

end Station.Steps

/-! ## Steps of the device -/

theorem State.mem_accesses {s : State} {a : Access} : a ∈ s.accesses ↔
    a ∈ s.hmp.sweepQ ∨ a ∈ s.hmp.jobQ ∨ (∃ n : StationNo, a ∈ s.stations[n.val].pageQ)
      ∨ (∃ x ∈ s.hmp.inFlight, x.acc = a) ∨ ∃ w ∈ s.hmp.writes, w.acc = a := by
  simp [State.accesses, mem_allStations, State.station]

/-- What the invariants speak of, but for the accesses. -/
def State.core (s : State) :=
  (s.tb, s.pending, s.stations, s.held, s.nextJid, s.stationMap, s.nextSerial, s.hmp.burst)

/-- A result or DONE write of job `j` waits, is in flight or is written. -/
def State.writesOf (s : State) (j : Nat) : Prop :=
  ∃ a ∈ s.accesses, ∃ h, a.purpose.resultOf = some h ∧ h.jid = j

/-- A step that changes no station and no held job, and presents no result or DONE write but of a held
job. -/
structure State.Calm (s t : State) : Prop where
  tb : t.tb = s.tb
  pending : t.pending = s.pending
  stations : t.stations = s.stations
  held : t.held = s.held
  nextJid : t.nextJid = s.nextJid
  map : s.stationMap.toList.Nodup → t.stationMap.toList.Nodup
  serial : 1 ≤ s.nextSerial ∧ s.nextSerial ≤ Config.max32 → 1 ≤ t.nextSerial ∧ t.nextSerial ≤ Config.max32
  burst : s.hmp.burst ≤ 3 → t.hmp.burst ≤ 3
  writes : ∀ a ∈ t.accesses, ∀ h, a.purpose.resultOf = some h →
    s.writesOf h.jid ∨ ∃ x ∈ s.held, x.jid = h.jid

/-- One step of the device; `J` are the numbers a job may be held again under. -/
inductive State.Step (J : Nat → Prop) : State → State → Prop where
  | calm {s t : State} : s.Calm t → Step J s t
  | station {s : State} (n : StationNo) {t : Station} : (s.station n).Step t → Step J s (s.setStation n t)
  /-- Held jobs change, or are released. -/
  | held {s : State} {l : List HeldJob} :
      (l.map fun h => (h.jid, h.slot)).Sublist (s.held.map fun h => (h.jid, h.slot)) →
      Step J s { s with held := l }
  | hold {s : State} {h : HeldJob} : h.jid = s.nextJid → s.holdsSlot h.slot = false →
      Step J s { s.addHeld h with nextJid := s.nextJid + 1 }
  | rehold {s : State} {h : HeldJob} : J h.jid → s.heldJob h.jid = none → s.holdsSlot h.slot = false →
      Step J s (s.addHeld h)
  | join {s : State} (n : StationNo) {q : QJob} : q.jid < s.nextJid →
      (s.station n).queue.length < Config.maxQueue → Step J s (s.modStation n (joinQueue q))

/-- Steps of the device, one after the other. -/
abbrev State.Moves (J : Nat → Prop) : State → State → Prop := Relation.ReflTransGen (State.Step J)

theorem State.setStation_self (s : State) (n : StationNo) : s.setStation n (s.station n) = s := by
  simp [State.setStation, State.station]

theorem State.setStation_twice (s : State) (n : StationNo) (t u : Station) :
    (s.setStation n t).setStation n u = s.setStation n u := by
  simp [State.setStation]

namespace State.Moves
variable {J : Nat → Prop} {s t : State} (h : s.Moves J t)
include h

theorem calm {u : State} (hc : t.Calm u) : s.Moves J u := h.tail (.calm hc)

/-- A step that leaves alone what the invariants speak of, but for accesses, which may be fewer or of
other kinds than result and DONE writes. -/
theorem lose {u : State} (hk : u.core = t.core)
    (ha : ∀ a ∈ u.accesses, a.purpose.resultOf = none ∨ a ∈ t.accesses) : s.Moves J u := by
  simp only [State.core, Prod.mk.injEq] at hk
  obtain ⟨h1, h2, h3, h4, h5, h6, h7, h8⟩ := hk
  refine h.calm ⟨h1, h2, h3, h4, h5, fun hm => h6 ▸ hm, fun hs => h7 ▸ hs, fun hb => h8 ▸ hb,
    fun a hm x hx => .inl ?_⟩
  rcases ha a hm with hn | hm
  · rw [hn] at hx; cases hx
  · exact ⟨a, hm, x, hx, rfl⟩

/-- A step that leaves alone what the invariants speak of. -/
theorem quiet {u : State} (hk : u.core = t.core) (hp : u.hmp = t.hmp) : s.Moves J u := by
  refine h.lose hk fun a ha => .inr ?_
  simp only [State.core, Prod.mk.injEq] at hk
  rwa [State.mem_accesses, hk.2.2.1, hp, ← State.mem_accesses] at ha

theorem ite {p : Prop} [Decidable p] {u : State} (h' : s.Moves J u) : s.Moves J (if p then t else u) := by
  split <;> assumption

theorem setStation (n : StationNo) {u : Station} (hu : (t.station n).Steps u) :
    s.Moves J (t.setStation n u) := by
  induction hu with
  | refl => rw [State.setStation_self]; exact h
  | tail _ hstep ih =>
    rw [← State.setStation_twice]
    exact ih.tail (.station n (by rw [State.setStation_station]; exact hstep))

theorem modStation (n : StationNo) {f : Station → Station} (hf : (t.station n).Steps (f (t.station n))) :
    s.Moves J (t.modStation n f) := h.setStation n hf

/-- Work at every station in turn. -/
theorem eachStation {g : State → StationNo → State} (hg : ∀ u n, s.Moves J u → s.Moves J (g u n)) :
    s.Moves J (t.eachStation g) := by
  unfold State.eachStation
  generalize allStations = l
  induction l generalizing t with
  | nil => exact h
  | cons n ns ih => exact ih (hg t n h)

theorem mapStations {f : Station → Station} (hf : ∀ u : Station, u.Steps (f u)) :
    s.Moves J (t.mapStations f) := by
  have := h.eachStation (g := fun u n => u.modStation n f) fun u n hu => hu.modStation n (hf _)
  rwa [eachStation_eq fun _ => f] at this

theorem mapPages {f : PageState → PageState} (hf : ∀ u : Station, u.Steps { u with pg := f u.pg }) :
    s.Moves J (t.mapPages f) := h.mapStations hf

theorem setAttn (a : Attn) : s.Moves J (t.setAttn a) := h.quiet (by rfl) (by rfl)

theorem presentSweep {a : Access} (ha : a.purpose.resultOf = none) : s.Moves J (t.presentSweep a) := by
  refine h.lose rfl (fun x hx => ?_)
  have : x = a ∨ x ∈ t.accesses := by
    simp only [State.mem_accesses, State.presentSweep, List.mem_append, List.mem_singleton] at hx ⊢
    rcases hx with (hx | hx) | hx
    · exact .inr (.inl hx)
    · exact .inl hx
    · exact .inr (.inr hx)
  exact this.imp_left fun e : x = a => e ▸ ha

omit h in
theorem mem_presentJob {a x : Access} (hx : x ∈ (t.presentJob a).accesses) : x = a ∨ x ∈ t.accesses := by
  simp only [State.mem_accesses, State.presentJob, List.mem_append, List.mem_singleton] at hx ⊢
  rcases hx with hx | (hx | hx) | hx
  · exact .inr (.inl hx)
  · exact .inr (.inr (.inl hx))
  · exact .inl hx
  · exact .inr (.inr (.inr hx))

theorem presentJob {a : Access} (ha : a.purpose.resultOf = none) : s.Moves J (t.presentJob a) := by
  refine h.lose rfl (fun x hx => ?_)
  exact (mem_presentJob hx).imp_left fun e : x = a => e ▸ ha

/-- A result or DONE write of a held job is presented. -/
theorem presentOwn {a : Access} {x : HeldJob} (hx : x ∈ t.held) (ha : a.purpose.resultOf = some x) :
    s.Moves J (t.presentJob a) := by
  refine h.calm ⟨rfl, rfl, rfl, rfl, rfl, id, id, id, fun b hb y hy => ?_⟩
  rcases mem_presentJob hb with rfl | hm
  · rw [ha] at hy; cases hy; exact .inr ⟨x, hx, rfl⟩
  · exact .inl ⟨b, hm, y, hy, rfl⟩

theorem presentPage (n : StationNo) {as : List Access} (ha : ∀ a ∈ as, a.purpose.resultOf = none) :
    s.Moves J (t.presentPage n as) := h.modStation n (.present _ ha)

/-! ## Held jobs and their results (R178) -/

theorem modHeld (j : Nat) {f : HeldJob → HeldJob} (hf : ∀ x, (f x).jid = x.jid ∧ (f x).slot = x.slot) : s.Moves J (t.modHeld j f) := by
  refine h.tail (.held ?_)
  rw [List.map_map]
  refine (List.Sublist.refl _).trans (List.map_congr_left (fun x _ => ?_) ▸ List.Sublist.refl _)
  simp only [Function.comp]
  split
  · rw [(hf x).1, (hf x).2]
  · rfl

theorem presentResult (j : Nat) : s.Moves J (t.presentResult j) := by
  unfold State.presentResult
  split
  · rename_i x hx
    split
    · refine ite h (presentOwn (x := x) (presentOwn (x := x) h ?_ rfl) ?_ rfl)
      all_goals exact List.mem_of_find?_eq_some hx
    · exact h
  · exact h

theorem finishJob (j : Nat) : s.Moves J (t.finishJob j) := by
  unfold State.finishJob
  split
  · exact ite ((h.modHeld j (fun _ => by exact ⟨rfl, rfl⟩)).presentResult j) h
  · exact h

theorem recordResult (n : StationNo) (j : Nat) (r : Res) : s.Moves J (t.recordResult n j r) :=
  (h.modHeld j (fun _ => by exact ⟨rfl, rfl⟩)).finishJob j

theorem withStation (n : StationNo) {f : Env → Ctx → Ctx} (hf : ∀ (e : Env) (c : Ctx), c.Runs (f e c)) :
    s.Moves J (t.withStation n f) := by
  obtain ⟨hst, l, he, hl⟩ := hf (t.env n) ⟨t.station n, t.attention, []⟩
  rw [List.nil_append] at he
  unfold State.withStation
  dsimp only
  rw [he]
  have h1 : s.Moves J ({ t.setStation n (f (t.env n) ⟨t.station n, t.attention, []⟩).st with
      attention := (f (t.env n) ⟨t.station n, t.attention, []⟩).att } : State) := (h.setStation n hst).quiet (by rfl) (by rfl)
  generalize ({ t.setStation n (f (t.env n) ⟨t.station n, t.attention, []⟩).st with
      attention := (f (t.env n) ⟨t.station n, t.attention, []⟩).att } : State) = u at h1
  clear he
  induction l generalizing u with
  | nil => exact h1
  | cons x xs ih =>
    refine ih (fun a ha => hl a (List.mem_cons_of_mem _ ha)) _ ?_
    cases x with
    | present a => exact h1.presentJob (hl a List.mem_cons_self)
    | jobEnd j r => exact h1.recordResult n j r

theorem atConnector (c : ConnectorNo) {f : Env → Ctx → Ctx} (hf : ∀ (e : Env) (c : Ctx), c.Runs (f e c)) :
    s.Moves J (t.atConnector c f) := by
  unfold State.atConnector
  split
  · exact h.withStation _ hf
  · exact h

/-! ## Pages (Chapter 9) -/

theorem entryReads (a : Area) (n : StationNo) (i : Nat) :
    s.Moves J (t.presentPage n [entryRead a n i]) := h.presentPage n (by simp [entryRead, Access.readOf, Purpose.resultOf])

theorem acquire : s.Moves J t.acquire := by
  unfold State.acquire
  split
  · exact ite (entryReads (h.quiet (by rfl) (by rfl)) _ _ _) h
  · exact h

theorem starve (n : StationNo) : s.Moves J (t.starve n) := by
  unfold State.starve
  have h1 : s.Moves J { t with acq := none } := h.quiet (by rfl) (by rfl)
  exact modStation (ite h1 (h1.setAttn _)) n (.ofFrame (by rfl))

theorem nextEntry (a : Area) (q : Acquisition) : s.Moves J (t.nextEntry a q) :=
  ite (h.starve _) (entryReads (h.quiet (by rfl) (by rfl)) _ _ _)

theorem takeEntry (a : Area) (q : Acquisition) (page : Word64) : s.Moves J (t.takeEntry a q page) := by
  have h1 : s.Moves J ({ t with acq := none, cursor := (q.index + 1) % a.entryCount
                                nextSerial := serialAfter t.nextSerial } : State) := by
    refine h.calm ⟨rfl, rfl, rfl, rfl, rfl, id, fun hs => ?_, id, fun x hx y hy => .inl ⟨x, hx, y, hy, rfl⟩⟩
    change 1 ≤ serialAfter t.nextSerial ∧ serialAfter t.nextSerial ≤ Config.max32
    unfold serialAfter
    split <;> omega
  refine presentPage (modStation h1 q.station ?_) q.station ?_
  · refine .single (.page (fun hb => ⟨fun p hp => ?_, fun r hr => ?_⟩) fun x hx => .inl hx)
    · obtain rfl := Option.some.inj hp
      simp
    · obtain ⟨p, -, hle⟩ := hb.2 r hr
      refine ⟨_, rfl, hle.trans ?_⟩
      simp [OpenPage.remainder]
  · simp [Access.writeOf, Purpose.resultOf]

theorem entryArrives (a : Area) (q : Acquisition) (data : List Byte) :
    s.Moves J (t.entryArrives a q data) := by
  refine ite (h.nextEntry a q) (ite (ite (h.takeEntry a q _) ?_) (h.nextEntry a q))
  exact nextEntry (setAttn (h.presentPage _ (by simp [Access.writeOf, Purpose.resultOf])) _) a q

theorem beginSeal (n : StationNo) (why : SealReason) : s.Moves J (t.beginSeal n why) :=
  h.modStation n (.sealStation ..)

omit h in
theorem staleWhen_acc (p : Purpose → Bool) (x : InFlight) :
    (x.staleWhen p).acc.purpose.resultOf = none ∨ (x.staleWhen p).acc = x.acc := by
  unfold InFlight.staleWhen
  split
  · exact .inl rfl
  · exact .inr rfl

theorem makeStale (p : Purpose → Bool) : s.Moves J (t.makeStale p) := by
  refine h.lose rfl (fun a ha => ?_)
  simp only [State.mem_accesses, State.makeStale, List.mem_map] at ha ⊢
  rcases ha with h | h | h | ⟨x, ⟨y, hy, rfl⟩, rfl⟩ | h
  · exact .inr (.inl h)
  · exact .inr (.inr (.inl h))
  · exact .inr (.inr (.inr (.inl h)))
  · rcases staleWhen_acc p y with hn | he
    · exact .inl hn
    · exact .inr (.inr (.inr (.inr (.inl ⟨y, hy, he.symm⟩))))
  · exact .inr (.inr (.inr (.inr (.inr h))))

theorem endAcquisition : s.Moves J t.endAcquisition := makeStale (h.quiet (by rfl) (by rfl)) _
theorem freezePages : s.Moves J t.freezePages := (h.mapStations Station.Steps.cutPage).endAcquisition

theorem quiesceCheck (n : StationNo) : s.Moves J (t.quiesceCheck n) :=
  ite (h.withStation n fun _ c => (Ctx.Runs.refl c).finishQuiesce _) h

theorem pageSealed (n : StationNo) : s.Moves J (t.pageSealed n) := by
  have h1 := (h.modStation n (f := fun u => { u with pg := { u.pg with
      page := none, sealing := none, inHand := none, mark := u.pg.mark.filter fun m => m.count != 0 } })
    (.single (.page (q := (t.station n).pageQ) (fun _ => ⟨fun p hp => by simp at hp, fun r hr => by simp at hr⟩)
      fun a ha => .inl ha))).setAttn .pageSealed
  exact ite (h1.withStation n fun _ c => (Ctx.Runs.refl c).finishQuiesce _) (h1.quiesceCheck n)

theorem detachedSealed (n : StationNo) : s.Moves J (t.detachedSealed n) :=
  (h.modStation n (.ofFrame (by rfl))).setAttn _

theorem dropAcquisition (n : StationNo) : s.Moves J (t.dropAcquisition n) := by
  unfold State.dropAcquisition
  split
  · exact ite (h.endAcquisition.modStation n (.filterQ _ _)) h
  · exact h

theorem abandonPage (n : StationNo) : s.Moves J (t.abandonPage n) := by
  have h1 := h.dropAcquisition n
  unfold State.abandonPage
  dsimp only
  split
  · exact h1.modStation n ((Station.Steps.cutPage _).trans (Station.Steps.sealStation ..))
  · refine h1.modStation n ?_
    have hd := (Station.Steps.cutPage ((t.dropAcquisition n).station n)).trans (Station.Steps.detachPage rfl)
    split
    · exact hd.trans (Station.Steps.sealDetached ..)
    · exact hd
  · exact h1.modStation n (Station.Steps.cutPage _)

/-! ## Sweeps and marks (R170, R173) -/

theorem readSlotState (a : Area) (i : Nat) : s.Moves J (t.readSlotState a i) :=
  presentSweep (h.quiet (by rfl) (by rfl)) rfl

theorem readSlotWhole (a : Area) (i : Nat) (o : Bool) : s.Moves J (t.readSlotWhole a i o) :=
  presentSweep (h.quiet (by rfl) (by rfl)) rfl

theorem beginSweep (first : Bool) : s.Moves J (t.beginSweep first) := by
  unfold State.beginSweep
  split
  · exact readSlotState (mapPages (h.quiet (by rfl) (by rfl)) fun _ => .ofFrame (by rfl)) _ _
  · exact h

theorem requestSweep (first : Bool) : s.Moves J (t.requestSweep first) := ite (h.beginSweep _) (h.quiet (by rfl) (by rfl))

theorem startSweepTimer : s.Moves J t.startSweepTimer := by
  unfold State.startSweepTimer
  split
  · exact h.quiet (by rfl) (by rfl)
  · exact h

theorem finishSweep : s.Moves J t.finishSweep := by
  have h1 : s.Moves J { t with sweep := { t.sweep with phase := .idle, pending := false } } := h.quiet (by rfl) (by rfl)
  exact ite (h1.beginSweep _) h1

theorem nextSlot (i : Nat) : s.Moves J (t.nextSlot i) := by
  unfold State.nextSlot
  split
  · exact ite (h.readSlotState _ _) h.finishSweep
  · exact h.finishSweep

omit h in
theorem orphanSweep_resultOf (p : Purpose) : p.orphanSweep.resultOf = p.resultOf := by
  cases p <;> rfl

theorem endSweeping : s.Moves J t.endSweeping := by
  refine calm (h.makeStale Purpose.isSlotState) ⟨rfl, rfl, rfl, rfl, rfl, id, id, id, fun a ha y hy => .inl ?_⟩
  simp only [State.mem_accesses, State.endSweeping, List.mem_filter, List.mem_map] at ha
  obtain ⟨b, hb, hby⟩ : ∃ b ∈ (t.makeStale Purpose.isSlotState).accesses, b.purpose.resultOf = some y := by
    simp only [State.mem_accesses]
    rcases ha with h | h | h | ⟨x, ⟨z, hz, rfl⟩, rfl⟩ | h
    · exact ⟨a, .inl h.1, hy⟩
    · exact ⟨a, .inr (.inl h), hy⟩
    · exact ⟨a, .inr (.inr (.inl h)), hy⟩
    · refine ⟨z.acc, .inr (.inr (.inr (.inl ⟨z, hz, rfl⟩))), ?_⟩
      rw [← hy]; exact (orphanSweep_resultOf _).symm
    · exact ⟨a, .inr (.inr (.inr (.inr h))), hy⟩
  exact ⟨b, hb, y, hby, rfl⟩

theorem markWriteFail {x : HeldJob} (hx : J x.jid) : s.Moves J (t.markWriteFail x) := by
  unfold State.markWriteFail
  split
  · exact h.modHeld _ (fun _ => by exact ⟨rfl, rfl⟩)
  · rename_i hj
    split
    · exact h
    · rename_i hslot
      exact h.tail (.rehold (h := { x with writeFail := true, doneIssued := true }) hx
        (by simpa using hj) (by simpa using hslot))

theorem markFailure {p : Purpose} (hp : ∀ x, p.resultOf = some x → J x.jid) :
    s.Moves J (t.markFailure p) := by
  unfold State.markFailure
  split
  · exact h.modHeld _ (fun _ => by exact ⟨rfl, rfl⟩)
  · exact h.markWriteFail (hp _ (by assumption))
  · exact h.modHeld _ (fun _ => by exact ⟨rfl, rfl⟩)
  · exact h

theorem withdraw (j : Nat) : s.Moves J (t.withdraw j) := by
  refine h.lose rfl (fun a ha => .inr ?_)
  simp only [State.mem_accesses, State.withdraw, List.mem_filter] at ha ⊢
  exact ha.imp_right (Or.imp_left And.left)

theorem foldPopHead (j : Nat) (l : List StationNo) :
    s.Moves J (l.foldl (fun s n => s.modStation n (popHead j)) t) := by
  induction l generalizing t with
  | nil => exact h
  | cons n ns ih => exact ih (h.modStation n (.popHead ..))

theorem endMemory (x : HeldJob) : s.Moves J (t.endMemory x) := by
  unfold State.endMemory
  exact ite h (((h.withdraw _).foldPopHead _ _).modHeld _ (fun _ => by exact ⟨rfl, rfl⟩) |>.finishJob _)

theorem retryWrites (x : HeldJob) : s.Moves J (t.retryWrites x) := by
  unfold State.retryWrites
  exact ite (((h.withdraw _).modHeld _ (fun _ => by exact ⟨rfl, rfl⟩)).presentSweep rfl)
    (ite (((h.withdraw _).modHeld _ (fun _ => by exact ⟨rfl, rfl⟩)).presentResult _) h)

theorem foldHeld {g : State → HeldJob → State} (hg : ∀ u x, s.Moves J u → s.Moves J (g u x))
    (l : List HeldJob) : s.Moves J (l.foldl g t) := by
  induction l generalizing t with
  | nil => exact h
  | cons x xs ih => exact ih (hg t x h)

theorem dealMarks : s.Moves J t.dealMarks :=
  (h.foldHeld (fun _ x hu => hu.endMemory x) _).foldHeld (fun _ x hu => hu.retryWrites x) _

theorem forgetMarks : s.Moves J t.forgetMarks := by
  refine h.tail (.held ?_)
  rw [List.map_map]
  refine (List.Sublist.refl _).trans (List.map_congr_left (fun x _ => ?_) ▸ List.Sublist.refl _)
  simp only [Function.comp]
  split <;> rfl

/-! ## Starts, halts, faults and resumptions (Chapter 10) -/

theorem failStart (why : StartCheck) : s.Moves J (t.failStart why) := setAttn (h.quiet (by rfl) (by rfl)) _

theorem beginStart : s.Moves J t.beginStart := ite (presentSweep (h.quiet (by rfl) (by rfl)) rfl) (h.failStart _)

theorem descriptorArrives (base : Word64) (data : List Byte) : s.Moves J (t.descriptorArrives base data) := by
  unfold State.descriptorArrives
  split
  · exact presentSweep (h.quiet (by rfl) (by rfl)) rfl
  · exact h.failStart _

theorem quiesceAll : s.Moves J t.quiesceAll := h.eachStation fun _ n hu => hu.quiesceCheck n

theorem acceptStart (a : Area) : s.Moves J (t.acceptStart a) := by
  have h1 : s.Moves J { t with area := some a, startCheck := .ok, cursor := 0, runState := .running, start := .none } :=
    h.quiet (by rfl) (by rfl)
  unfold State.acceptStart
  exact quiesceAll (requestSweep (startSweepTimer (ite (dealMarks (h1.quiet (by rfl) (by rfl))) h1.forgetMarks)) _)

theorem dropStart : s.Moves J t.dropStart := by
  refine lose (h.makeStale Purpose.isStart) rfl (fun a ha => .inr ?_)
  simp only [State.mem_accesses, State.dropStart, List.mem_filter] at ha ⊢
  exact ha.imp_left And.left

theorem finishHalt : s.Moves J t.finishHalt := by
  have h1 : s.Moves J { t with runState := .stopped, halting := false } := h.quiet (by rfl) (by rfl)
  exact ite h1.beginStart h1

theorem beginHalt : s.Moves J t.beginHalt := by
  have h1 := h.endSweeping.freezePages.mapPages (f := fun g => { g with starved := false, episode := false })
    fun _ => .ofFrame (by rfl)
  have h2 := h1.eachStation (g := fun u n => u.beginSeal n .halt) fun _ n hu => hu.beginSeal n _
  unfold State.beginHalt
  dsimp only
  generalize State.eachStation _ _ = u at h2 ⊢
  have h3 : s.Moves J { u with halting := true } := h2.quiet (by rfl) (by rfl)
  exact ite h3 h3.finishHalt

theorem dropSeals : s.Moves J t.dropSeals := (h.mapStations Station.Steps.cutPage).quiet (by rfl) (by rfl)

theorem hostFault (a : Access) : s.Moves J (t.hostFault a) := by
  have h1 : s.Moves J (({ t with faultAddr := a.addr, faultClass := a.cls.fault
                                 faultStation := a.station.getD 0 } : State).setAttn .hostMemoryFault) :=
    setAttn (h.quiet (by rfl) (by rfl)) _
  unfold State.hostFault
  refine ite h ?_
  dsimp only
  split
  · exact h1.dropSeals
  · exact quiet h1.endSweeping.freezePages (by rfl) (by rfl)
  · exact quiet h1.dropStart (by rfl) (by rfl)

theorem failAccess {a : Access} (ha : ∀ x, a.purpose.resultOf = some x → J x.jid) :
    s.Moves J (t.failAccess a) := (h.hostFault a).markFailure ha

theorem finishResume : s.Moves J t.finishResume :=
  quiesceAll (requestSweep (startSweepTimer (quiet h.dealMarks (by rfl) (by rfl))) _)

theorem takeResume : s.Moves J t.takeResume := by
  have h2 := h.eachStation (g := fun u n => (u.beginSeal n .fault).modStation n (sealDetached n))
    fun _ n hu => (hu.beginSeal n _).modStation n (.sealDetached ..)
  unfold State.takeResume
  generalize State.eachStation _ _ = u at h2 ⊢
  have h3 : s.Moves J { u with resuming := true } := h2.quiet (by rfl) (by rfl)
  exact ite (h.quiet (by rfl) (by rfl)) (ite h (ite h3 h3.finishResume))

theorem leaveFaulted : s.Moves J t.leaveFaulted := (h.mapStations Station.Steps.forgetPage).quiet (by rfl) (by rfl)

theorem clearRun : s.Moves J t.clearRun := by
  have h1 : s.Moves J { t with run := false } := h.quiet (by rfl) (by rfl)
  unfold State.clearRun
  dsimp only
  split
  · exact ite h1 h1.beginHalt
  · exact h1.leaveFaulted
  · exact ite h1 (quiet h1.dropStart (by rfl) (by rfl))

theorem setRun : s.Moves J t.setRun := by
  have h1 : s.Moves J { t with run := true } := h.quiet (by rfl) (by rfl)
  unfold State.setRun
  dsimp only
  split
  · exact ite h1.beginStart h1
  · exact h1
  · exact beginStart (quiet h1.leaveFaulted (by rfl) (by rfl))

theorem writeControl (v : Word32) : s.Moves J (t.writeControl v) := by
  have h1 : s.Moves J { t with attMask := maskOf v } := h.quiet (by rfl) (by rfl)
  have h2 := h1.ite (p := regBit v 0 = t.run) (h1.setRun.ite (p := regBit v 0 = true) h1.clearRun)
  unfold State.writeControl
  exact ite h2.takeResume h2

/-! ## The host-memory port (R160 to R163) -/

/-- An access that waits is issued (R160). -/
theorem issue {a : Access} (ha : a ∈ t.accesses) :
    s.Moves J { t with hmp := (t.hmp.granted a).issue a t.elapsed } := by
  have hburst : t.hmp.burst ≤ 3 → ((t.hmp.granted a).issue a t.elapsed).burst ≤ 3 := by
    unfold HostPort.issue HostPort.granted
    intro hb
    split <;> split <;> simp <;> omega
  have hacc : ∀ b ∈ ({ t with hmp := (t.hmp.granted a).issue a t.elapsed } : State).accesses, b ∈ t.accesses := by
    have hg : (t.hmp.granted a).sweepQ = t.hmp.sweepQ ∧ (t.hmp.granted a).jobQ = t.hmp.jobQ
        ∧ (t.hmp.granted a).inFlight = t.hmp.inFlight ∧ (t.hmp.granted a).writes = t.hmp.writes := by
      unfold HostPort.granted
      split <;> exact ⟨rfl, rfl, rfl, rfl⟩
    obtain ⟨h1, h2, h3, h4⟩ := hg
    intro b hb
    by_cases hab : b = a
    · exact hab ▸ ha
    have hne : a ≠ b := fun e => hab e.symm
    simp only [State.mem_accesses, HostPort.issue] at hb ⊢
    split at hb <;> simpa [h1, h2, h3, h4, or_and_right, exists_or, hne] using hb
  exact h.calm ⟨rfl, rfl, rfl, rfl, rfl, id, id, hburst, fun b hb x hx => .inl ⟨b, hacc b hb, x, hx, rfl⟩⟩

theorem dequeue (a : Access) : s.Moves J (t.dequeue a) := by
  unfold State.dequeue
  split
  · refine h.lose rfl (fun b hb => .inr ?_)
    simp only [State.mem_accesses] at hb ⊢
    exact hb.imp_left List.mem_of_mem_erase
  · refine h.lose rfl (fun b hb => .inr ?_)
    simp only [State.mem_accesses] at hb ⊢
    exact hb.imp_right (Or.imp_left List.mem_of_mem_erase)
  · exact h.modStation _ (.single (.page (g := (t.station _).pg) id fun b hb => .inl (List.mem_of_mem_erase hb)))
  · exact h

theorem takenIssued (j : Nat) : s.Moves J (t.takenIssued j) := (h.modHeld j (fun _ => by exact ⟨rfl, rfl⟩)).presentResult j

theorem doneIssued (x : HeldJob) : s.Moves J (t.doneIssued x) := by
  have h1 : s.Moves J (t.releaseHeld x.jid) := h.tail (.held (List.filter_sublist.map _))
  exact ite (h1.setAttn _) h1

theorem issueEffect (a : Access) : s.Moves J (t.issueEffect a) := by
  unfold State.issueEffect
  split
  · exact h.acceptStart _
  · exact h.takenIssued _
  · exact h.doneIssued _
  · exact h.withStation _ fun e c => (Ctx.Runs.refl c).removeRecord e
  · exact h.detachedSealed _
  · exact h.pageSealed _
  · exact h

theorem settleSeals : s.Moves J t.settleSeals := ite h (ite h.finishHalt (ite h.finishResume h))

omit h in
/-- Leaving the queue and joining the issued accesses may be taken in either order. -/
theorem issue_dequeue (s : State) (a : Access) :
    ({ s.dequeue a with hmp := ((s.dequeue a).hmp.granted a).issue a (s.dequeue a).elapsed } : State)
      = ({ s with hmp := (s.hmp.granted a).issue a s.elapsed } : State).dequeue a := by
  obtain ⟨cls, station, addr, len, data, purpose⟩ := a
  cases cls <;> cases station <;> cases data <;> rfl

theorem grant {a : Access} (ha : a ∈ t.accesses) : s.Moves J (t.grant a) := by
  have h1 := (h.issue ha).dequeue a
  rw [← issue_dequeue] at h1
  exact (h1.issueEffect a).settleSeals

omit h in
theorem nextGrant_mem {a : Access} (hg : t.nextGrant = some a) : a ∈ t.accesses := by
  rw [State.mem_accesses]
  unfold State.nextGrant at hg
  split at hg
  · exact .inl (List.mem_of_find?_eq_some hg)
  · exact .inr (.inl (List.mem_of_find?_eq_some hg))
  · obtain ⟨n, -, hn⟩ := Option.bind_eq_some_iff.mp hg
    exact .inr (.inr (.inl ⟨n, List.mem_of_find?_eq_some hn⟩))
  · cases hg

theorem arbitrate : s.Moves J t.arbitrate := by
  unfold State.arbitrate
  split
  · exact h.grant (nextGrant_mem ‹_›)
  · exact h

theorem endRead (id : Nat) : s.Moves J (t.endRead id) := by
  refine h.lose rfl (fun a ha => .inr ?_)
  simp only [State.mem_accesses, State.endRead, List.mem_filter] at ha ⊢
  rcases ha with h | h | h | ⟨x, hx, rfl⟩ | h
  · exact .inl h
  · exact .inr (.inl h)
  · exact .inr (.inr (.inl h))
  · exact .inr (.inr (.inr (.inl ⟨x, hx.1, rfl⟩)))
  · exact .inr (.inr (.inr (.inr h)))

theorem completeRead (id len : Nat) {f : Access → State → Option State}
    (hf : ∀ a u, f a (t.endRead id) = some u → s.Moves J u) : s.Moves J (t.completeRead id len f) := by
  unfold State.completeRead
  split
  · refine ite (ite (h.endRead id) (ite ?_ h)) h
    cases hr : f _ (t.endRead id) with
    | none => exact h
    | some u => exact hf _ u hr
  · exact h

omit h in
theorem readInFlight_writesOf {id : Nat} {x : InFlight} (hx : t.readInFlight id = some x) (y : HeldJob)
    (hy : x.acc.purpose.resultOf = some y) : t.writesOf y.jid :=
  ⟨x.acc, State.mem_accesses.mpr (.inr (.inr (.inr (.inl ⟨x, List.mem_of_find?_eq_some hx, rfl⟩)))), y, hy, rfl⟩

theorem errorCompletion (hJ : ∀ j, t.writesOf j → J j) (id : Nat) : s.Moves J (t.errorCompletion id) := by
  unfold State.errorCompletion
  split
  · rename_i x hx
    exact ite ((h.endRead id).failAccess fun y hy => hJ _ (readInFlight_writesOf hx y hy)) h
  · split
    · rename_i w hw
      have hmem := List.mem_of_find?_eq_some hw
      refine failAccess (h.lose (by rfl) (fun a ha => .inr ?_)) fun y hy => hJ _
        ⟨w.acc, State.mem_accesses.mpr (.inr (.inr (.inr (.inr ⟨w, hmem, rfl⟩)))), y, hy, rfl⟩
      simp only [State.mem_accesses, List.mem_map] at ha ⊢
      rcases ha with h | h | h | h | ⟨z, ⟨z', hz', rfl⟩, rfl⟩
      · exact .inl h
      · exact .inr (.inl h)
      · exact .inr (.inr (.inl h))
      · exact .inr (.inr (.inr (.inl h)))
      · refine .inr (.inr (.inr (.inr ⟨z', hz', ?_⟩)))
        unfold IssuedWrite.failWhen; split <;> rfl
    · exact h

theorem readTimesOut (hJ : ∀ j, t.writesOf j → J j) (id : Nat) : s.Moves J (t.readTimesOut id) := by
  unfold State.readTimesOut
  split
  · rename_i x hx
    exact ite ((h.endRead id).failAccess fun y hy => hJ _ (readInFlight_writesOf hx y hy)) h
  · exact h

/-! ## Jobs at the slot read (R174 to R180) -/

section
variable {slot : Word64} (hslot : t.holdsSlot slot = false)
include hslot

theorem hold (v : SlotView) (rs : Vector (Option Res) 8) (own : Option Res) (tk : TakenState) :
    s.Moves J (t.hold slot v rs own tk) := h.tail (.hold rfl hslot)

theorem endAtOnce (v : SlotView) (rs : Vector (Option Res) 8) (r : Res) :
    s.Moves J (t.endAtOnce slot v rs r) := (h.hold hslot v rs _ _).finishJob _

end

theorem dropPayloads (n : StationNo) : s.Moves J (t.dropPayloads n) := by
  refine lose (h.makeStale (Purpose.isPayloadOf n)) rfl (fun a ha => .inr ?_)
  simp only [State.mem_accesses, State.dropPayloads, List.mem_filter] at ha ⊢
  exact ha.imp_right (Or.imp_left And.left)

theorem doAt (j : Job) (v : SlotView) (jid : Nat) (n : StationNo) : s.Moves J (j.doAt v jid t n).1 := by
  cases j with
  | enable => exact h.withStation n fun e c => (Ctx.Runs.refl c).enableStation e
  | abandon =>
    exact ((h.abandonPage n).dropPayloads n).withStation n fun e c => (Ctx.Runs.refl c).abandonStation e
  | status buf => exact h.presentJob rfl
  | mark value => exact h.withStation n fun e c => (Ctx.Runs.refl c).offerRec e _
  | captureStop post => exact h.withStation n fun _ c => (Ctx.Runs.refl c).capOut (.stop ..)
  | disarm => exact h.modStation n (Station.Steps.disarmStation _)
  | flush => exact h.modStation n (f := fun u => u.sealRequest .flush) (Station.Steps.sealRequest ..)
  | _ => exact h

theorem immediateAt (jid : Nat) (j : Job) {f : State → StationNo → Done}
    (hf : ∀ u n, s.Moves J u → s.Moves J (f u n).1) (n : StationNo) : s.Moves J (t.immediateAt jid j f n) := by
  unfold State.immediateAt
  split
  · exact h.recordResult ..
  · exact (hf t n h).recordResult ..

theorem immediate {slot : Word64} (hslot : t.holdsSlot slot = false) (v : SlotView) (j : Job) :
    s.Moves J (t.immediate slot v j (j.doAt v)) := by
  unfold State.immediate
  have h1 := h.hold hslot v noResults none .notNeeded
  generalize t.hold slot v noResults none .notNeeded = u at h1
  generalize maskStations v.header.mask = l
  induction l generalizing u with
  | nil => exact h1
  | cons n ns ih => exact ih _ (h1.immediateAt _ _ (fun _ _ hu => hu.doAt ..) n)

/-- A job joins the queues of different stations that have room (R176). -/
theorem foldJoin (q : QJob) (l : List StationNo) (hl : l.Nodup) (hq : q.jid < t.nextJid)
    (hroom : ∀ n ∈ l, (t.station n).queue.length < Config.maxQueue) :
    s.Moves J (l.foldl (fun s n => s.modStation n (joinQueue q)) t) := by
  induction l generalizing t with
  | nil => exact h
  | cons n ns ih =>
    rw [List.nodup_cons] at hl
    refine ih (h.tail (.join n hq (hroom n List.mem_cons_self))) hl.2 hq fun m hm => ?_
    have hne : m ≠ n := fun e => hl.1 (e ▸ hm)
    change ((t.setStation n _).station m).queue.length < _
    rw [State.setStation_other _ _ hne]
    exact hroom m (List.mem_cons_of_mem _ hm)

theorem takeQueued {slot : Word64} (hslot : t.holdsSlot slot = false) (v : SlotView) (j : Job) :
    s.Moves J (t.takeQueued slot v j) := by
  unfold State.takeQueued
  dsimp only
  split
  · exact (h.hold hslot ..).finishJob _
  · split
    · exact h.quiet (by rfl) (by rfl)
    · rename_i hfree
      refine presentSweep (foldJoin (h.hold hslot ..) _ _ ((maskStations_nodup _).filter _)
        (Nat.lt_succ_self _) fun n hn => ?_) rfl
      rw [Bool.not_eq_true, List.any_eq_false] at hfree
      have := hfree n hn
      simp only [Bool.or_eq_true, decide_eq_true_eq, not_or, Nat.not_le] at this
      exact this.2

omit h in
/-- Eight different connector numbers make a map without repeats (R41). -/
theorem stationMap_nodup {cs : List Byte} (hok : (Job.stationMap cs).fieldsOk = true) :
    (Vector.ofFn fun n : Fin 8 =>
      (⟨(cs.getD n.val 0).toNat % 8, Nat.mod_lt _ (by decide)⟩ : ConnectorNo)).toList.Nodup := by
  simp only [Job.fieldsOk, Bool.and_eq_true, beq_iff_eq, List.all_eq_true, decide_eq_true_eq] at hok
  obtain ⟨⟨hlen, hle⟩, hnd⟩ := hok
  rw [Vector.toList_ofFn, List.nodup_ofFn]
  intro m n hmn
  have hget : ∀ i : Fin 8, cs.getD i.val 0 = cs[i.val]'(by omega) := fun i => by
    rw [List.getD_eq_getElem _ _ (by omega)]
  have hsmall : ∀ i : Fin 8, (cs[i.val]'(by omega)).toNat ≤ 7 := fun i => hle _ (List.getElem_mem _)
  simp only [hget, Fin.mk.injEq] at hmn
  have := hsmall m
  have := hsmall n
  have he : cs[m.val]'(by omega) = cs[n.val]'(by omega) := BitVec.eq_of_toNat_eq (by omega)
  exact Fin.ext ((hnd.getElem_inj_iff).mp he)

/-- A device job but an immediate load. -/
theorem device {j : Job} (hok : j.fieldsOk = true) (hj : ∀ p, j ≠ .timeLoadImmediate p) :
    s.Moves J (j.device t).1 ∧ (j.device t).1.held = t.held := by
  unfold Job.device
  split
  · exact absurd rfl (hj _)
  · exact ⟨h.quiet (by rfl) (by rfl), rfl⟩
  · split
    · exact ⟨h.calm ⟨rfl, rfl, rfl, rfl, rfl, fun _ => stationMap_nodup hok, id, id,
        fun a ha y hy => .inl ⟨a, ha, y, hy, rfl⟩⟩, rfl⟩
    · exact ⟨h, rfl⟩
  · exact ⟨h, rfl⟩

theorem runJob {slot : Word64} (hslot : t.holdsSlot slot = false) (v : SlotView) {j : Job}
    (hok : j.fieldsOk = true) (hj : ∀ p, j ≠ .timeLoadImmediate p) : s.Moves J (t.runJob slot v j) := by
  unfold State.runJob
  split
  · exact h.immediate hslot v j
  · exact h.takeQueued hslot v j
  · obtain ⟨h1, hheld⟩ := h.device hok hj
    exact h1.endAtOnce (by rw [State.holdsSlot, hheld]; exact hslot) ..

end State.Moves

/-! ## What a command gives -/

/-- Read `id` returned a slot that holds an immediate load of `p`, typed or as its bytes. -/
def Instr.loads (i : Instr) (p : Word64) : Prop :=
  (∃ id h, i = .timeLoadImmediate id h p)
    ∨ ∃ id d, i = .slotReadDone id d ∧ (slotView d).job = .job (.timeLoadImmediate p)

/-- What a command gives: steps of the device, the same after a time load has taken effect, or a reset. -/
inductive Instr.Gives (i : Instr) (s : State) : State → Prop where
  | moves {t : State} : s.Moves s.writesOf t → Gives i s t
  | syncEdge {p : Tick} : i = .syncEdge → s.pendingLoad = some p → Gives i s (s.loadTime p)
  | timeLoad {p : Word64} {t : State} : Instr.loads i p → p.toNat < 2 ^ 48 →
      (s.loadTime (p.setWidth 48)).Moves s.writesOf t → Gives i s t
  | powerReset (lines : BitVec 4) : i = .powerOnReset lines → Gives i s (s.powerReset lines)
  | softReset (lines : BitVec 4) : Gives i s (s.takeSoftReset lines)

section
variable {i : Instr} {s : State}

theorem takeControl_gives (v : Word32) (lines : BitVec 4) : Instr.Gives i s (s.takeControl v lines) := by
  unfold State.takeControl
  split
  · exact .softReset lines
  · exact .moves (State.Moves.writeControl .refl v)

/-- What the arrival of a slot gives: steps, after the load where it holds an immediate load. -/
theorem slotArrives_gives {J : Nat → Prop} {v : SlotView} {a : Access} {t : State}
    (h : s.slotArrives v a = some t) : s.Moves J t ∨ ∃ p, v.job = .job (.timeLoadImmediate p)
      ∧ p.toNat < 2 ^ 48 ∧ (s.loadTime (p.setWidth 48)).Moves J t := by
  unfold State.slotArrives at h
  split at h
  · rename_i i slot orphan live _
    obtain rfl := Option.some.inj h
    have hnext : ∀ {u w : State}, u.Moves J w → u.Moves J (if live = true then w.nextSlot i else w) :=
      fun hw => (hw.nextSlot i).ite hw
    by_cases hskip : v.state ≠ (if orphan then 2 else 1) ∨ s.holdsSlot slot = true
    · simp only [if_pos hskip]
      exact .inl (hnext .refl)
    · simp only [if_neg hskip]
      have hslot : s.holdsSlot slot = false := by simpa using (not_or.mp hskip).2
      have hend := fun rs r => State.Moves.endAtOnce (J := J) (s := s) .refl hslot v rs r
      cases orphan
      · simp only [Bool.false_eq_true, if_false]
        unfold State.handlePosted
        cases hj : v.job with
        | badKind => exact .inl (hnext (hend ..))
        | refused => exact .inl (hnext (hend ..))
        | job j =>
          by_cases hok : (v.maskOk && j.fieldsOk) = true
          · simp only [if_pos hok]
            have hfields : j.fieldsOk = true := (Bool.and_eq_true _ _ ▸ hok).2
            by_cases hload : ∃ p, j = .timeLoadImmediate p
            · obtain ⟨p, rfl⟩ := hload
              refine .inr ⟨p, rfl, by simpa [Job.fieldsOk] using hfields, hnext ?_⟩
              exact State.Moves.endAtOnce (t := s.loadTime (p.setWidth 48)) .refl hslot ..
            · exact .inl (hnext (State.Moves.runJob .refl hslot v hfields (not_exists.mp hload)))
          · simp only [if_neg hok]
            exact .inl (hnext (hend ..))
      · exact .inl (hnext (hend ..))
  · cases h

/-- What the arrival of a slot's state brings. -/
theorem slotStateArrives_moves {J : Nat → Prop} {data : List Byte} {a : Access} {t : State}
    (h : s.slotStateArrives data a = some t) : s.Moves J t := by
  unfold State.slotStateArrives at h
  split at h
  · dsimp only at h
    split at h
    · obtain rfl := Option.some.inj h
      exact State.Moves.readSlotWhole .refl ..
    · split at h <;> obtain rfl := Option.some.inj h
      · exact State.Moves.readSlotWhole .refl ..
      · exact State.Moves.nextSlot .refl _
  · cases h

theorem slotRead_gives {v : SlotView} (id len : Nat)
    (hv : ∀ p, v.job = .job (.timeLoadImmediate p) → Instr.loads i p) :
    Instr.Gives i s (s.completeRead id len fun a s => s.slotArrives v a) := by
  have hend : s.Moves s.writesOf (s.endRead id) := State.Moves.endRead .refl id
  unfold State.completeRead
  split
  · rename_i x _
    split
    · split
      · exact .moves hend
      · split
        · dsimp only
          cases ha : (s.endRead id).slotArrives v x.acc with
          | none => exact .moves .refl
          | some t =>
            rcases slotArrives_gives (J := s.writesOf) ha with hm | ⟨p, hj, hp, hm⟩
            · exact .moves (hend.trans hm)
            · have hload : (s.loadTime (p.setWidth 48)).Moves s.writesOf
                  ((s.loadTime (p.setWidth 48)).endRead id) := State.Moves.endRead .refl id
              exact .timeLoad (hv p hj) hp (hload.trans hm)
        · exact .moves .refl
    · exact .moves .refl
  · exact .moves .refl

theorem jobArrives_gives (id : Nat) (h : JobHeader) (j : Job)
    (hj : ∀ p, j = .timeLoadImmediate p → Instr.loads i p) : Instr.Gives i s (s.jobArrives id h j) :=
  slotRead_gives id 128 fun p hp => hj p (SlotJob.job.inj hp)

theorem withStation_gives (n : StationNo) {f : Env → Ctx → Ctx} (hf : ∀ (e : Env) (c : Ctx), c.Runs (f e c)) :
    Instr.Gives i s (s.withStation n f) := .moves (State.Moves.withStation .refl n hf)

theorem atConnector_gives (p : ConnectorNo) {f : Env → Ctx → Ctx}
    (hf : ∀ (e : Env) (c : Ctx), c.Runs (f e c)) : Instr.Gives i s (s.atConnector p f) :=
  .moves (State.Moves.atConnector .refl p hf)

theorem whenDue_gives (n : StationNo) (timer : PowerUnit → Option Nat) {f : Env → Ctx → Ctx}
    (hf : ∀ (e : Env) (c : Ctx), c.Runs (f e c)) : Instr.Gives i s (s.withStation n (whenDue timer f)) :=
  withStation_gives n fun e c => (hf e c).ite (.refl c)

theorem payloadArrives_moves {J : Nat → Prop} {t : State} (h : s.Moves J t) (jid : Nat) (n : StationNo)
    {f : Env → Ctx → Ctx} (hf : ∀ (e : Env) (c : Ctx), c.Runs (f e c)) :
    s.Moves J (t.payloadArrives jid n f) := (h.withStation n hf).ite h

/-- A read that returns and what its data does. -/
theorem completeRead_gives (id len : Nat) {f : Access → State → Option State}
    (hf : ∀ a u, f a (s.endRead id) = some u → (s.endRead id).Moves s.writesOf u) :
    Instr.Gives i s (s.completeRead id len f) :=
  .moves (State.Moves.completeRead .refl id len fun a u hu =>
    (State.Moves.endRead .refl id).trans (hf a u hu))

end

/-- Every command answers a next state, which is what `Instr.Gives` says of it. -/
theorem exec_gives (i : Instr) (s : State) : ∃ t, exec i s = .next t ∧ Instr.Gives i s t := by
  cases i with
  | powerOnReset lines => exact ⟨_, rfl, .powerReset lines rfl⟩
  | softReset v lines => exact ⟨_, rfl, takeControl_gives v lines⟩
  | attentionMaskWrite v => exact ⟨_, rfl, takeControl_gives v s.lines⟩
  | start v => exact ⟨_, rfl, takeControl_gives v s.lines⟩
  | halt v => exact ⟨_, rfl, takeControl_gives v s.lines⟩
  | resume v => exact ⟨_, rfl, takeControl_gives v s.lines⟩
  | wake v => exact ⟨_, rfl, .moves (State.Moves.ite (State.Moves.requestSweep .refl _) .refl)⟩
  | attentionClear v => exact ⟨_, rfl, .moves (State.Moves.quiet .refl (by rfl) (by rfl))⟩
  | registerWrite r v => cases r <;> exact ⟨_, rfl, .moves (State.Moves.quiet .refl (by rfl) (by rfl))⟩
  | descriptorReadDone id data =>
    refine ⟨_, rfl, completeRead_gives id _ fun a u hu => ?_⟩
    obtain ⟨-, rfl⟩ := Option.ite_some_none_eq_some.mp hu
    exact State.Moves.descriptorArrives .refl ..
  | accessGrant => exact ⟨_, rfl, .moves (State.Moves.arbitrate .refl)⟩
  | errorCompletion id => exact ⟨_, rfl, .moves (State.Moves.errorCompletion .refl (fun _ h => h) id)⟩
  | readTimeout id => exact ⟨_, rfl, .moves (State.Moves.readTimesOut .refl (fun _ h => h) id)⟩
  | sweepTimerExpiry =>
    exact ⟨_, rfl, .moves (State.Moves.ite (State.Moves.requestSweep (State.Moves.startSweepTimer .refl) _) .refl)⟩
  | slotStateReadDone id data =>
    refine ⟨_, rfl, completeRead_gives id _ fun a u hu => ?_⟩
    exact slotStateArrives_moves hu
  | slotReadDone id data =>
    exact ⟨_, rfl, slotRead_gives id _ fun p hp => .inr ⟨id, data, rfl, hp⟩⟩
  | enable id h => exact ⟨_, rfl, jobArrives_gives id h .enable nofun⟩
  | abandon id h => exact ⟨_, rfl, jobArrives_gives id h .abandon nofun⟩
  | status id h buf => exact ⟨_, rfl, jobArrives_gives id h (.status buf) nofun⟩
  | mark id h value => exact ⟨_, rfl, jobArrives_gives id h (.mark value) nofun⟩
  | captureStop id h post => exact ⟨_, rfl, jobArrives_gives id h (.captureStop post.toNat) nofun⟩
  | disarm id h => exact ⟨_, rfl, jobArrives_gives id h .disarm nofun⟩
  | flush id h => exact ⟨_, rfl, jobArrives_gives id h .flush nofun⟩
  | timeLoadOnSync id h preset => exact ⟨_, rfl, jobArrives_gives id h (.timeLoadOnSync preset) nofun⟩
  | stationMap id h cs => exact ⟨_, rfl, jobArrives_gives id h (.stationMap cs) nofun⟩
  | timeLoadImmediate id h preset =>
    exact ⟨_, rfl, jobArrives_gives id h (.timeLoadImmediate preset) fun p hp =>
      .inl ⟨id, h, by rw [Job.timeLoadImmediate.inj hp]⟩⟩
  | configure n =>
    refine ⟨_, rfl, withStation_gives n fun e c => ?_⟩
    split
    · exact (Ctx.Runs.refl c).gated _ ((Ctx.Runs.refl c).configureJob e _)
    · exact .refl c
  | park n =>
    refine ⟨_, rfl, withStation_gives n fun e c => ?_⟩
    split
    · exact (Ctx.Runs.refl c).gated _ ((Ctx.Runs.refl c).parkJob e)
    · exact .refl c
  | unpark n =>
    refine ⟨_, rfl, withStation_gives n fun e c => ?_⟩
    split
    · exact (Ctx.Runs.refl c).gated _ ((Ctx.Runs.refl c).unparkJob e)
    · exact .refl c
  | powerOn n =>
    refine ⟨_, rfl, withStation_gives n fun e c => ?_⟩
    split
    · exact (Ctx.Runs.refl c).gated _ ((Ctx.Runs.refl c).powerOnJob e)
    · exact .refl c
  | powerOff n =>
    refine ⟨_, rfl, withStation_gives n fun e c => ?_⟩
    split
    · exact (Ctx.Runs.refl c).gated _ ((Ctx.Runs.refl c).powerOffJob e)
    · exact .refl c
  | setMode n =>
    refine ⟨_, rfl, withStation_gives n fun e c => ?_⟩
    split
    · exact (Ctx.Runs.refl c).gated _ ((Ctx.Runs.refl c).setModeJob e _)
    · exact .refl c
  | resetPulse n =>
    refine ⟨_, rfl, withStation_gives n fun e c => ?_⟩
    split
    · exact (Ctx.Runs.refl c).gated _ ((Ctx.Runs.refl c).resetPulseJob e _)
    · exact .refl c
  | resetHold n =>
    refine ⟨_, rfl, withStation_gives n fun e c => ?_⟩
    split
    · exact (Ctx.Runs.refl c).gated _ ((Ctx.Runs.refl c).resetHoldJob e)
    · exact .refl c
  | resetRelease n =>
    refine ⟨_, rfl, withStation_gives n fun e c => ?_⟩
    split
    · exact (Ctx.Runs.refl c).gated _ ((Ctx.Runs.refl c).resetReleaseJob e)
    · exact .refl c
  | read n =>
    refine ⟨_, rfl, withStation_gives n fun e c => ?_⟩
    split
    · exact (Ctx.Runs.refl c).gated _ ((Ctx.Runs.refl c).startAccess e _)
    · exact .refl c
  | writeInline n =>
    refine ⟨_, rfl, withStation_gives n fun e c => ?_⟩
    split
    · exact (Ctx.Runs.refl c).gated _ ((Ctx.Runs.refl c).startAccess e _)
    · exact .refl c
  | writeBuffer n =>
    refine ⟨_, rfl, withStation_gives n fun e c => ?_⟩
    split
    · exact (Ctx.Runs.refl c).gated _ ((Ctx.Runs.refl c).writeBufferJob e _ _)
    · exact .refl c
  | blockRead n =>
    refine ⟨_, rfl, withStation_gives n fun e c => ?_⟩
    split
    · exact (Ctx.Runs.refl c).gated _ ((Ctx.Runs.refl c).startAccess e _)
    · exact .refl c
  | boardControl n =>
    refine ⟨_, rfl, withStation_gives n fun e c => ?_⟩
    split
    · exact (Ctx.Runs.refl c).gated _ ((Ctx.Runs.refl c).startAccess e _)
    · exact .refl c
  | ping n =>
    refine ⟨_, rfl, withStation_gives n fun e c => ?_⟩
    split
    · exact (Ctx.Runs.refl c).gated _ ((Ctx.Runs.refl c).startAccess e _)
    · exact .refl c
  | consoleSend n =>
    refine ⟨_, rfl, withStation_gives n fun e c => ?_⟩
    split
    · exact (Ctx.Runs.refl c).gated _ ((Ctx.Runs.refl c).sendConsole e _ _)
    · exact .refl c
  | arm n =>
    refine ⟨_, rfl, withStation_gives n fun e c => ?_⟩
    split
    · exact (Ctx.Runs.refl c).gated _ ((Ctx.Runs.refl c).armJob e _)
    · exact .refl c
  | captureStartImmediate n =>
    refine ⟨_, rfl, withStation_gives n fun e c => ?_⟩
    split
    · exact (Ctx.Runs.refl c).gated _ ((Ctx.Runs.refl c).captureImmediateJob e)
    · exact .refl c
  | captureStartTriggered n =>
    refine ⟨_, rfl, withStation_gives n fun e c => ?_⟩
    split
    · exact (Ctx.Runs.refl c).gated _ ((Ctx.Runs.refl c).captureTriggeredJob)
    · exact .refl c
  | quiesce n =>
    refine ⟨_, rfl, .moves (State.Moves.quiesceCheck (State.Moves.withStation .refl n fun e c => ?_) n)⟩
    split
    · exact (Ctx.Runs.refl c).gated _ ((Ctx.Runs.refl c).quiesceJob e)
    · exact .refl c
  | wakeIntervalEnd n => exact ⟨_, rfl, withStation_gives n fun e c => (Ctx.Runs.refl c).wakeEnds e⟩
  | transmitDone n => exact ⟨_, rfl, withStation_gives n fun e c => (Ctx.Runs.refl c).transmitted⟩
  | retireExpiry n tag => exact ⟨_, rfl, withStation_gives n fun e c => (Ctx.Runs.refl c).takeRetireExpiry e tag⟩
  | idleCloseExpiry n => exact ⟨_, rfl, withStation_gives n fun e c => (Ctx.Runs.refl c).idleExpires e⟩
  | consoleByteSent n => exact ⟨_, rfl, withStation_gives n fun e c => (Ctx.Runs.refl c).byteSent e⟩
  | responseTimeoutExpiry n tag =>
    exact ⟨_, rfl, withStation_gives n fun e c => ((Ctx.Runs.refl c).takeTimeout e tag).parkCheck e⟩
  | healthIntervalExpiry n =>
    exact ⟨_, rfl, withStation_gives n fun e c => ((Ctx.Runs.refl c).quietExpires e).ite (.refl c)⟩
  | stepTimerExpiry n =>
    exact ⟨_, rfl, withStation_gives n fun e c => ((Ctx.Runs.refl c).stepTimerExpires e).ite (.refl c)⟩
  | signalAcquired p => exact ⟨_, rfl, atConnector_gives p fun e c => (Ctx.Runs.refl c).signalUp⟩
  | startDelimiter p => exact ⟨_, rfl, atConnector_gives p fun e c => (Ctx.Runs.refl c).takeStart⟩
  | endDelimiterInIdle p => exact ⟨_, rfl, atConnector_gives p fun e c => (Ctx.Runs.refl c).takeEndInIdle e⟩
  | packetDiscard p => exact ⟨_, rfl, atConnector_gives p fun e c => (Ctx.Runs.refl c).endDiscarded e⟩
  | tracePacket p => exact ⟨_, rfl, atConnector_gives p fun e c => (Ctx.Runs.refl c).endTrace e⟩
  | progressPacket p => exact ⟨_, rfl, atConnector_gives p fun e c => (Ctx.Runs.refl c).endProgress e⟩
  | noticePacket p => exact ⟨_, rfl, atConnector_gives p fun e c => (Ctx.Runs.refl c).endNotice e⟩
  | bdlDataByte p b => exact ⟨_, rfl, atConnector_gives p fun e c => (Ctx.Runs.refl c).takeDataByte b⟩
  | consoleStartEdge p => exact ⟨_, rfl, atConnector_gives p fun e c => (Ctx.Runs.refl c).startEdge e⟩
  | startBitSample p high => exact ⟨_, rfl, atConnector_gives p fun e c => (Ctx.Runs.refl c).startSample e high⟩
  | consoleByte p data stop => exact ⟨_, rfl, atConnector_gives p fun e c => (Ctx.Runs.refl c).stopSample e data stop⟩
  | rxRise p => exact ⟨_, rfl, atConnector_gives p fun e c => (Ctx.Runs.refl c).heldRise e⟩
  | breakDetected p => exact ⟨_, rfl, atConnector_gives p fun e c => (Ctx.Runs.refl c).breakThreshold e⟩
  | signalLost p =>
    exact ⟨_, rfl, atConnector_gives p fun e c => ((Ctx.Runs.refl c).signalDown e).parkCheck e⟩
  | responsePacket p =>
    exact ⟨_, rfl, atConnector_gives p fun e c => ((Ctx.Runs.refl c).endResponse e).parkCheck e⟩
  | presentInputChange p level straps => exact ⟨_, rfl, .moves (State.Moves.quiet .refl (by rfl) (by rfl))⟩
  | presentSettleExpiry p =>
    exact ⟨_, rfl, .moves (State.Moves.ite (State.Moves.atConnector (State.Moves.quiet .refl (by rfl) (by rfl)) p
      fun e c => (Ctx.Runs.refl c).presentSettled e) .refl)⟩
  | pwrGoodFall p =>
    exact ⟨_, rfl, .moves (State.Moves.ite (State.Moves.atConnector (State.Moves.quiet .refl (by rfl) (by rfl)) p
      fun e c => (Ctx.Runs.refl c).goodFalls e) .refl)⟩
  | overloadFall p =>
    exact ⟨_, rfl, .moves (State.Moves.ite (State.Moves.atConnector (State.Moves.quiet .refl (by rfl) (by rfl)) p
      fun e c => (Ctx.Runs.refl c).overloadFalls) .refl)⟩
  | pwrGoodRise p =>
    exact ⟨_, rfl, .moves (State.Moves.ite .refl (State.Moves.atConnector (State.Moves.quiet .refl (by rfl) (by rfl)) p
      fun e c => (Ctx.Runs.refl c).goodRises e))⟩
  | overloadRise p =>
    exact ⟨_, rfl, .moves (State.Moves.ite .refl (State.Moves.atConnector (State.Moves.quiet .refl (by rfl) (by rfl)) p
      fun e c => (Ctx.Runs.refl c).overloadRises e))⟩
  | inrushWindowClose n => exact ⟨_, rfl, whenDue_gives n _ fun e c => (Ctx.Runs.refl c).inrushCloses e⟩
  | overloadFilterExpiry n => exact ⟨_, rfl, whenDue_gives n _ fun e c => (Ctx.Runs.refl c).takeFault e _⟩
  | autoSettleExpiry n => exact ⟨_, rfl, whenDue_gives n _ fun e c => (Ctx.Runs.refl c).settleDecides e⟩
  | rampTimerExpiry n => exact ⟨_, rfl, whenDue_gives n _ fun e c => (Ctx.Runs.refl c).takeFault e _⟩
  | cooldownExpiry n => exact ⟨_, rfl, whenDue_gives n _ fun e c => (Ctx.Runs.refl c).cooldownExpires e⟩
  | resetDelayExpiry n => exact ⟨_, rfl, whenDue_gives n _ fun e c => (Ctx.Runs.refl c).endAssertion e⟩
  | resetPulseExpiry n => exact ⟨_, rfl, whenDue_gives n _ fun e c => (Ctx.Runs.refl c).pulseExpires e⟩
  | benchLineRise l =>
    exact ⟨_, rfl, .moves (State.Moves.ite .refl (State.Moves.eachStation (State.Moves.quiet .refl (by rfl) (by rfl))
      fun u n hu => hu.withStation n fun e c => (Ctx.Runs.refl c).report e _))⟩
  | benchLineFall l => exact ⟨_, rfl, .moves (State.Moves.ite .refl (State.Moves.quiet .refl (by rfl) (by rfl)))⟩
  | driveEnd n l =>
    refine ⟨_, rfl, .moves (State.Moves.modStation .refl n ?_)⟩
    split
    · exact Station.Steps.ofFrame (by rfl)
    · exact .refl
  | pageAcquisition => exact ⟨_, rfl, .moves (State.Moves.acquire .refl)⟩
  | drainStep n =>
    exact ⟨_, rfl, .moves (State.Moves.ite (State.Moves.modStation .refl n (Station.Steps.drainStation ..)) .refl)⟩
  | idleFlushExpiry n =>
    exact ⟨_, rfl, .moves
      (State.Moves.ite (State.Moves.modStation .refl n (Station.Steps.idleFlushStation ..)) .refl)⟩
  | profileReadDone id data =>
    refine ⟨_, rfl, completeRead_gives id _ fun a u hu => ?_⟩
    split at hu
    · obtain rfl := Option.some.inj hu
      exact payloadArrives_moves .refl _ _ fun e c => ((Ctx.Runs.refl c).profileArrives e data).ite (.refl c)
    · cases hu
  | writeDataReadDone id data =>
    refine ⟨_, rfl, completeRead_gives id _ fun a u hu => ?_⟩
    split at hu
    · obtain rfl := Option.some.inj hu
      exact payloadArrives_moves .refl _ _ fun e c => ((Ctx.Runs.refl c).writeDataArrives e data).ite (.refl c)
    · cases hu
  | programReadDone id data =>
    refine ⟨_, rfl, completeRead_gives id _ fun a u hu => ?_⟩
    split at hu
    · obtain rfl := Option.some.inj hu
      exact payloadArrives_moves .refl _ _ fun e c => (Ctx.Runs.refl c).programPart e _ data
    · cases hu
  | entryReadDone id data =>
    refine ⟨_, rfl, completeRead_gives id _ fun a u hu => ?_⟩
    split at hu
    · split at hu
      · obtain rfl := Option.some.inj hu
        exact State.Moves.entryArrives .refl ..
      · cases hu
    · cases hu
  | syncEdge =>
    change ∃ t, execSyncEdge s = .next t ∧ _
    unfold execSyncEdge
    split
    · exact ⟨_, rfl, .syncEdge rfl ‹_›⟩
    · exact ⟨_, rfl, .moves .refl⟩

end Sys2Proof.Machine
end

section
/-! The invariants of the block: every step keeps each capture within its bounds, the tables, queues, pages
and the map within theirs, and the held jobs apart. Each is kept by the steps of `Instr.Gives`. -/

namespace Sys2Proof.Machine

/-! ## A property of every station that the steps keep -/

/-- What a station's steps keep, its steps one after the other keep. -/
theorem Station.Steps.keeps {P : Station → Prop} (hP : ∀ {t u : Station}, t.Step u → P t → P u)
    {t u : Station} (h : t.Steps u) (ht : P t) : P u := by
  induction h with
  | refl => exact ht
  | tail _ hs ih => exact hP hs ih

/-- A property of stations that a station's steps and the joining of a queue with room keep is kept by the
device's steps. -/
theorem State.Step.keeps_stations {P : Station → Prop} (hP : ∀ {t u : Station}, t.Step u → P t → P u)
    (hjoin : ∀ (t : Station) (q : QJob), t.queue.length < Config.maxQueue → P t → P (joinQueue q t))
    {J : Nat → Prop} {s t : State} (h : s.Step J t) (hs : ∀ n, P (s.station n)) : ∀ n, P (t.station n) := by
  have hset : ∀ (n : StationNo) (u : Station), P u → ∀ m, P ((s.setStation n u).station m) := by
    intro n u hu m
    by_cases hm : m = n
    · subst hm; rwa [State.setStation_station]
    · rw [State.setStation_other _ _ hm]; exact hs m
  cases h with
  | calm hc => intro n; rw [State.station, hc.stations]; exact hs n
  | station n hstep => exact hset n _ (hP hstep (hs n))
  | held => exact hs
  | hold => exact hs
  | rehold => exact hs
  | join n hq hroom => exact hset n _ (hjoin _ _ hroom (hs n))

/-- What the device's steps keep, its steps one after the other keep. -/
theorem State.Moves.keeps {P : State → Prop} {J : Nat → Prop}
    (hP : ∀ {s t : State}, s.Step J t → P s → P t) {s t : State} (h : s.Moves J t) (hs : P s) : P t := by
  induction h with
  | refl => exact hs
  | tail _ hstep ih => exact hP hstep ih

/-- A property that does not speak of the commands that wait and that a tick and every command keep is kept
by every step. -/
theorem step_keeps {P : State → Prop} (hpend : ∀ (s : State) (l : List Instr), P s → P { s with pending := l })
    (htick : ∀ s, P s → P s.tick) (hexec : ∀ {i s t}, Instr.Gives i s t → P s → P t) {s t : State}
    (hs : P s) (h : step s = .next t) : P t := by
  unfold step at h
  split at h
  · cases h; exact htick s hs
  · rename_i i rest _
    obtain ⟨u, hu, hg⟩ := exec_gives i { s with pending := rest }
    rw [hu] at h
    cases h
    exact hexec hg (hpend s rest hs)

/-- A load changes no station but its reference. -/
theorem State.loadTime_station (s : State) (p : Tick) (n : StationNo) : (s.loadTime p).station n =
    { s.station n with cap := (s.station n).cap.invalidate .timeLoad } := State.mapStations_station ..

theorem State.powerReset_station (s : State) (lines : BitVec 4) (n : StationNo) :
    (s.powerReset lines).station n = Station.reset := by
  simp [State.powerReset, State.reset, State.station]

theorem State.takeSoftReset_station (s : State) (lines : BitVec 4) (n : StationNo) :
    (s.takeSoftReset lines).station n = Station.reset := s.powerReset_station lines n

/-- A property of every station that its steps, a place in its queue, a load and the resets keep is kept by
every command. -/
theorem Instr.Gives.keeps_stations {P : Station → Prop}
    (hP : ∀ {t u : Station}, t.Step u → P t → P u)
    (hjoin : ∀ (t : Station) (q : QJob), t.queue.length < Config.maxQueue → P t → P (joinQueue q t))
    (hreset : P Station.reset) {i : Instr} {s t : State} (h : Instr.Gives i s t) (hs : ∀ n, P (s.station n)) :
    ∀ n, P (t.station n) := by
  have hload : ∀ p n, P ((s.loadTime p).station n) := fun p n => by
    rw [State.loadTime_station]
    exact hP (.cap (.invalidate ..)) (hs n)
  have hmoves : ∀ {a b : State}, a.Moves s.writesOf b → (∀ n, P (a.station n)) → ∀ n, P (b.station n) :=
    fun hm => State.Moves.keeps (P := fun u => ∀ n, P (u.station n))
      (fun hstep => hstep.keeps_stations hP hjoin) hm
  cases h with
  | moves hm => exact hmoves hm hs
  | syncEdge _ _ => exact hload _
  | timeLoad _ _ hm => exact hmoves hm (hload _)
  | powerReset lines _ => intro n; rw [State.powerReset_station]; exact hreset
  | softReset lines => intro n; rw [State.takeSoftReset_station]; exact hreset

/-! ## CAP keeps its bounds (R139, R142 to R145) -/

/-- Trimmed, the window has room for the record (R139). -/
theorem historyBytes_trim {h p : Nat} (hp : p ≤ h) (l : List SrcRec) :
    historyBytes (trimHistory h p l) + p ≤ h := by
  induction l with
  | nil => simpa [trimHistory, historyBytes] using hp
  | cons r rs ih =>
    unfold trimHistory
    split
    · exact ih
    · omega

theorem historyBytes_append (l : List SrcRec) (r : SrcRec) :
    historyBytes (l ++ [r]) = historyBytes l + r.size := by simp [historyBytes]

/-- What an admitted record occupies does not depend on what the CONSOLE LINE's offset is. -/
theorem admittedPayload_size (p : Payload) (k u : Nat) (f : Option Tick) :
    (admittedPayload p k u f).size = p.size := by
  unfold admittedPayload
  split <;> rfl

namespace Capture
variable {c : Capture}

theorem bounded_admitNormal (h : c.bounded) (k : Nat) (r : SrcRec) :
    (c.admitNormal k r).cap.bounded := by
  obtain ⟨hused, -, hsize, hhist⟩ := h
  unfold Capture.admitNormal
  dsimp only
  split
  · rename_i hfit
    have hroom : (c.append k (unitOf k r.entry) (admittedPayload r.payload k (unitOf k r.entry) r.first) r.flags).used
        + Config.stagingReserve ≤ Config.stagingSize := by
      rw [Capture.append_used, admittedPayload_size]
      unfold Capture.free at hfit
      unfold SrcRec.size at hfit
      omega
    exact ⟨(Nat.le_add_right ..).trans hroom, fun _ => hroom, by simpa using hsize, by simpa using hhist⟩
  · exact ⟨hused, nofun, hsize, hhist⟩

/-- With 4,096 bytes free there is room for the GAP and its ANCHOR (R145). -/
theorem bounded_recover (h : c.bounded) (hr : c.canRecover = true) (k : Nat) (tb : Tick) :
    (c.recover k tb).bounded := by
  obtain ⟨hused, -, hsize, hhist⟩ := h
  simp only [Capture.canRecover, Bool.and_eq_true, decide_eq_true_eq] at hr
  have hneed : c.needed k (unitOf k tb) (Payload.gap c.pend.records c.pend.bytes c.pend.firstUnit).size ≤ 40 := by
    unfold Capture.needed
    have : (Payload.gap c.pend.records c.pend.bytes c.pend.firstUnit).size ≤ 24 := by
      simp [Payload.size, Payload.len, paddedSize]
    split <;> omega
  have hroom : (c.recover k tb).used + Config.stagingReserve ≤ Config.stagingSize := by
    have hu : (c.recover k tb).used = c.used + c.needed k (unitOf k tb)
        (Payload.gap c.pend.records c.pend.bytes c.pend.firstUnit).size := Capture.append_used ..
    have hfree := hr.2
    unfold Capture.free at hfree
    simp only [Config.recoveryFree, Config.stagingSize, Config.stagingReserve] at *
    omega
  exact ⟨by omega, fun _ => hroom, by simpa [Capture.recover] using hsize,
    by simpa [Capture.recover] using hhist⟩

theorem bounded_countLost (h : c.bounded) (hl : c.loss = true) (r : SrcRec) :
    (c.countLost r).cap.bounded := by
  obtain ⟨hused, -, hsize, hhist⟩ := h
  have hnormal : ∀ {p : Prop}, c.loss = false → p := fun e => absurd (hl.symm.trans e) (by decide)
  unfold Capture.countLost
  dsimp only
  split
  · split
    case h_1 hst => exact ⟨hused, hnormal, hsize, fun _ => hhist (by simp [hst])⟩
    case h_2 hst => exact ⟨hused, hnormal, hsize, fun _ => hhist (by simp [hst])⟩
    all_goals exact ⟨hused, hnormal, hsize, hhist⟩
  · exact ⟨hused, hnormal, hsize, hhist⟩

theorem bounded_admission (h : c.bounded) (k : Nat) (tb : Tick) (r : SrcRec) :
    (c.admission k tb r).cap.bounded := by
  unfold Capture.admission
  split
  · exact bounded_admitNormal (bounded_recover h ‹_› k tb) k r
  · split
    · exact bounded_countLost h ‹_› r
    · exact bounded_admitNormal h k r

theorem bounded_hold (h : c.bounded) (hw : c.state = .watching) (r : SrcRec) : (c.hold r).bounded := by
  obtain ⟨hused, hfree, hsize, hhist⟩ := h
  unfold Capture.hold
  split
  · exact ⟨hused, hfree, hsize, hhist⟩
  · refine ⟨hused, hfree, ?_, fun hn => absurd hw hn⟩
    have := historyBytes_trim (p := r.size) (h := c.historySize) (by omega) c.history
    rwa [← historyBytes_append] at this

/-- Bounds do not depend on the state where it and the old one are not WATCHING. -/
theorem bounded_state (h : c.bounded) (hw : c.state ≠ .watching) (x : CaptureState) :
    ({ c with state := x } : Capture).bounded := by
  obtain ⟨hused, hfree, hsize, hhist⟩ := h
  exact ⟨hused, hfree, hsize, fun _ => hhist hw⟩

theorem bounded_offer (h : c.bounded) (k : Nat) (tb : Tick) (r : SrcRec) :
    (c.offer k tb r).cap.bounded := by
  have ha := bounded_admission h k tb r
  unfold Capture.offer
  split
  · exact h
  · exact bounded_hold h ‹_› r
  · exact ha
  · dsimp only
    split
    · rename_i hst
      split
      · exact bounded_state ha (by simp [hst]) _
      · exact bounded_state ha (by simp [hst]) _
    all_goals exact ha

theorem bounded_releaseAll (k : Nat) (tb : Tick) (l : List SrcRec) {c : Capture} (h : c.bounded) :
    (releaseAll k tb c l).cap.bounded := by
  induction l generalizing c with
  | nil => exact h
  | cons r rs ih => exact ih (bounded_admission h k tb _)

/-- A window that has been emptied is within its bounds in any state. -/
theorem bounded_cleared (h : c.bounded) (x : CaptureState) (n : Nat) :
    ({ c with state := x, history := [], historySize := n } : Capture).bounded := by
  obtain ⟨hused, hfree, -, -⟩ := h
  exact ⟨hused, hfree, Nat.zero_le _, fun _ => rfl⟩

theorem bounded_start (h : c.bounded) (k : Nat) (tb : Tick) : (c.start k tb).cap.bounded := by
  unfold Capture.start
  split
  · exact bounded_state (c := c.invalidate .enterRecording) h (by simp [Capture.invalidate, *]) _
  · exact bounded_releaseAll _ _ _ (bounded_cleared (c := c.invalidate .enterRecording) h _ _)
  · exact h
  · exact h

theorem bounded_stop (h : c.bounded) (n : Nat) : (c.stop n).cap.bounded := by
  unfold Capture.stop
  split
  · exact h
  · exact bounded_cleared h _ _
  all_goals split <;> exact bounded_state h (by simp [*]) _

theorem stagedBytes_tail (l : List Staged) : stagedBytes l.tail ≤ stagedBytes l := by
  cases l with
  | nil => exact Nat.le_refl _
  | cons x xs => simp [stagedBytes]

theorem bounded_reset : Capture.reset.bounded := by
  simp [Capture.bounded, Capture.reset, Capture.used, stagedBytes, historyBytes, Config.stagingReserve,
    Config.stagingSize]

/-- Every step of CAP keeps its bounds. -/
theorem Step.bounded {d : Capture} (hs : c.Step d) (h : c.bounded) : d.bounded := by
  cases hs with
  | offer k tb r => exact bounded_offer h k tb r
  | start k tb => exact bounded_start h k tb
  | stop n => exact bounded_stop h n
  | recover k tb hr => exact bounded_recover h hr k tb
  | invalidate why => exact h
  | cut => exact bounded_cleared h _ _
  | shut q =>
    refine ⟨Nat.zero_le _, fun _ => ?_, Nat.zero_le _, fun _ => rfl⟩
    change stagedBytes [] + Config.stagingReserve ≤ Config.stagingSize
    decide
  | reset => exact bounded_reset
  | watch size => exact bounded_cleared h _ _
  | remove =>
    obtain ⟨hused, hfree, hsize, hhist⟩ := h
    have ht : ({ c with staging := c.staging.tail } : Capture).used ≤ c.used := stagedBytes_tail _
    exact ⟨ht.trans hused, fun hl => (Nat.add_le_add_right ht _).trans (hfree hl), hsize, hhist⟩

end Capture

theorem Station.core_cap {t u : Station} (h : u.core = t.core) : u.cap = t.cap := congrArg (·.1) h

/-- Every step of a station keeps its capture within its bounds. -/
theorem Station.Step.capBounded {t u : Station} (hs : t.Step u) (h : t.cap.bounded) : u.cap.bounded := by
  cases hs with
  | frame hc => rw [Station.core_cap hc]; exact h
  | cap hc => exact hc.bounded h
  | _ => exact h

/-- Settles O57: CAP's steps, one per model function of Chapter 8, each keep the bounds, and every command
moves the stations by them alone. -/
theorem everyStepKeepsCaptureBounds : Obligations.EveryStepKeepsCaptureBounds := fun _ _ hs h =>
  step_keeps (P := State.captureInv) (fun _ _ hs => hs) (fun _ hs => hs)
    (fun hg hs => hg.keeps_stations (P := fun t => t.cap.bounded) Station.Step.capBounded (fun _ _ _ h => h)
      Capture.bounded_reset hs) hs h

end Sys2Proof.Machine
end

section
/-! The bounds of the tables, queues, pages, transmit lists and of the map, the held jobs kept apart, and the
statements about every command that follow from what a command gives. -/

namespace Sys2Proof.Machine

/-! ## The outstanding request table (R65, R66, R70) -/

theorem earliest_mem {l : List RetiredTag} (hl : l ≠ []) : ∃ m ∈ l, earliest l = some m := by
  induction l with
  | nil => exact absurd rfl hl
  | cons r rs ih =>
    by_cases hrs : rs = []
    · subst hrs; exact ⟨r, List.mem_cons_self, rfl⟩
    · obtain ⟨m, hm, he⟩ := ih hrs
      unfold earliest
      rw [he]
      dsimp only
      split
      · exact ⟨m, List.mem_cons_of_mem _ hm, rfl⟩
      · exact ⟨r, List.mem_cons_self, rfl⟩

theorem tagBusy_iff {a : AccessUnit} {g : Fin 64} :
    a.tagBusy g = true ↔ g ∈ a.entries.map Entry.tag ++ a.retired.map RetiredTag.tag := by
  simp [AccessUnit.tagBusy]

/-- From any tag onward every tag comes within 64. -/
theorem mem_tagAt (start : Nat) (g : Fin 64) : g ∈ (List.range 64).map (tagAt start) := by
  refine List.mem_map.mpr ⟨(g.val + (64 - start % 64)) % 64, List.mem_range.mpr (Nat.mod_lt _ (by decide)), ?_⟩
  refine Fin.ext ?_
  change (start + (g.val + (64 - start % 64)) % 64) % 64 = g.val
  have := g.isLt
  omega

/-- With at most twelve tags taken some tag is free. -/
theorem exists_tag_free {a : AccessUnit} (h : a.bounded) : ∃ g, a.tagBusy g = false := by
  by_contra hall
  simp only [not_exists, Bool.not_eq_false, tagBusy_iff] at hall
  have hcard := List.toFinset_card_le (a.entries.map Entry.tag ++ a.retired.map RetiredTag.tag)
  have huniv : (a.entries.map Entry.tag ++ a.retired.map RetiredTag.tag).toFinset = Finset.univ :=
    Finset.eq_univ_of_forall fun g => List.mem_toFinset.mpr (hall g)
  obtain ⟨he, hr, -⟩ := h
  simp only [huniv, Finset.card_univ, Fintype.card_fin, List.length_append, List.length_map] at hcard
  simp only [Config.maxEntries, Config.maxRetired] at he hr
  omega

/-- The tag R66 assigns is neither outstanding nor retired. -/
theorem pickTag_free {a : AccessUnit} (h : a.bounded) : a.tagBusy a.pickTag = false := by
  obtain ⟨g, hg⟩ := exists_tag_free h
  unfold AccessUnit.pickTag
  cases hf : ((List.range 64).map (tagAt a.nextTag.val)).find? fun t => !a.tagBusy t with
  | none => exact absurd (List.find?_eq_none.mp hf g (mem_tagAt _ g)) (by simp [hg])
  | some t => simpa using List.find?_some hf

namespace AccessUnit
variable {a : AccessUnit}

theorem bounded_issue (h : a.bounded) (hf : a.hasFree = true) {x : Entry} (hx : x.tag = a.pickTag)
    (next : Fin 64) : ({ a with entries := a.entries ++ [x], nextTag := next } : AccessUnit).bounded := by
  have hfree := pickTag_free h
  obtain ⟨-, hr, hnd⟩ := h
  have hlen : a.entries.length < Config.maxEntries := by simpa [AccessUnit.hasFree] using hf
  refine ⟨by simpa using hlen, hr, ?_⟩
  have hnot : x.tag ∉ a.entries.map Entry.tag ++ a.retired.map RetiredTag.tag := by
    rw [hx, ← tagBusy_iff, hfree]; decide
  rw [List.map_append, List.append_assoc]
  exact List.nodup_middle.mpr (List.nodup_cons.mpr ⟨hnot, hnd⟩)

theorem bounded_sublist (h : a.bounded) {b : AccessUnit} (he : b.entries.Sublist a.entries)
    (hr : b.retired.Sublist a.retired) : b.bounded := by
  obtain ⟨h1, h2, h3⟩ := h
  exact ⟨he.length_le.trans h1, hr.length_le.trans h2, ((he.map _).append (hr.map _)).nodup h3⟩

theorem bounded_freeTag (h : a.bounded) (g : Fin 64) : (a.freeTag g).bounded :=
  bounded_sublist h List.filter_sublist (List.Sublist.refl _)

/-- Eight tags stay retired: the earliest leaves for a ninth (R70). -/
theorem retire_kept (a : AccessUnit) (g : Fin 64) (expiry : Nat) (h : a.retired.length ≤ Config.maxRetired) :
    ∃ l, l.Sublist a.retired ∧ l.length < Config.maxRetired
      ∧ a.retire g expiry = { a with retired := l ++ [⟨g, expiry⟩] } := by
  unfold AccessUnit.retire
  dsimp only
  split
  · exact ⟨_, List.Sublist.refl _, ‹_›, rfl⟩
  · rename_i hfull
    have hne : a.retired ≠ [] := fun e => hfull (by simp [e, Config.maxRetired])
    obtain ⟨m, hm, he⟩ := earliest_mem hne
    simp only [he]
    have hlen := List.length_erase_of_mem hm
    have hpos := List.length_pos_of_mem hm
    exact ⟨_, List.erase_sublist, by omega, rfl⟩

theorem bounded_retire (h : a.bounded) {g : Fin 64} (hg : ∃ x ∈ a.entries, x.tag = g) (expiry : Nat) :
    ((a.freeTag g).retire g expiry).bounded := by
  obtain ⟨he, hr, hnd⟩ := bounded_freeTag h g
  obtain ⟨l, hl, hlen, hret⟩ := retire_kept (a.freeTag g) g expiry hr
  rw [hret]
  refine ⟨he, by simpa using hlen, ?_⟩
  have hold : g ∉ a.retired.map RetiredTag.tag := by
    obtain ⟨x, hx, hxg⟩ := hg
    intro hm
    exact List.disjoint_of_nodup_append h.2.2 (List.mem_map.mpr ⟨x, hx, hxg⟩) hm
  have hnot : g ∉ (a.freeTag g).entries.map Entry.tag ++ l.map RetiredTag.tag := by
    rw [List.mem_append, not_or]
    exact ⟨by simp [AccessUnit.freeTag], fun hm => hold ((hl.map _).subset hm)⟩
  change ((a.freeTag g).entries.map Entry.tag ++ (l ++ [(⟨g, expiry⟩ : RetiredTag)]).map RetiredTag.tag).Nodup
  rw [List.map_append, ← List.append_assoc]
  have hrest : ((a.freeTag g).entries.map Entry.tag ++ l.map RetiredTag.tag).Nodup :=
    ((List.Sublist.refl _).append (hl.map _)).nodup hnd
  exact List.nodup_append_comm.mp (List.nodup_cons (a := g).mpr ⟨hnot, hrest⟩)

end AccessUnit

/-! ## The bounds of a station (R65, R66, R149, R177) -/

/-- The bounds of a station's table, queue and pages. -/
def Station.bounded (t : Station) : Prop :=
  t.au.bounded ∧ t.queue.length ≤ Config.maxQueue ∧ t.pg.bounded

/-- Every step of a station keeps its bounds. -/
theorem Station.Step.bounded {t u : Station} (hs : t.Step u) (h : t.bounded) : u.bounded := by
  obtain ⟨ha, hq, hp⟩ := h
  cases hs with
  | frame hc =>
    simp only [Station.core, Prod.mk.injEq] at hc
    obtain ⟨-, h1, h2, h3, h4, -, h5, -⟩ := hc
    refine ⟨?_, h5 ▸ hq, ?_⟩
    · unfold AccessUnit.bounded; rw [h3, h4]; exact ha
    · unfold PageState.bounded; rw [h1, h2]; exact hp
  | cap => exact ⟨ha, hq, hp⟩
  | issue e r o front hf => exact ⟨AccessUnit.bounded_issue ha hf rfl _, hq, hp⟩
  | free g => exact ⟨AccessUnit.bounded_freeTag ha g, hq, hp⟩
  | retire expiry hg => exact ⟨AccessUnit.bounded_retire ha hg expiry, hq, hp⟩
  | unretire hl => exact ⟨AccessUnit.bounded_sublist ha (List.Sublist.refl _) hl, hq, hp⟩
  | unlist => exact ⟨ha, hq, hp⟩
  | clear => exact ⟨AccessUnit.bounded_sublist ha (List.nil_sublist _) (List.nil_sublist _), hq, hp⟩
  | queue hl => exact ⟨ha, hl.length_le.trans hq, hp⟩
  | page hg _ => exact ⟨ha, hq, hg hp⟩

theorem Station.bounded_join (t : Station) (q : QJob) (hroom : t.queue.length < Config.maxQueue)
    (h : t.bounded) : (joinQueue q t).bounded := by
  obtain ⟨ha, -, hp⟩ := h
  exact ⟨ha, by simpa [joinQueue] using hroom, hp⟩

theorem Station.bounded_reset : Station.reset.bounded := by
  simp [Station.bounded, Station.reset, AccessUnit.bounded, AccessUnit.reset, PageState.bounded, PageState.reset]

/-! ## The transmit list (R63) -/

/-- Every request of the transmit list occupies an entry of its own. -/
def Station.listed (t : Station) : Prop :=
  (t.lp.txList.map TxReq.tag).Nodup ∧ ∀ r ∈ t.lp.txList, ∃ x ∈ t.au.entries, x.tag = r.tag

theorem Station.listed_issue (e : Env) (r : ReqSpec) (o : Owner) (front : Bool) {t : Station}
    (ha : t.au.bounded) (h : t.listed) : (issueReq e r o front t).listed := by
  obtain ⟨hnd, hin⟩ := h
  have hnew : ∀ x ∈ t.lp.txList, t.au.pickTag ≠ x.tag := by
    intro x hx he
    obtain ⟨y, hy, hyx⟩ := hin x hx
    have hbusy : t.au.tagBusy t.au.pickTag = true :=
      tagBusy_iff.mpr (List.mem_append_left _ (List.mem_map.mpr ⟨y, hy, hyx.trans he.symm⟩))
    exact absurd ((pickTag_free ha).symm.trans hbusy) (by decide)
  have hnot : t.au.pickTag ∉ t.lp.txList.map TxReq.tag := by
    intro hm
    obtain ⟨x, hx, he⟩ := List.mem_map.mp hm
    exact hnew x hx he.symm
  have hsub := Ctx.Runs.kick_txList { t.lp with
    txList := if front then ⟨t.au.pickTag, r⟩ :: t.lp.txList else t.lp.txList ++ [⟨t.au.pickTag, r⟩] }
  have hjoined : (((if front then (⟨t.au.pickTag, r⟩ : TxReq) :: t.lp.txList
      else t.lp.txList ++ [⟨t.au.pickTag, r⟩])).map TxReq.tag).Nodup := by
    split
    · exact List.nodup_cons.mpr ⟨hnot, hnd⟩
    · rw [List.map_append]
      exact List.nodup_append_comm.mp (List.nodup_cons.mpr ⟨hnot, hnd⟩)
  refine ⟨(hsub.map _).nodup hjoined, fun x hx => ?_⟩
  have hx' : x = ⟨t.au.pickTag, r⟩ ∨ x ∈ t.lp.txList := by
    have := hsub.subset hx
    dsimp only at this
    split at this
    · exact List.mem_cons.mp this
    · exact (List.mem_append.mp this).symm.imp_left List.mem_singleton.mp
  rcases hx' with rfl | hold
  · exact ⟨_, List.mem_append_right _ (List.mem_singleton.mpr rfl), rfl⟩
  · obtain ⟨y, hy, hyx⟩ := hin x hold
    exact ⟨y, List.mem_append_left _ hy, hyx⟩

/-- An entry that is freed takes its request from the list with it (log 33). -/
theorem Station.listed_free {t : Station} (g : Fin 64) (h : t.listed) :
    ({ t with au := t.au.freeTag g, lp := t.lp.dropTag g } : Station).listed := by
  obtain ⟨hnd, hin⟩ := h
  refine ⟨(List.filter_sublist.map _).nodup hnd, fun r hr => ?_⟩
  obtain ⟨hmem, hne⟩ := List.mem_filter.mp hr
  obtain ⟨x, hx, hxr⟩ := hin r hmem
  exact ⟨x, List.mem_filter.mpr ⟨hx, by rw [hxr]; exact hne⟩, hxr⟩

/-- Every step of a station keeps its bounds and its transmit list. -/
theorem Station.Step.listed {t u : Station} (hs : t.Step u) (h : t.bounded ∧ t.listed) :
    u.bounded ∧ u.listed := by
  refine ⟨hs.bounded h.1, ?_⟩
  obtain ⟨⟨ha, -, -⟩, hl⟩ := h
  have hlist := hl
  obtain ⟨hnd, hin⟩ := hl
  cases hs with
  | frame hc =>
    simp only [Station.core, Prod.mk.injEq] at hc
    obtain ⟨-, -, -, he, -, htx, -, -⟩ := hc
    unfold Station.listed
    rw [he, htx]
    exact hlist
  | cap => exact hlist
  | issue e r o front _ => exact Station.listed_issue e r o front ha hlist
  | free g => exact Station.listed_free g hlist
  | retire expiry _ =>
    have hentries : ∀ (a : AccessUnit) g x, (a.retire g x).entries = a.entries := fun _ _ _ => rfl
    unfold Station.listed
    rw [hentries]
    exact Station.listed_free _ hlist
  | unretire => exact hlist
  | unlist hsub => exact ⟨(hsub.map _).nodup hnd, fun r hr => hin r (hsub.subset hr)⟩
  | clear => exact ⟨List.nodup_nil, fun r hr => absurd hr (by simp)⟩
  | queue => exact hlist
  | page => exact hlist

theorem Station.listed_reset : Station.reset.listed := by
  simp [Station.listed, Station.reset, LinkPort.reset]

/-! ## The bounds of the device -/

/-- The bounds that are not a station's: the map, the next serial and the burst count (R41, R149, R161). -/
def State.deviceBounds (s : State) : Prop :=
  s.stationMap.toList.Nodup ∧ 1 ≤ s.nextSerial ∧ s.nextSerial ≤ Config.max32 ∧ s.hmp.burst ≤ 3

theorem State.Step.deviceBounds {J : Nat → Prop} {s t : State} (h : s.Step J t) (hs : s.deviceBounds) :
    t.deviceBounds := by
  obtain ⟨hmap, hlo, hhi, hburst⟩ := hs
  cases h with
  | calm hc =>
    obtain ⟨hlo', hhi'⟩ := hc.serial ⟨hlo, hhi⟩
    exact ⟨hc.map hmap, hlo', hhi', hc.burst hburst⟩
  | _ => exact ⟨hmap, hlo, hhi, hburst⟩

theorem State.reset_deviceBounds : State.reset.deviceBounds := by
  refine ⟨?_, by decide, by decide, by decide⟩
  decide

theorem Instr.Gives.deviceBounds {i : Instr} {s t : State} (h : Instr.Gives i s t) (hs : s.deviceBounds) :
    t.deviceBounds := by
  have hmoves : ∀ {a b : State}, a.Moves s.writesOf b → a.deviceBounds → b.deviceBounds :=
    fun hm => State.Moves.keeps (P := State.deviceBounds) (fun hstep => hstep.deviceBounds) hm
  cases h with
  | moves hm => exact hmoves hm hs
  | syncEdge _ _ => exact hs
  | timeLoad _ _ hm => exact hmoves hm hs
  | powerReset lines _ => exact State.reset_deviceBounds
  | softReset lines => exact ⟨hs.1, State.reset_deviceBounds.2.1, State.reset_deviceBounds.2.2.1, Nat.zero_le _⟩

/-- Settles O58: the bounds of a station are kept by its steps, a tag newly assigned being neither
outstanding nor retired, and those of the device by the device's steps. -/
theorem everyStepKeepsTableBounds : Obligations.EveryStepKeepsTableBounds := by
  refine ⟨fun s t hs h => ?_, fun s t hb hx h => ?_⟩
  · refine step_keeps (P := State.boundsInv) (fun _ _ hs => hs) (fun _ hs => hs) (fun hg hs => ?_) hs h
    exact ⟨hg.keeps_stations (P := Station.bounded) Station.Step.bounded Station.bounded_join
      Station.bounded_reset hs.1, hg.deviceBounds hs.2⟩
  · have hP := step_keeps (P := fun s => ∀ n, (s.station n).bounded ∧ (s.station n).listed)
      (fun _ _ hs => hs) (fun _ hs => hs)
      (fun hg hs => hg.keeps_stations (P := fun t => t.bounded ∧ t.listed) Station.Step.listed
        (fun t q hroom h => ⟨Station.bounded_join t q hroom h.1, h.2⟩)
        ⟨Station.bounded_reset, Station.listed_reset⟩ hs)
      (fun n => ⟨hb.1 n, hx n⟩) h
    exact fun n => (hP n).2

end Sys2Proof.Machine
end

section
/-! The held jobs are kept apart, and the statements about every command and every step that follow from
what a command gives. -/

namespace Sys2Proof.Machine

/-! ## Held jobs (R173, R179) -/

/-- A station's step adds no job to its queue, and no result or DONE write to its accesses. -/
theorem Station.Step.jobs {t u : Station} (h : t.Step u) :
    (∀ q ∈ u.queue, q ∈ t.queue) ∧ ∀ a ∈ u.pageQ, a ∈ t.pageQ ∨ a.purpose.resultOf = none := by
  cases h with
  | frame hc =>
    simp only [Station.core, Prod.mk.injEq] at hc
    obtain ⟨-, -, -, -, -, -, hq, hp⟩ := hc
    rw [hq, hp]
    exact ⟨fun _ h => h, fun _ h => .inl h⟩
  | queue hl => exact ⟨fun q hq => hl.subset hq, fun _ h => .inl h⟩
  | page _ hq => exact ⟨fun _ h => h, hq⟩
  | _ => exact ⟨fun _ h => h, fun _ h => .inl h⟩

/-- The jobs are apart, and at least `N` numbers have been given. -/
def State.jobsFrom (N : Nat) (s : State) : Prop := s.jobsInv ∧ N ≤ s.nextJid

/-- A station that has changed its queue within the jobs numbered, and presented no result or DONE write,
keeps the jobs apart. -/
theorem State.jobsInv_setStation {s : State} (hs : s.jobsInv) (n : StationNo) {u : Station}
    (hq : ∀ q ∈ u.queue, q.jid < s.nextJid)
    (hp : ∀ a ∈ u.pageQ, a ∈ (s.station n).pageQ ∨ a.purpose.resultOf = none) :
    (s.setStation n u).jobsInv := by
  obtain ⟨hjid, hslot, hlt, hqueue, hacc⟩ := hs
  refine ⟨hjid, hslot, hlt, fun m q hm => ?_, fun a ha x hx => ?_⟩
  · by_cases hmn : m = n
    · subst hmn
      rw [State.setStation_station] at hm
      exact hq q hm
    · rw [State.setStation_other _ _ hmn] at hm
      exact hqueue m q hm
  · refine hacc a (State.mem_accesses.mpr ?_) x hx
    rcases State.mem_accesses.mp ha with h | h | ⟨m, hm⟩ | h | h
    · exact .inl h
    · exact .inr (.inl h)
    · refine .inr (.inr (.inl ?_))
      by_cases hmn : m = n
      · subst hmn
        change a ∈ ((s.setStation m u).station m).pageQ at hm
        rw [State.setStation_station] at hm
        rcases hp a hm with hold | hnone
        · exact ⟨m, hold⟩
        · rw [hnone] at hx; cases hx
      · change a ∈ ((s.setStation n u).station m).pageQ at hm
        rw [State.setStation_other _ _ hmn] at hm
        exact ⟨m, hm⟩
    · exact .inr (.inr (.inr (.inl h)))
    · exact .inr (.inr (.inr (.inr h)))

/-- A job of a number and a slot that no other held job has may be held. -/
theorem State.jobsInv_addHeld {s : State} (hs : s.jobsInv) {h : HeldJob} {N : Nat} (hN : s.nextJid ≤ N)
    (hnew : ∀ x ∈ s.held, x.jid ≠ h.jid) (hjid : h.jid < N) (hslot : s.holdsSlot h.slot = false) :
    ({ s.addHeld h with nextJid := N } : State).jobsInv := by
  obtain ⟨h1, h2, h3, h4, h5⟩ := hs
  refine ⟨?_, ?_, ?_, fun n q hq => (h4 n q hq).trans_le hN, fun a ha x hx => (h5 a ha x hx).trans_le hN⟩
  · change ((s.held ++ [h]).map HeldJob.jid).Nodup
    rw [List.map_append]
    refine List.nodup_append_comm.mp (List.nodup_cons.mpr ⟨fun hm => ?_, h1⟩)
    obtain ⟨x, hx, he⟩ := List.mem_map.mp hm
    exact hnew x hx he
  · change ((s.held ++ [h]).map HeldJob.slot).Nodup
    rw [List.map_append]
    refine List.nodup_append_comm.mp (List.nodup_cons.mpr ⟨fun hm => ?_, h2⟩)
    obtain ⟨x, hx, he⟩ := List.mem_map.mp hm
    exact absurd hslot (by simpa [State.holdsSlot] using ⟨x, hx, he⟩)
  · intro x hx
    rcases List.mem_append.mp hx with hx | hx
    · exact (h3 x hx).trans_le hN
    · rw [List.mem_singleton.mp hx]; exact hjid

/-- Every step of the device keeps the jobs apart. -/
theorem State.Step.jobs {J : Nat → Prop} {N : Nat} (hJ : ∀ j, J j → j < N) {s t : State} (h : s.Step J t)
    (hs : s.jobsFrom N) : t.jobsFrom N := by
  obtain ⟨hinv, hN⟩ := hs
  have hkeep := hinv
  obtain ⟨h1, h2, h3, h4, h5⟩ := hinv
  cases h with
  | calm hc =>
    refine ⟨⟨hc.held ▸ h1, hc.held ▸ h2, ?_, fun n q hq => ?_, fun a ha x hx => ?_⟩, hc.nextJid ▸ hN⟩
    · rw [hc.held, hc.nextJid]; exact h3
    · rw [State.station, hc.stations] at hq
      rw [hc.nextJid]; exact h4 n q hq
    · rw [hc.nextJid]
      rcases hc.writes a ha x hx with ⟨b, hb, y, hy, he⟩ | ⟨y, hy, he⟩
      · exact he ▸ h5 b hb y hy
      · exact he ▸ h3 y hy
  | station n hstep =>
    obtain ⟨hq, hp⟩ := hstep.jobs
    exact ⟨State.jobsInv_setStation hkeep n (fun q hm => h4 n q (hq q hm)) hp, hN⟩
  | held hsub =>
    have hj := hsub.map Prod.fst
    have hl := hsub.map Prod.snd
    rw [List.map_map, List.map_map] at hj hl
    refine ⟨⟨hj.nodup h1, hl.nodup h2, fun x hx => ?_, h4, h5⟩, hN⟩
    obtain ⟨y, hy, he⟩ := List.mem_map.mp (hj.subset (List.mem_map.mpr ⟨x, hx, rfl⟩))
    have hy' := h3 y hy
    exact lt_of_eq_of_lt he.symm hy'
  | hold hjid hslot =>
    exact ⟨State.jobsInv_addHeld hkeep (Nat.le_succ _) (fun x hx => (hjid ▸ h3 x hx).ne)
      (hjid ▸ Nat.lt_succ_self _) hslot, hN.trans (Nat.le_succ _)⟩
  | rehold hj hnone hslot =>
    refine ⟨State.jobsInv_addHeld hkeep (Nat.le_refl _) (fun x hx he => ?_) ((hJ _ hj).trans_le hN) hslot, hN⟩
    exact absurd (List.find?_eq_none.mp hnone x hx) (by simpa using he)
  | join n hq _ =>
    refine ⟨State.jobsInv_setStation hkeep n (fun q hm => ?_) fun a ha => .inl ha, hN⟩
    rcases List.mem_append.mp hm with hm | hm
    · exact h4 n q hm
    · rw [List.mem_singleton.mp hm]; exact hq

/-- A load is steps after the time base has taken its value. -/
theorem loadTime_moves (J : Nat → Prop) (s : State) (p : Tick) :
    ({ s with tb := p, pendingLoad := none } : State).Moves J (s.loadTime p) :=
  State.Moves.mapStations .refl fun _ => .single (.cap (.invalidate ..))

/-- With HMP as after reset no access is left but those of the stations. -/
theorem State.accesses_of_reset {s : State} {k : Nat} (hp : s.hmp = { HostPort.reset with nextId := k })
    (hq : ∀ n, (s.station n).pageQ = []) : s.accesses = [] := by
  simp [State.accesses, hp, hq, HostPort.reset]

theorem State.powerReset_accesses (s : State) (lines : BitVec 4) : (s.powerReset lines).accesses = [] :=
  State.accesses_of_reset rfl fun n => by rw [State.powerReset_station]; rfl

/-- A reset leaves no job: the accesses still issued belong to nobody. -/
theorem State.takeSoftReset_writes (s : State) (lines : BitVec 4) {a : Access}
    (ha : a ∈ (s.takeSoftReset lines).accesses) : a.purpose.resultOf = none := by
  rcases State.mem_accesses.mp ha with h | h | ⟨n, h⟩ | ⟨x, hx, rfl⟩ | ⟨w, hw, rfl⟩
  · simp [State.takeSoftReset, HostPort.reset] at h
  · simp [State.takeSoftReset, HostPort.reset] at h
  · change a ∈ ((s.takeSoftReset lines).station n).pageQ at h
    rw [State.takeSoftReset_station] at h
    simp [Station.reset] at h
  · obtain ⟨y, -, rfl⟩ := List.mem_map.mp hx
    rfl
  · obtain ⟨y, -, rfl⟩ := List.mem_map.mp hw
    rfl

/-- A device with no job held, no queue and no result or DONE write has its jobs apart. -/
theorem State.jobsInv_of_none {s : State} (hheld : s.held = []) (hq : ∀ n, (s.station n).queue = [])
    (ha : ∀ a ∈ s.accesses, a.purpose.resultOf = none) : s.jobsInv := by
  refine ⟨by simp [hheld], by simp [hheld], by simp [hheld], fun n q hm => ?_, fun a hm x hx => ?_⟩
  · rw [hq n] at hm; cases hm
  · rw [ha a hm] at hx; cases hx

theorem Instr.Gives.jobs {i : Instr} {s t : State} (h : Instr.Gives i s t) (hs : s.jobsInv) : t.jobsInv := by
  have hJ : ∀ j, s.writesOf j → j < s.nextJid := by
    rintro j ⟨a, ha, x, hx, rfl⟩
    exact hs.2.2.2.2 a ha x hx
  have hmoves : ∀ {a b : State}, a.Moves s.writesOf b → a.jobsFrom s.nextJid → b.jobsFrom s.nextJid :=
    fun hm => State.Moves.keeps (P := State.jobsFrom s.nextJid) (fun hstep => hstep.jobs hJ) hm
  have hload : ∀ p, (s.loadTime p).jobsFrom s.nextJid := fun p =>
    hmoves (loadTime_moves _ s p) ⟨hs, Nat.le_refl _⟩
  cases h with
  | moves hm => exact (hmoves hm ⟨hs, Nat.le_refl _⟩).1
  | syncEdge _ _ => exact (hload _).1
  | timeLoad _ _ hm => exact (hmoves hm (hload _)).1
  | powerReset lines _ =>
    refine State.jobsInv_of_none rfl (fun n => ?_) fun a ha => ?_
    · rw [State.powerReset_station]; rfl
    · rw [State.powerReset_accesses] at ha; cases ha
  | softReset lines =>
    refine State.jobsInv_of_none rfl (fun n => ?_) fun a ha => State.takeSoftReset_writes s lines ha
    rw [State.takeSoftReset_station]; rfl

/-- Settles O59: a job is held under the next number or again under that of a result or DONE write, and in a
slot no held job has. -/
theorem everyStepKeepsJobsApart : Obligations.EveryStepKeepsJobsApart := fun _ _ hs h =>
  step_keeps (P := State.jobsInv) (fun _ _ hs => hs) (fun _ hs => hs) (fun hg hs => hg.jobs hs) hs h

/-- Settles O60. -/
theorem resetHasInvariants : Obligations.ResetHasInvariants := by
  have hst : ∀ n, State.reset.station n = Station.reset := fun n => by simp [State.reset, State.station]
  refine ⟨fun n => ?_, ⟨fun n => ?_, State.reset_deviceBounds⟩, fun n => ?_,
    State.jobsInv_of_none rfl (fun n => ?_) fun a ha => ?_⟩
  · rw [hst]; exact Capture.bounded_reset
  · rw [hst]; exact Station.bounded_reset
  · rw [hst]; exact Station.listed_reset
  · rw [hst]; rfl
  · rw [State.accesses_of_reset (k := 0) rfl fun n => by rw [hst]; rfl] at ha
    cases ha

/-! ## Every command -/

/-- Settles O1. -/
theorem stepRunsFrontCommand : Obligations.StepRunsFrontCommand := by
  intro s c rest h
  simp only [step, h]

/-- Settles O2: the time base counts on modulo 2^48, the width of its word. -/
theorem idleStepCountsOneTick : Obligations.IdleStepCountsOneTick := by
  intro s h
  refine ⟨s.tick, by simp only [step, h], ?_, rfl, rfl⟩
  simp [State.tick, BitVec.toNat_add]

/-- The device's steps leave the waiting commands and the time base alone. -/
theorem State.Step.queue_time {J : Nat → Prop} {s t : State} (h : s.Step J t) :
    t.pending = s.pending ∧ t.tb = s.tb := by
  cases h with
  | calm hc => exact ⟨hc.pending, hc.tb⟩
  | _ => exact ⟨rfl, rfl⟩

theorem State.Moves.queue_time {J : Nat → Prop} {s t : State} (h : s.Moves J t) :
    t.pending = s.pending ∧ t.tb = s.tb :=
  State.Moves.keeps (P := fun u => u.pending = s.pending ∧ u.tb = s.tb)
    (fun hstep hu => ⟨hstep.queue_time.1.trans hu.1, hstep.queue_time.2.trans hu.2⟩) h ⟨rfl, rfl⟩

/-- Settles O3: what a command gives keeps the commands that wait. -/
theorem everyCommandAnswersAndKeepsQueue : Obligations.EveryCommandAnswersAndKeepsQueue := by
  intro i s
  obtain ⟨t, ht, hg⟩ := exec_gives i s
  refine ⟨t, ht, ?_⟩
  cases hg with
  | moves hm => exact hm.queue_time.1
  | syncEdge _ _ => rfl
  | timeLoad _ _ hm => exact hm.queue_time.1
  | powerReset lines _ => rfl
  | softReset lines => rfl

/-- Settles O27: of what a command gives, only a load and a power-on reset write the time base. -/
theorem onlyLoadsChangeTimeBase : Obligations.OnlyLoadsChangeTimeBase := by
  intro i s t ht hne
  obtain ⟨u, hu, hg⟩ := exec_gives i s
  rw [hu] at ht
  cases ht
  cases hg with
  | moves hm => exact absurd hm.queue_time.2 hne
  | syncEdge hi hp => exact .inr (.inl ⟨hi, hp⟩)
  | @timeLoad p _ hl hp hm =>
    have htb : t.tb.toNat = p.toNat := by
      rw [hm.queue_time.2]
      exact (BitVec.toNat_setWidth ..).trans (Nat.mod_eq_of_lt hp)
    rcases hl with ⟨id, h, rfl⟩ | ⟨id, d, rfl, hj⟩
    · exact .inr (.inr (.inl ⟨id, h, p, rfl, htb⟩))
    · exact .inr (.inr (.inr ⟨id, d, p, rfl, hj, htb⟩))
  | powerReset lines hi => exact .inl ⟨lines, hi⟩
  | softReset lines => exact absurd rfl hne

end Sys2Proof.Machine
end

section
/-! The register window and the resets (Chapter 10, R164, R171, R181, R182). -/

namespace Sys2Proof.Machine

/-! ## What the registers read -/

/-- CONTROL reads RUN in bit 0 and the mask from bit 16 on (Table 12-1). -/
theorem readRegister_control_getLsbD (s : State) (i : Fin 32) : (s.readRegister .control).getLsbD i.val
    = if i.val = 0 then s.run else decide (16 ≤ i.val) && s.attMask.getLsbD (i.val - 16) := by
  have hrun : bit s.run < 2 ^ 16 := by cases s.run <;> decide
  change (BitVec.ofNat 32 (bit s.run + 65536 * s.attMask.toNat)).getLsbD i.val = _
  rw [BitVec.getLsbD_ofNat, Nat.add_comm, show (65536 : Nat) = 2 ^ 16 from rfl,
    Nat.testBit_two_pow_mul_add _ hrun]
  by_cases h0 : i.val = 0
  · rw [h0]; cases s.run <;> rfl
  · by_cases hlo : i.val < 16
    · have hbit : (bit s.run).testBit i.val = false := by
        refine Nat.testBit_lt_two_pow (lt_of_lt_of_le ?_ (Nat.pow_le_pow_right (n := 2) (by decide) (Nat.pos_of_ne_zero h0)))
        cases s.run <;> decide
      simp [h0, hlo, hbit, Nat.not_le.mpr hlo]
    · simp [h0, hlo, Nat.not_lt.mp hlo, BitVec.getLsbD]

/-- STATUS reads its codes, which lie within 16 bits. -/
theorem readRegister_status_toNat (s : State) : (s.readRegister .status).toNat
    = s.runState.code + 16 * s.startCheck.code + 256 * s.faultClass.code + 4096 * s.faultStation.val := by
  have h1 : s.runState.code ≤ 2 := by cases s.runState <;> decide
  have h2 : s.startCheck.code ≤ 7 := by cases s.startCheck <;> decide
  have h3 : s.faultClass.code ≤ 3 := by cases s.faultClass <;> decide
  have h4 := s.faultStation.isLt
  change (BitVec.ofNat 32 _).toNat = _
  rw [BitVec.toNat_ofNat, Nat.mod_eq_of_lt (by omega)]

/-- Settles O7. -/
theorem plainRegisterWrites : Obligations.PlainRegisterWrites := by
  refine ⟨⟨fun s v => ⟨_, rfl, rfl, fun i => ?_⟩, fun s v => ⟨rfl, rfl⟩, fun s r v hlow hhigh => ?_⟩,
    fun s => ⟨readRegister_control_getLsbD s, ?_, rfl, rfl, rfl, fun i => ?_, ?_,
      fun v => ⟨⟨_, rfl, rfl⟩, ⟨_, rfl, rfl⟩⟩⟩⟩
  · have := i.isLt
    simp [this]
  · cases r with
    | areaBaseLow => exact absurd rfl hlow
    | areaBaseHigh => exact absurd rfl hhigh
    | _ => rfl
  · rw [readRegister_status_toNat]
    unfold RunState.code StartCheck.code FaultClass.code
    rfl
  · simp [State.readRegister]
  · simp only [State.readRegister]
    ext i hi
    rw [BitVec.getElem_append]
    split
    · simp [BitVec.getLsbD_eq_getElem hi]
    · simp [show 32 + (i - 32) = i by omega, BitVec.getLsbD_eq_getElem hi]

/-! ## Resets -/

/-- After a reset every register reads 0 (R164). -/
theorem readRegister_powerReset (s : State) (lines : BitVec 4) (r : Reg) :
    (s.powerReset lines).readRegister r = 0 := by
  cases r with
  | faultAddressHigh => exact congrArg (BitVec.setWidth 32) (BitVec.zero_ushiftRight ..)
  | _ => rfl

/-- With no attention bit set ATTN is inactive. -/
theorem attnActive_of_none {s : State} (h : s.attention = 0) : s.attnActive = false := by
  simp [State.attnActive, h]

theorem outputOf_reset {α : Type} {s : State} (hs : ∀ n, s.station n = Station.reset) (c : ConnectorNo)
    {rest : α} {f : Station → α} (hf : f Station.reset = rest) : s.outputOf c rest f = rest := by
  unfold State.outputOf
  split
  · rw [hs, hf]
  · rfl

/-- Settles O4. -/
theorem powerOnResetClearsEverything : Obligations.PowerOnResetClearsEverything := by
  have hst := State.powerReset_station
  refine ⟨fun s lines => ⟨_, rfl, readRegister_powerReset s lines, attnActive_of_none rfl, rfl, rfl, rfl, rfl, rfl, rfl, rfl, rfl,
    rfl, rfl, rfl, rfl, rfl, rfl, rfl, ?_, rfl, rfl, rfl, rfl, rfl, rfl, rfl, rfl, rfl, hst s lines, rfl, rfl⟩,
    fun s lines => ⟨_, rfl, fun c => ⟨outputOf_reset (hst s lines) c rfl, outputOf_reset (hst s lines) c rfl,
      outputOf_reset (hst s lines) c rfl, outputOf_reset (hst s lines) c rfl⟩⟩⟩
  change ∀ n : StationNo, (#v[0, 1, 2, 3, 4, 5, 6, 7] : Vector ConnectorNo 8)[n.val] = n
  decide

/-- Settles O5: the reset state with the map, the time base and the accesses issued, disowned. -/
theorem softResetKeepsMapAndTime : Obligations.SoftResetKeepsMapAndTime := by
  intro s v lines hv
  have hexec : exec (.softReset v lines) s = .next (s.takeSoftReset lines) := by
    change Host.Outcome.next (s.takeControl v lines) = _
    rw [State.takeControl, if_pos hv]
  refine ⟨_, hexec, readRegister_powerReset s lines, attnActive_of_none rfl, rfl, rfl, rfl, rfl, rfl, rfl, rfl, rfl, rfl, rfl, rfl,
    rfl, rfl, rfl, rfl, rfl, rfl, rfl, rfl, rfl, rfl, rfl, rfl, rfl, rfl, State.takeSoftReset_station s lines, rfl,
    ?_, fun x hx => ?_, ?_⟩
  · exact List.map_map.trans (List.map_congr_left fun x _ => rfl)
  · obtain ⟨y, -, rfl⟩ := List.mem_map.mp hx
    rfl
  · exact List.map_map.trans (List.map_congr_left fun w _ => rfl)

end Sys2Proof.Machine
end

section
/-! Starts and halts (Chapter 10, R165 to R169, R159). -/

namespace Sys2Proof.Machine

/-! ## RUN set and cleared (R165) -/

namespace State
variable {s : State} {v : Word32}

/-- A CONTROL write without SOFT RESET that changes RUN, where no resumption acts afterwards. -/
theorem writeControl_changed (hne : regBit v 0 ≠ s.run) {u : State}
    (hu : (if regBit v 0 then ({ s with attMask := maskOf v } : State).setRun
      else ({ s with attMask := maskOf v } : State).clearRun) = u)
    (hno : ¬ (regBit v 1 = true ∧ u.runState = .faulted ∧ u.run = true)) : s.writeControl v = u := by
  unfold State.writeControl
  simp only [if_neg hne, hu, if_neg hno]

theorem beginStart_aligned (h : s.areaBase.toNat % 64 = 0) : s.beginStart =
    ({ s with start := .reading } : State).presentSweep (Access.readOf .sweep none s.areaBase 64 .descriptorRead) :=
  if_pos h

theorem beginStart_misaligned (h : s.areaBase.toNat % 64 ≠ 0) : s.beginStart = s.failStart .alignment :=
  if_neg h

@[simp] theorem beginStart_runState (s : State) : s.beginStart.runState = s.runState := by
  unfold State.beginStart; split <;> rfl

@[simp] theorem beginStart_stations (s : State) : s.beginStart.stations = s.stations := by
  unfold State.beginStart; split <;> rfl

/-- A start at an aligned address reads the descriptor. -/
theorem beginStart_reads (h : s.areaBase.toNat % 64 = 0) :
    s.beginStart.run = s.run ∧ s.beginStart.start = .reading ∧ s.beginStart.attention = s.attention
      ∧ s.beginStart.startCheck = s.startCheck
      ∧ s.beginStart.hmp.sweepQ = s.hmp.sweepQ ++ [Access.readOf .sweep none s.areaBase 64 .descriptorRead] := by
  rw [beginStart_aligned h]
  exact ⟨rfl, rfl, rfl, rfl, rfl⟩

/-- A start at another address fails ALIGNMENT, with no access made. -/
theorem beginStart_fails (h : s.areaBase.toNat % 64 ≠ 0) :
    s.beginStart.run = false ∧ s.beginStart.start = .none ∧ s.beginStart.startCheck = .alignment
      ∧ s.beginStart.attention = s.attention ||| Attn.areaInvalid.mask
      ∧ s.beginStart.hmp.sweepQ = s.hmp.sweepQ := by
  rw [beginStart_misaligned h]
  exact ⟨rfl, rfl, rfl, rfl, rfl⟩

theorem setRun_stopped (hst : s.runState = .stopped) (hno : s.start = .none) :
    s.setRun = ({ s with run := true } : State).beginStart := by
  unfold State.setRun; simp only [hst, hno, if_true]

theorem setRun_running (hst : s.runState = .running) : s.setRun = { s with run := true } := by
  unfold State.setRun; simp only [hst]

theorem setRun_faulted (hst : s.runState = .faulted) :
    s.setRun = ({ ({ s with run := true } : State).leaveFaulted with dealAtStart := true } : State).beginStart := by
  unfold State.setRun; simp only [hst]

/-- What becomes of a station's pages when the device leaves FAULTED (R159). -/
theorem leaveFaulted_station (s : State) (n : StationNo) :
    s.leaveFaulted.station n = forgetPage (s.station n) := State.mapStations_station ..

theorem pages_forgotten {u : State} {n : StationNo} {t : Station} (h : u.station n = forgetPage t) :
    (u.station n).pg.page = none ∧ (u.station n).pg.detached = none ∧ (u.station n).cap = t.cap := by
  rw [h]
  exact ⟨rfl, rfl, rfl⟩

/-- Whether a seal write waits depends on the stations alone. -/
theorem sealsWait_congr {s t : State} (h : t.stations = s.stations) : t.sealsWait = s.sealsWait := by
  unfold State.sealsWait State.station
  rw [h]

/-! ## The issue of a seal write (R156, R169) -/

end State

theorem finishQuiesce_att (k : Nat) (c : Ctx) : (finishQuiesce k c).att = c.att := by
  unfold finishQuiesce endHead
  split <;> rfl

/-- What QUIESCE's end at a station leaves alone. -/
theorem State.finishQuiesce_frame (s : State) (n : StationNo) (k : Nat) :
    ∃ stations held jobQ, s.withStation n (fun _ => finishQuiesce k) =
      { s with stations := stations, held := held, hmp := { s.hmp with jobQ := jobQ } } := by
  obtain ⟨held, jobQ, h⟩ := s.withStation_frame n fun _ => finishQuiesce k
  rw [finishQuiesce_att] at h
  exact ⟨_, held, jobQ, h⟩

theorem State.quiesceCheck_frame (s : State) (n : StationNo) :
    ∃ stations held jobQ, s.quiesceCheck n =
      { s with stations := stations, held := held, hmp := { s.hmp with jobQ := jobQ } } := by
  unfold State.quiesceCheck
  split
  · exact s.finishQuiesce_frame n 0
  · exact ⟨s.stations, s.held, s.hmp.jobQ, rfl⟩

/-- The issue of a seal or FILLING write changes the stations, the held jobs and the waiting JOB accesses
alone, and sets PAGE SEALED where it is a FULL write. -/
theorem State.issueEffect_seal (s : State) (n : StationNo) (addr : Word64) (d : List Byte) {w : Purpose}
    (hw : w.isSeal = true) : ∃ stations held jobQ,
      s.issueEffect (Access.writeOf .page (some n) addr d w) =
        { s with stations := stations, held := held, hmp := { s.hmp with jobQ := jobQ }
                 attention := s.attention ||| (if w = .sealFull true ∨ w = .sealFull false then
                   Attn.pageSealed.mask else 0) } := by
  cases w with
  | sealPart => exact ⟨s.stations, s.held, s.hmp.jobQ, by simp [State.issueEffect, Access.writeOf]⟩
  | filling => exact ⟨s.stations, s.held, s.hmp.jobQ, by simp [State.issueEffect, Access.writeOf]⟩
  | sealFull det =>
    cases det with
    | true => exact ⟨_, s.held, s.hmp.jobQ, rfl⟩
    | false =>
      have hu : ∀ u : State, (∃ stations held jobQ, u =
          { (s.modPage n fun g => { g with
              page := none, sealing := none, inHand := none
              mark := g.mark.filter fun m => m.count != 0 }).setAttn .pageSealed with
            stations := stations, held := held, hmp := { s.hmp with jobQ := jobQ } }) →
          ∃ stations held jobQ, u = { s with
            stations := stations, held := held, hmp := { s.hmp with jobQ := jobQ }
            attention := s.attention ||| (if (Purpose.sealFull false) = .sealFull true
              ∨ (Purpose.sealFull false) = .sealFull false then Attn.pageSealed.mask else 0) } :=
        fun u ⟨x, y, z, h⟩ => ⟨x, y, z, h⟩
      refine hu _ ?_
      change ∃ stations held jobQ, s.pageSealed n = _
      unfold State.pageSealed
      dsimp only
      split
      · exact State.finishQuiesce_frame _ n _
      · exact State.quiesceCheck_frame _ n
  | _ => cases hw

/-- The state in which the issue of a PAGE write takes effect: the write has left its station's queue and
joined the writes. -/
def State.pageIssued (s : State) (n : StationNo) (a : Access) : State :=
  { s.modStation n fun t => { t with pageQ := t.pageQ.erase a } with
    hmp := { s.hmp with
      classPtr := .page, stationPtr := n, burst := min 3 (s.hmp.burst + 1)
      writes := s.hmp.writes ++ [⟨s.hmp.nextId, a, false⟩], nextId := s.hmp.nextId + 1 } }

theorem State.grant_page (s : State) (n : StationNo) (addr : Word64) (d : List Byte) (w : Purpose) :
    s.grant (Access.writeOf .page (some n) addr d w) =
      ((s.pageIssued n (Access.writeOf .page (some n) addr d w)).issueEffect
        (Access.writeOf .page (some n) addr d w)).settleSeals := rfl

theorem State.arbitrate_of_next {s : State} {a : Access} (h : s.nextGrant = some a) : s.arbitrate = s.grant a := by
  unfold State.arbitrate
  rw [h]

/-- The end of a halt with RUN 1 begins a start (R169). -/
theorem State.finishHalt_run {s : State} (h : s.run = true) :
    s.finishHalt = ({ s with runState := .stopped, halting := false } : State).beginStart := by
  unfold State.finishHalt; exact if_pos h

theorem State.settleSeals_haltRun {s : State} (hh : s.halting = true) (hr : s.run = true) :
    s.settleSeals = if s.sealsWait then s
      else ({ s with runState := .stopped, halting := false } : State).beginStart := by
  unfold State.settleSeals
  rw [if_pos hh, State.finishHalt_run hr]

/-! ## Starts -/

/-- The start that a write of RUN 1 in STOPPED begins (R165, R167). -/
theorem startsInStopped {s : State} {v : Word32} (h0 : regBit v 0 = true) (h2 : regBit v 2 = false)
    (hrun : s.run = false) (hst : s.runState = .stopped) (hno : s.start = .none) :
    exec (.start v) s = .next ({ s with run := true, attMask := maskOf v } : State).beginStart := by
  refine congrArg Host.Outcome.next ((State.takeControl_of_noSoftReset s.lines h2).trans
    (State.writeControl_changed (by simp [h0, hrun]) ?_ ?_))
  · rw [if_pos h0]; exact State.setRun_stopped hst hno
  · rintro ⟨-, hf, -⟩
    rw [State.beginStart_runState] at hf
    exact absurd (hst.symm.trans hf) (by decide)

/-- RUN set in FAULTED: the pages are forgotten and a start that deals with the marked jobs begins
(R184). -/
theorem startsInFaulted {s : State} {v : Word32} (h0 : regBit v 0 = true) (h2 : regBit v 2 = false)
    (hrun : s.run = false) (hst : s.runState = .faulted) :
    exec (.start v) s = .next ({ ({ s with run := true, attMask := maskOf v } : State).leaveFaulted with
      dealAtStart := true } : State).beginStart := by
  refine congrArg Host.Outcome.next ((State.takeControl_of_noSoftReset s.lines h2).trans
    (State.writeControl_changed (by simp [h0, hrun]) ?_ ?_))
  · rw [if_pos h0]; exact State.setRun_faulted hst
  · rintro ⟨-, hf, -⟩
    rw [State.beginStart_runState] at hf
    cases hf

/-- RUN set during a halt sets the bit alone (R169). -/
theorem startsInHalt {s : State} {v : Word32} (h0 : regBit v 0 = true) (h1 : regBit v 1 = false)
    (h2 : regBit v 2 = false) (hrun : s.run = false) (hst : s.runState = .running) :
    exec (.start v) s = .next { s with run := true, attMask := maskOf v } := by
  refine congrArg Host.Outcome.next ((State.takeControl_of_noSoftReset s.lines h2).trans
    (State.writeControl_changed (by simp [h0, hrun]) ?_ (by simp [h1])))
  rw [if_pos h0]; exact State.setRun_running hst

/-- The issue of a seal write in a halt whose RUN is 1 again: while another seal waits the halt goes on, and
at the last one the owed start begins (R169). -/
theorem haltSealIssued {s : State} {n : StationNo} {addr : Word64} {d : List Byte} {w : Purpose}
    (hst : s.runState = .running) (hhalt : s.halting = true) (hrun : s.run = true) (hw : w.isSeal = true)
    (hg : s.nextGrant = some (Access.writeOf .page (some n) addr d w)) :
    ∃ u : State, u.runState = .running ∧ u.halting = true ∧ u.run = true ∧ u.start = s.start
      ∧ u.attention = s.attention ||| (if w = .sealFull true ∨ w = .sealFull false then
          Attn.pageSealed.mask else 0)
      ∧ u.hmp.sweepQ = s.hmp.sweepQ ∧ u.areaBase = s.areaBase ∧ u.startCheck = s.startCheck
      ∧ s.arbitrate = if u.sealsWait then u
          else ({ u with runState := .stopped, halting := false } : State).beginStart := by
  obtain ⟨stations, held, jobQ, hu⟩ :=
    (s.pageIssued n (Access.writeOf .page (some n) addr d w)).issueEffect_seal n addr d hw
  refine ⟨(s.pageIssued n (Access.writeOf .page (some n) addr d w)).issueEffect
    (Access.writeOf .page (some n) addr d w), ?_⟩
  rw [State.arbitrate_of_next hg, State.grant_page, hu]
  exact ⟨hst, hhalt, hrun, rfl, rfl, rfl, rfl, rfl, State.settleSeals_haltRun hhalt hrun⟩

/-- Settles O8. -/
theorem startReadsDescriptor : Obligations.StartReadsDescriptor := by
  refine ⟨⟨fun s v h0 h2 hrun hst hno => ⟨fun ha => ?_, fun ha => ?_⟩,
    fun s v h0 h1 h2 hrun hst => startsInHalt h0 h1 h2 hrun hst, fun s v h0 h2 hrun hst ha => ?_⟩,
    fun s n addr d w hst hhalt hrun hw hg => ?_⟩
  · exact ⟨_, startsInStopped h0 h2 hrun hst hno, State.beginStart_aligned ha⟩
  · refine ⟨_, startsInStopped h0 h2 hrun hst hno,
      (State.beginStart_misaligned (s := { s with run := true, attMask := maskOf v }) ha).trans ?_⟩
    unfold State.failStart State.setAttn
    rw [← hno]
  · have hstart := State.beginStart_aligned
      (s := { ({ s with run := true, attMask := maskOf v } : State).leaveFaulted with dealAtStart := true }) ha
    refine ⟨_, (startsInFaulted h0 h2 hrun hst).trans (congrArg _ hstart), ?_⟩
    refine ⟨rfl, rfl, rfl, rfl, rfl, rfl, rfl, fun n => ?_⟩
    exact State.pages_forgotten (State.leaveFaulted_station { s with run := true, attMask := maskOf v } n)
  · obtain ⟨u, h1, h2, h3, h4, h5, h6, h7, h8, hex⟩ := haltSealIssued hst hhalt hrun hw hg
    refine ⟨s.arbitrate, rfl, fun ht => ?_, fun ht => ?_⟩
    · by_cases hwait : u.sealsWait = true
      · rw [hex, if_pos hwait]
        exact ⟨h1, h2, h3, h4, h5, h6⟩
      · rw [hex, if_neg hwait, State.sealsWait_congr (State.beginStart_stations _)] at ht
        exact absurd ht hwait
    · by_cases hwait : u.sealsWait = true
      · rw [hex, if_pos hwait, hwait] at ht
        cases ht
      · rw [hex, if_neg hwait]
        refine ⟨State.beginStart_runState _, ?_, fun ha => ?_, fun ha => ?_⟩
        · unfold State.beginStart; split <;> rfl
        · obtain ⟨g1, g2, g3, g4, g5⟩ := State.beginStart_reads
            (s := { u with runState := .stopped, halting := false }) ((congrArg (fun a => a.toNat % 64) h7).trans ha)
          exact ⟨g1.trans h3, g2, g3.trans h5, g4.trans h8, g5.trans (by
            rw [show ({ u with runState := .stopped, halting := false } : State).areaBase = s.areaBase from h7]
            exact congrArg (· ++ _) h6)⟩
        · obtain ⟨g1, g2, g3, g4, g5⟩ := State.beginStart_fails
            (s := { u with runState := .stopped, halting := false })
            (fun e => ha ((congrArg (fun a => a.toNat % 64) h7).symm.trans e))
          exact ⟨g1, g2, g3, g4.trans (congrArg (· ||| _) h5), g5.trans h6⟩

end Sys2Proof.Machine
end

section
/-! Sweeps (R173, R180) and the clearing of RUN (R159, R165, R169). -/

namespace Sys2Proof.Machine

/-! ## Sweeps -/

namespace State
variable {s : State}

@[simp] theorem Area.slot_zero (a : Area) : a.slot 0 = a.jobBoard := by simp [Area.slot]

/-- A sweep begins with the read of slot 0's state (R173). -/
theorem beginSweep_area {a : Area} (ha : s.area = some a) (first : Bool) :
    s.beginSweep first = { s with
      stations := Vector.ofFn fun n =>
        { s.station n with pg := { (s.station n).pg with starved := false } }
      sweep := { s.sweep with first := first, blocked := 0, phase := .readingState 0 }
      hmp := { s.hmp with sweepQ := s.hmp.sweepQ ++ [Access.readOf .sweep none a.jobBoard 1 (.slotState 0)] } } := by
  unfold State.beginSweep
  rw [ha]
  simp only [State.readSlotState, Area.slot_zero]
  rfl

theorem beginSweep_station {a : Area} (ha : s.area = some a) (first : Bool) (n : StationNo) :
    (s.beginSweep first).station n
      = { s.station n with pg := { (s.station n).pg with starved := false } } := by
  rw [beginSweep_area ha]
  simp [State.station]

/-- What the begin of a sweep leaves, part by part. -/
theorem beginSweep_parts {a : Area} (ha : s.area = some a) (first : Bool) :
    (s.beginSweep first).sweep = { s.sweep with first := first, blocked := 0, phase := .readingState 0 }
      ∧ (s.beginSweep first).hmp.sweepQ
          = s.hmp.sweepQ ++ [Access.readOf .sweep none a.jobBoard 1 (.slotState 0)]
      ∧ ∀ n, (s.beginSweep first).station n
          = { s.station n with pg := { (s.station n).pg with starved := false } } :=
  ⟨by rw [beginSweep_area ha], by rw [beginSweep_area ha], beginSweep_station ha first⟩

theorem requestSweep_idle (h : s.sweep.phase = .idle) (first : Bool) :
    s.requestSweep first = s.beginSweep first := if_pos h

theorem requestSweep_busy (h : s.sweep.phase ≠ .idle) (first : Bool) :
    s.requestSweep first = { s with sweep := { s.sweep with pending := true } } := if_neg h

theorem startSweepTimer_area {a : Area} (ha : s.area = some a) :
    s.startSweepTimer = { s with sweep := { s.sweep with timer := some (s.elapsed + a.sweepUs * 100) } } := by
  unfold State.startSweepTimer
  rw [ha]

@[simp] theorem startSweepTimer_phase (s : State) : s.startSweepTimer.sweep.phase = s.sweep.phase := by
  unfold State.startSweepTimer; split <;> rfl

theorem draining_iff : s.draining = true ↔ s.runState = .running ∧ s.halting = false := by
  simp [State.draining]

theorem nextSlot_area {a : Area} (ha : s.area = some a) (i : Nat) :
    s.nextSlot i = if i + 1 < a.slotCount then s.readSlotState a (i + 1) else s.finishSweep := by
  unfold State.nextSlot
  rw [ha]

end State

theorem exec_wake (v : Word32) (s : State) :
    exec (.wake v) s = .next (if s.draining then s.requestSweep false else s) := by rfl

theorem exec_sweepTimerExpiry (s : State) : exec .sweepTimerExpiry s
    = .next (if due s.sweep.timer s.elapsed then s.startSweepTimer.requestSweep false else s) := by rfl

/-- Settles O13. -/
theorem sweepRequestsBeginOrPend : Obligations.SweepRequestsBeginOrPend := by
  refine ⟨fun s v hst => ?_, fun s v hst hhalt hph => ?_, fun s a ha hdue hph => ?_,
    fun s a c ha hph hc => ?_⟩
  · rw [exec_wake, if_neg fun h => hst (State.draining_iff.mp h).1]
  · rw [exec_wake, if_pos (State.draining_iff.mpr ⟨hst, hhalt⟩), State.requestSweep_busy hph]
  · rw [exec_sweepTimerExpiry, if_pos hdue,
      State.requestSweep_busy (by rwa [State.startSweepTimer_phase]), State.startSweepTimer_area ha]
  · rcases hc with ⟨⟨v, rfl⟩, hst, hhalt⟩ | ⟨rfl, hdue⟩
    · refine ⟨s.beginSweep false, ?_, ?_⟩
      · rw [exec_wake, if_pos (State.draining_iff.mpr ⟨hst, hhalt⟩), State.requestSweep_idle hph]
      · refine ⟨?_, ?_, ?_, ?_, ?_, ?_, State.beginSweep_station ha false⟩ <;>
          rw [State.beginSweep_area ha] <;> rfl
    · refine ⟨s.startSweepTimer.beginSweep false, ?_, ?_⟩
      · rw [exec_sweepTimerExpiry, if_pos hdue, State.requestSweep_idle (by rwa [State.startSweepTimer_phase])]
      · have hb := State.beginSweep_area (s := s.startSweepTimer) (a := a)
          (by rw [State.startSweepTimer_area ha]; exact ha) false
        rw [hb, State.startSweepTimer_area ha]
        refine ⟨rfl, rfl, rfl, rfl, rfl, rfl, fun n => ?_⟩
        simp [State.station]

/-! ## The state of a slot (R173, R180) -/

/-- An awaited slot state arrives. -/
theorem slotStateReadDone_awaited {s : State} {a : Area} {id i : Nat} {b : Byte}
    (hw : s.awaits id ⟨.sweep, none, a.slot i, 1, none, .slotState i⟩) :
    exec (.slotStateReadDone id [b]) s = .next (((s.endRead id).slotStateArrives [b]
      ⟨.sweep, none, a.slot i, 1, none, .slotState i⟩).getD s) :=
  congrArg Host.Outcome.next (State.completeRead_awaited hw rfl nofun)

theorem field_byte (b : Byte) : field [b] 0 1 = b.toNat := by
  simp [field, leNat]

theorem byte_eq_iff {b : Byte} {k : Nat} (hk : k < 256) : b.toNat = k ↔ b = BitVec.ofNat 8 k := by
  rw [← BitVec.toNat_inj, BitVec.toNat_ofNat, Nat.mod_eq_of_lt hk]

/-- What the state of a slot decides (R173, R180). -/
theorem slotStateArrives_byte {r : State} {a : Area} (ha : r.area = some a) (i : Nat) (b : Byte) (x : Access)
    (hx : x.purpose = .slotState i) : r.slotStateArrives [b] x = some (
      if b = 1 ∧ r.holdsSlot (a.slot i) = false then r.readSlotWhole a i false
      else if b = 2 ∧ r.sweep.first = true ∧ r.holdsSlot (a.slot i) = false then r.readSlotWhole a i true
      else r.nextSlot i) := by
  unfold State.slotStateArrives
  rw [hx, ha]
  simp only [field_byte, byte_eq_iff (show 1 < 256 by decide), byte_eq_iff (show 2 < 256 by decide)]
  rw [apply_ite some, apply_ite some]
  rfl

/-- Settles O14. -/
theorem slotStateDecidesSlot : Obligations.SlotStateDecidesSlot := by
  intro s a id i b ha hw r free posted orphan
  have har : r.area = some a := ha
  have hexec : exec (.slotStateReadDone id [b]) s = .next (
      if b = 1 ∧ r.holdsSlot (a.slot i) = false then r.readSlotWhole a i false
      else if b = 2 ∧ r.sweep.first = true ∧ r.holdsSlot (a.slot i) = false then r.readSlotWhole a i true
      else r.nextSlot i) := by
    rw [slotStateReadDone_awaited hw, slotStateArrives_byte har i b _ rfl]
    rfl
  have hposted : posted = true ↔ b = 1 ∧ r.holdsSlot (a.slot i) = false := by
    simp only [posted, free, Bool.and_eq_true, beq_iff_eq, Bool.not_eq_true']
    rfl
  have horphan : orphan = true ↔ b = 2 ∧ r.sweep.first = true ∧ r.holdsSlot (a.slot i) = false := by
    simp only [orphan, free, Bool.and_eq_true, beq_iff_eq, Bool.not_eq_true', and_assoc]
    rfl
  have hnext : (!posted && !orphan) = true → exec (.slotStateReadDone id [b]) s = .next (r.nextSlot i) := by
    intro h
    simp only [Bool.and_eq_true, Bool.not_eq_true'] at h
    rw [hexec, if_neg (fun e => by simp [hposted.mpr e] at h), if_neg (fun e => by simp [horphan.mpr e] at h)]
  refine ⟨fun h => ?_, fun h hi => ?_, fun h hi hp => ?_, fun h hi hp => ?_⟩
  · rw [hexec]
    by_cases hp : posted = true
    · have ho : orphan = false := by
        have hb := (hposted.mp hp).1
        simp [orphan, hb]
      rw [if_pos (hposted.mp hp), ho]
      rfl
    · have ho : orphan = true := by simpa [hp] using h
      rw [if_neg (fun e => hp (hposted.mpr e)), if_pos (horphan.mp ho), ho]
      rfl
  · rw [hnext h, State.nextSlot_area har, if_pos hi]
    rfl
  · rw [hnext h, State.nextSlot_area har, if_neg (by omega)]
    have hidle : ({ s.sweep with phase := .idle } : Sweep) = { s.sweep with phase := .idle, pending := false } := by
      rw [← hp]
    rw [hidle]
    exact congrArg Host.Outcome.next (if_neg (by rw [show r.sweep.pending = false from hp]; decide))
  · refine ⟨_, hnext h, ?_⟩
    rw [State.nextSlot_area har, if_neg (by omega)]
    have hfin : r.finishSweep
        = ({ r with sweep := { r.sweep with phase := .idle, pending := false } } : State).beginSweep false := by
      unfold State.finishSweep
      exact if_pos hp
    obtain ⟨hsweep, hq, hstation⟩ := State.beginSweep_parts
      (s := { r with sweep := { r.sweep with phase := .idle, pending := false } }) har false
    rw [hfin]
    refine ⟨hsweep, hq.trans ?_, fun n => ?_⟩
    · rw [State.Area.slot_zero]; rfl
    · rw [hstation]

/-! ## RUN cleared -/

namespace State
variable {s : State}

theorem station_congr {s t : State} (h : t.stations = s.stations) (n : StationNo) : t.station n = s.station n := by
  unfold State.station; rw [h]

theorem eachSeal_station (s : State) (why : SealReason) (n : StationNo) :
    (s.eachStation fun s n => s.beginSeal n why).station n = sealStation n why (s.station n) :=
  eachStation_station (fun n => sealStation n why) s n

theorem eachSeal_frame (s : State) (why : SealReason) : (s.eachStation fun s n => s.beginSeal n why)
    = { s with stations := (s.eachStation fun s n => s.beginSeal n why).stations } :=
  foldStations_frame (fun n => sealStation n why) allStations s

theorem mapPages_station (s : State) (f : PageState → PageState) (n : StationNo) :
    (s.mapPages f).station n = { s.station n with pg := f (s.station n).pg } := State.mapStations_station ..

theorem freezePages_station (s : State) (n : StationNo) : s.freezePages.station n = cutPage (s.station n) :=
  (station_congr (t := s.freezePages) rfl n).trans (State.mapStations_station s cutPage n)

/-- The device of a halt with every page cut off (R159, R169). -/
def frozenForHalt (s : State) : State :=
  s.endSweeping.freezePages.mapPages fun g => { g with starved := false, episode := false }

theorem endSweeping_frame (s : State) :
    s.endSweeping = { s with sweep := s.endSweeping.sweep, hmp := s.endSweeping.hmp } := by rfl

theorem freezePages_frame (s : State) : s.freezePages =
    { s with stations := s.freezePages.stations, hmp := s.freezePages.hmp, acq := none } := by rfl

theorem mapPages_frame (s : State) (f : PageState → PageState) :
    s.mapPages f = { s with stations := (s.mapPages f).stations } := by rfl

theorem frozenForHalt_frame (s : State) : s.frozenForHalt = { s with
    stations := s.frozenForHalt.stations, hmp := s.frozenForHalt.hmp, acq := none
    sweep := s.frozenForHalt.sweep } := by
  have hsteps : ∀ x y z : State, x = { s with sweep := x.sweep, hmp := x.hmp } →
      y = { x with stations := y.stations, hmp := y.hmp, acq := none } →
      z = { y with stations := z.stations } →
      z = { s with stations := z.stations, hmp := z.hmp, acq := none, sweep := z.sweep } := by
    intro x y z hx hy hz
    rw [hz, hy, hx]
  exact hsteps _ _ _ (endSweeping_frame s) (freezePages_frame _) (mapPages_frame _ _)

/-- The device of a halt with its seal writes presented. -/
def sealedForHalt (s : State) : State :=
  { s with
    stations := Vector.ofFn fun n => sealStation n .halt (s.frozenForHalt.station n)
    hmp := s.frozenForHalt.hmp, acq := none, halting := true
    sweep := { s.sweep with phase := .idle, pending := false, timer := none } }

/-- A station of a halt: its page cut off, its flags cleared and the page's seal presented. -/
theorem sealedForHalt_station (s : State) (n : StationNo) : s.sealedForHalt.station n =
    sealStation n .halt { cutPage (s.station n) with
      pg := { (cutPage (s.station n)).pg with starved := false, episode := false } } := by
  have hfrozen : s.frozenForHalt.station n = { cutPage (s.station n) with
      pg := { (cutPage (s.station n)).pg with starved := false, episode := false } } := by
    unfold State.frozenForHalt
    rw [mapPages_station, freezePages_station]
    rfl
  rw [← hfrozen]
  simp [State.sealedForHalt, State.station]

/-- A halt with its seal writes presented: it goes on while one waits, else the device is STOPPED, RUN being 0
(R169). -/
def haltEnd (u : State) : State :=
  if u.sealsWait then u else { u with runState := .stopped, halting := false }

theorem haltEnd_frame (u : State) :
    u.haltEnd = { u with runState := u.haltEnd.runState, halting := u.haltEnd.halting } := by
  unfold State.haltEnd; split <;> rfl

theorem haltEnd_outcome {u : State} (hst : u.runState = .running) (hh : u.halting = true) :
    if u.haltEnd.sealsWait then u.haltEnd.runState = .running ∧ u.haltEnd.halting = true
      else u.haltEnd.runState = .stopped ∧ u.haltEnd.halting = false := by
  have hcongr : u.haltEnd.sealsWait = u.sealsWait :=
    sealsWait_congr (by rw [haltEnd_frame])
  rw [hcongr]
  unfold State.haltEnd
  split
  · exact ⟨hst, hh⟩
  · exact ⟨rfl, rfl⟩

theorem beginHalt_eq (s : State) (hrun : s.run = false) : s.beginHalt = s.sealedForHalt.haltEnd := by
  have hr : s.sealedForHalt.run = false := hrun
  have hfin : s.sealedForHalt.finishHalt = { s.sealedForHalt with runState := .stopped, halting := false } := by
    generalize s.sealedForHalt = u at hr ⊢
    exact if_neg (by simp [hr])
  have hsealed : ∀ (u x : State) (v : Vector Station 8), u = { x with stations := u.stations } →
      x = { s with stations := x.stations, hmp := x.hmp, acq := none, sweep := x.sweep } → u.stations = v →
      { u with halting := true } = { s with
        stations := v, hmp := x.hmp, acq := none, halting := true, sweep := x.sweep } := by
    intro u x v hu hx hv
    rw [← hv, hu, hx]
  have hstations : (s.frozenForHalt.eachStation fun s n => s.beginSeal n .halt).stations
      = Vector.ofFn fun n => sealStation n .halt (s.frozenForHalt.station n) :=
    State.stations_ext fun n => (eachSeal_station s.frozenForHalt .halt n).trans (by simp)
  have he := hsealed _ _ _ (eachSeal_frame s.frozenForHalt .halt) (frozenForHalt_frame s) hstations
  have hbegin : s.beginHalt = if s.sealedForHalt.sealsWait then s.sealedForHalt else s.sealedForHalt.finishHalt := by
    have hite := congrArg (fun u : State => if u.sealsWait then u else u.finishHalt) he
    unfold State.beginHalt
    unfold State.frozenForHalt at hite
    exact hite
  rw [hbegin, hfin]
  rfl

theorem clearRun_running (hst : s.runState = .running) (hh : s.halting = false) :
    s.clearRun = ({ s with run := false } : State).beginHalt := by
  unfold State.clearRun; simp only [hst, hh, Bool.false_eq_true, if_false]

theorem leaveFaulted_parts (u : State) : u.leaveFaulted.runState = .stopped ∧ u.leaveFaulted.run = u.run
    ∧ u.leaveFaulted.held = u.held ∧ u.leaveFaulted.area = u.area ∧ u.leaveFaulted.resuming = false :=
  ⟨rfl, rfl, rfl, rfl, rfl⟩

/-- A start given up leaves no access of a start waiting, and the data of one in flight to nobody (R167). -/
theorem dropStart_parts (u : State) : u.dropStart.runState = u.runState ∧ u.dropStart.run = u.run
    ∧ u.dropStart.start = .none ∧ u.dropStart.area = u.area ∧ u.dropStart.held = u.held
    ∧ u.dropStart.stations = u.stations ∧ (∀ a ∈ u.dropStart.hmp.sweepQ, a.purpose.isStart = false)
    ∧ ∀ x ∈ u.dropStart.hmp.inFlight, x.acc.purpose.isStart = false := by
  unfold State.dropStart
  dsimp only [State.makeStale]
  refine ⟨rfl, rfl, rfl, rfl, rfl, rfl, fun a ha => ?_, fun x hx => ?_⟩
  · simpa using (List.mem_filter.mp ha).2
  · obtain ⟨y, -, rfl⟩ := List.mem_map.mp hx
    unfold InFlight.staleWhen
    split
    · rfl
    · exact Bool.eq_false_iff.mpr ‹_›

theorem clearRun_faulted (hst : s.runState = .faulted) :
    s.clearRun = ({ s with run := false } : State).leaveFaulted := by
  unfold State.clearRun; simp only [hst]

theorem clearRun_starting (hst : s.runState = .stopped) (hno : s.start ≠ .none) :
    s.clearRun = { ({ s with run := false } : State).dropStart with startCheck := .none } := by
  unfold State.clearRun; simp only [hst, hno, if_false]

end State

/-- A CONTROL write that clears RUN. -/
theorem halts {s : State} {v : Word32} (h0 : regBit v 0 = false) (h2 : regBit v 2 = false)
    (hrun : s.run = true) {u : State} (hu : ({ s with attMask := maskOf v } : State).clearRun = u)
    (hno : u.run = false) : exec (.halt v) s = .next u :=
  congrArg Host.Outcome.next ((State.takeControl_of_noSoftReset s.lines h2).trans
    (State.writeControl_changed (by simp [h0, hrun]) (by rw [if_neg (by simp [h0])]; exact hu) (by simp [hno])))

/-- What a halt leaves of a station, and the seal writes it presents. -/
theorem sealStation_halt (n : StationNo) (t : Station) :
    let u := sealStation n .halt { cutPage t with
      pg := { (cutPage t).pg with starved := false, episode := false } }
    u.cap = t.cap ∧ u.queue = t.queue ∧ u.state = t.state ∧ u.head = t.head ∧ u.pg.mark = t.pg.mark
      ∧ u.pg.page = t.pg.page ∧ u.pg.starved = false ∧ u.pg.inHand = none
      ∧ u.pageQ = (t.pageQ.filter fun a => !a.purpose.isCut)
          ++ (t.pg.page.elim [] fun p => sealWrites p n .halt t.prof.timeShift false) := by
  unfold sealStation
  cases hp : t.pg.page with
  | none => simp [cutPage, hp]
  | some p => simp [cutPage, hp, Station.prof]

/-- Settles O10. -/
theorem haltSealsOpenPages : Obligations.HaltSealsOpenPages := by
  refine ⟨fun s v h0 h2 hrun hst hh => ?_, fun s v h0 h2 hrun hst => ?_, fun s v h0 h2 hrun hst hno => ?_⟩
  · have hexec := halts h0 h2 hrun ((State.clearRun_running (s := { s with attMask := maskOf v }) hst hh).trans
      (State.beginHalt_eq _ rfl)) (by rw [State.haltEnd_frame]; rfl)
    have hframe : ∀ u : State, u = State.sealedForHalt { s with attMask := maskOf v, run := false } →
        u.run = false ∧ u.area = s.area ∧ u.held = s.held ∧ u.sweep.phase = .idle ∧ u.sweep.pending = false
          ∧ u.sweep.timer = none ∧ u.acq = none ∧ u.runState = s.runState ∧ u.halting = true := by
      rintro u rfl
      exact ⟨rfl, rfl, rfl, rfl, rfl, rfl, rfl, rfl, rfl⟩
    have hparts := hframe _ rfl
    have hstation := State.sealedForHalt_station { s with attMask := maskOf v, run := false }
    refine ⟨_, hexec, ?_⟩
    generalize State.sealedForHalt { s with attMask := maskOf v, run := false } = u at hparts hstation ⊢
    obtain ⟨p1, p2, p3, p4, p5, p6, p7, p8, p9⟩ := hparts
    have hend := State.haltEnd_outcome (u := u) (p8.trans hst) p9
    have hu := State.haltEnd_frame u
    generalize State.haltEnd u = t at hend hu ⊢
    refine ⟨(congrArg State.run hu).trans p1, (congrArg State.area hu).trans p2,
      (congrArg State.held hu).trans p3, (congrArg (·.sweep.phase) hu).trans p4,
      (congrArg (·.sweep.pending) hu).trans p5, (congrArg (·.sweep.timer) hu).trans p6,
      (congrArg State.acq hu).trans p7, fun n => ?_, hend⟩
    have hn : t.station n = u.station n := by rw [hu]; rfl
    rw [hn, hstation n]
    exact sealStation_halt n (s.station n)
  · have hexec := halts h0 h2 hrun (State.clearRun_faulted (s := { s with attMask := maskOf v }) hst) rfl
    obtain ⟨h1, h2, h3, h4, h5⟩ := State.leaveFaulted_parts { s with attMask := maskOf v, run := false }
    refine ⟨_, hexec, h1, h2, h3, h4, h5, fun n => ?_⟩
    rw [State.leaveFaulted_station]
    exact ⟨rfl, rfl, rfl, rfl, rfl⟩
  · have hexec := halts h0 h2 hrun (State.clearRun_starting (s := { s with attMask := maskOf v }) hst hno) rfl
    obtain ⟨h1, h2, h3, h4, h5, h6, h7, h8⟩ := State.dropStart_parts { s with attMask := maskOf v, run := false }
    exact ⟨_, hexec, h1.trans hst, h2, h3, rfl, h4, h5, h6, h7, h8⟩

end Sys2Proof.Machine
end

section
/-! The descriptor (R167, R168, Tables 10-3, 12-3). -/

namespace Sys2Proof.Machine

/-- Two regions that are not empty share a byte exactly when each begins before the other's end. -/
theorem overlaps_iff {a la b lb : Nat} (ha : 0 < la) (hb : 0 < lb) :
    overlaps a la b lb = true ↔ ∃ x, a ≤ x ∧ x < a + la ∧ b ≤ x ∧ x < b + lb := by
  simp only [overlaps, Bool.and_eq_true, decide_eq_true_eq]
  constructor
  · rintro ⟨h1, h2⟩
    exact ⟨max a b, le_max_left .., by omega, le_max_right .., by omega⟩
  · rintro ⟨x, h1, h2, h3, h4⟩
    exact ⟨by omega, by omega⟩

/-- The awaited descriptor arrives in a start. -/
theorem descriptorReadDone_awaited {s : State} {id : Nat} {d : List Byte} {base : Word64} (hl : d.length = 64)
    (hst : s.start = .reading) (hw : s.awaits id ⟨.sweep, none, base, 64, none, .descriptorRead⟩) :
    exec (.descriptorReadDone id d) s = .next ((s.endRead id).descriptorArrives base d) := by
  refine congrArg Host.Outcome.next ((State.completeRead_awaited hw hl.symm nofun).trans ?_)
  simp [hst]

theorem descriptorArrives_fails {r : State} {base : Word64} {d : List Byte} {why : StartCheck}
    (h : descriptorCheck base.toNat d = why) (hne : why ≠ .ok) :
    r.descriptorArrives base d = r.failStart why := by
  unfold State.descriptorArrives
  rw [h]
  split
  · exact absurd rfl hne
  · rfl

theorem descriptorArrives_ok {r : State} {base : Word64} {d : List Byte}
    (h : descriptorCheck base.toNat d = .ok) : r.descriptorArrives base d =
      ({ r with start := .writing } : State).presentSweep (Access.writeOf .sweep none (base + 32)
        (capabilityBytes (areaOf d).sweepUs) (.capability (areaOf d))) := by
  unfold State.descriptorArrives
  rw [h]

/-- Settles O9: the checks one after the other, each with those before it passed. -/
theorem descriptorIsChecked : Obligations.DescriptorIsChecked := by
  intro s id d base hl hst hw slots entries board list share signature slotCount entryCount alignment region
    overlap fails
  have hfails : ∀ why, descriptorCheck base.toNat d = why → why ≠ .ok → fails why := by
    intro why h hne
    exact (descriptorReadDone_awaited hl hst hw).trans (congrArg _ (descriptorArrives_fails h hne))
  have hcheck : descriptorCheck base.toNat d =
      if signature then .signature else if slotCount then .slotCount else if entryCount then .entryCount
      else if alignment then .alignment else if region then .region
      else if (overlaps base.toNat 64 board (128 * slots) || overlaps base.toNat 64 list (16 * entries)
        || overlaps board (128 * slots) list (16 * entries)) = true then .overlap else .ok := rfl
  have hoverlap : ¬ slotCount → ¬ entryCount →
      ((overlaps base.toNat 64 board (128 * slots) || overlaps base.toNat 64 list (16 * entries)
        || overlaps board (128 * slots) list (16 * entries)) = true ↔ overlap) := by
    intro hs he
    have hslots : 0 < 128 * slots := by simp only [slotCount] at hs; omega
    have hentries : 0 < 16 * entries := by simp only [entryCount] at he; omega
    simp only [Bool.or_eq_true, overlaps_iff (show 0 < 64 by decide) hslots,
      overlaps_iff (show 0 < 64 by decide) hentries, overlaps_iff hslots hentries, or_assoc]
    rfl
  refine ⟨fun h1 => hfails _ ?_ nofun, fun h1 h2 => hfails _ ?_ nofun, fun h1 h2 h3 => hfails _ ?_ nofun,
    fun h1 h2 h3 h4 => hfails _ ?_ nofun, fun h1 h2 h3 h4 h5 => hfails _ ?_ nofun,
    fun h1 h2 h3 h4 h5 h6 => hfails _ ?_ nofun, fun h1 h2 h3 h4 h5 h6 => ?_⟩
  · rw [hcheck, if_pos h1]
  · rw [hcheck, if_neg h1, if_pos h2]
  · rw [hcheck, if_neg h1, if_neg h2, if_pos h3]
  · rw [hcheck, if_neg h1, if_neg h2, if_neg h3, if_pos h4]
  · rw [hcheck, if_neg h1, if_neg h2, if_neg h3, if_neg h4, if_pos h5]
  · rw [hcheck, if_neg h1, if_neg h2, if_neg h3, if_neg h4, if_neg h5, if_pos ((hoverlap h2 h3).mpr h6)]
  · have hok : descriptorCheck base.toNat d = .ok := by
      rw [hcheck, if_neg h1, if_neg h2, if_neg h3, if_neg h4, if_neg h5,
        if_neg fun h => h6 ((hoverlap h2 h3).mp h)]
    exact (descriptorReadDone_awaited hl hst hw).trans (congrArg _ (descriptorArrives_ok hok))

end Sys2Proof.Machine
end

section
/-! What a grant does (R160, R161, R168, R178): the issue of one access, and its effect on the requester. -/

namespace Sys2Proof.Machine

/-! ## Work on jobs: results recorded, writes presented, marks dealt with -/

/-- `t` is `s` but for the stations, the held jobs and the waiting JOB accesses. -/
def State.JobWork (s t : State) : Prop :=
  ∃ stations held jobQ, t = { s with stations := stations, held := held, hmp := { s.hmp with jobQ := jobQ } }

/-- `t` is `s` but for the stations, the held jobs and the waiting JOB and SWEEP accesses. -/
def State.MarkWork (s t : State) : Prop :=
  ∃ stations held jobQ sweepQ, t = { s with
    stations := stations, held := held, hmp := { s.hmp with jobQ := jobQ, sweepQ := sweepQ } }

namespace State.JobWork
variable {s t u : State}

theorem refl (s : State) : s.JobWork s := ⟨s.stations, s.held, s.hmp.jobQ, rfl⟩

theorem trans (h : s.JobWork t) (h' : t.JobWork u) : s.JobWork u := by
  obtain ⟨a, b, c, rfl⟩ := h
  obtain ⟨a', b', c', rfl⟩ := h'
  exact ⟨a', b', c', rfl⟩

theorem marks (h : s.JobWork t) : s.MarkWork t := by
  obtain ⟨a, b, c, rfl⟩ := h
  exact ⟨a, b, c, s.hmp.sweepQ, rfl⟩

theorem modStation (s : State) (n : StationNo) (f : Station → Station) : s.JobWork (s.modStation n f) :=
  ⟨_, s.held, s.hmp.jobQ, rfl⟩

theorem modHeld (s : State) (j : Nat) (f : HeldJob → HeldJob) : s.JobWork (s.modHeld j f) :=
  ⟨s.stations, _, s.hmp.jobQ, rfl⟩

theorem presentResult (s : State) (j : Nat) : s.JobWork (s.presentResult j) :=
  ⟨s.stations, s.held, _, s.presentResult_frame j⟩

theorem finishJob (s : State) (j : Nat) : s.JobWork (s.finishJob j) :=
  ⟨s.stations, _, _, s.finishJob_frame j⟩

theorem withdraw (s : State) (j : Nat) : s.JobWork (s.withdraw j) := ⟨s.stations, s.held, _, rfl⟩

theorem quiesceCheck (s : State) (n : StationNo) : s.JobWork (s.quiesceCheck n) := s.quiesceCheck_frame n

theorem fold {α : Type} {g : State → α → State} (hg : ∀ (u : State) (x : α), u.JobWork (g u x)) (l : List α) (s : State) :
    s.JobWork (l.foldl g s) := by
  induction l generalizing s with
  | nil => exact refl s
  | cons x xs ih => exact (hg s x).trans (ih _)

theorem quiesceAll (s : State) : s.JobWork s.quiesceAll := fold (fun u n => quiesceCheck u n) _ s

theorem endMemory (s : State) (h : HeldJob) : s.JobWork (s.endMemory h) := by
  unfold State.endMemory
  split
  · exact refl s
  · exact (((withdraw s _).trans (fold (fun u n => modStation u n _) _ _)).trans (modHeld _ _ _)).trans
      (finishJob _ _)

theorem forgetMarks (s : State) : s.JobWork s.forgetMarks := ⟨s.stations, _, s.hmp.jobQ, rfl⟩

end State.JobWork

namespace State.MarkWork
variable {s t u : State}

theorem refl (s : State) : s.MarkWork s := (State.JobWork.refl s).marks

theorem trans (h : s.MarkWork t) (h' : t.MarkWork u) : s.MarkWork u := by
  obtain ⟨a, b, c, d, rfl⟩ := h
  obtain ⟨a', b', c', d', rfl⟩ := h'
  exact ⟨a', b', c', d', rfl⟩

theorem presentSweep (s : State) (a : Access) : s.MarkWork (s.presentSweep a) :=
  ⟨s.stations, s.held, s.hmp.jobQ, _, rfl⟩

theorem retryWrites (s : State) (h : HeldJob) : s.MarkWork (s.retryWrites h) := by
  unfold State.retryWrites
  split
  · exact (((State.JobWork.withdraw s _).trans (.modHeld _ _ _)).marks).trans (presentSweep _ _)
  · split
    · exact (((State.JobWork.withdraw s _).trans (.modHeld _ _ _)).trans (.presentResult _ _)).marks
    · exact refl s

theorem fold {α : Type} {g : State → α → State} (hg : ∀ (u : State) (x : α), u.MarkWork (g u x)) (l : List α) (s : State) :
    s.MarkWork (l.foldl g s) := by
  induction l generalizing s with
  | nil => exact refl s
  | cons x xs ih => exact (hg s x).trans (ih _)

theorem dealMarks (s : State) : s.MarkWork s.dealMarks :=
  ((State.JobWork.fold (fun u x => State.JobWork.endMemory u x) s.held s).marks).trans (fold retryWrites _ _)

end State.MarkWork

/-! ## What a grant leaves of the port (R160, R161) -/

/-- The accesses issued and the arbiter's pointers and count. -/
def State.issued (s : State) :=
  (s.hmp.inFlight, s.hmp.writes, s.hmp.nextId, s.hmp.classPtr, s.hmp.stationPtr, s.hmp.nonPagePtr, s.hmp.burst)

theorem State.MarkWork.issued {s t : State} (h : s.MarkWork t) : t.issued = s.issued := by
  obtain ⟨a, b, c, d, rfl⟩ := h
  rfl

theorem State.JobWork.issued {s t : State} (h : s.JobWork t) : t.issued = s.issued := h.marks.issued

theorem State.withStation_issued (s : State) (n : StationNo) (f : Env → Ctx → Ctx) :
    (s.withStation n f).issued = s.issued := by
  obtain ⟨held, jobQ, h⟩ := s.withStation_frame n f
  rw [h]
  rfl

theorem State.beginSweep_issued (s : State) (first : Bool) : (s.beginSweep first).issued = s.issued := by
  unfold State.beginSweep; split <;> rfl

theorem State.requestSweep_issued (s : State) (first : Bool) : (s.requestSweep first).issued = s.issued := by
  unfold State.requestSweep
  split
  · exact s.beginSweep_issued first
  · rfl

theorem State.startSweepTimer_issued (s : State) : s.startSweepTimer.issued = s.issued := by
  unfold State.startSweepTimer; split <;> rfl

theorem State.beginStart_issued (s : State) : s.beginStart.issued = s.issued := by
  unfold State.beginStart; split <;> rfl

theorem State.finishHalt_issued (s : State) : s.finishHalt.issued = s.issued := by
  unfold State.finishHalt
  dsimp only
  split
  · exact State.beginStart_issued _
  · rfl

/-- RUNNING is entered: the sweep timer runs, a sweep is requested, and drains may end (R168, R170). -/
theorem State.resumeSweeps_issued (s : State) (first : Bool) :
    (s.startSweepTimer.requestSweep first).quiesceAll.issued = s.issued :=
  (State.JobWork.quiesceAll _).issued.trans ((State.requestSweep_issued _ _).trans s.startSweepTimer_issued)

theorem State.acceptStart_issued (s : State) (a : Area) : (s.acceptStart a).issued = s.issued := by
  unfold State.acceptStart
  dsimp only
  refine (State.resumeSweeps_issued _ true).trans ?_
  split
  · exact (State.MarkWork.dealMarks _).issued
  · exact (State.JobWork.forgetMarks _).issued

theorem State.finishResume_issued (s : State) : s.finishResume.issued = s.issued := by
  unfold State.finishResume
  exact (State.resumeSweeps_issued _ false).trans (State.MarkWork.dealMarks s).issued

theorem State.settleSeals_issued (s : State) : s.settleSeals.issued = s.issued := by
  unfold State.settleSeals
  split
  · rfl
  · split
    · exact s.finishHalt_issued
    · split
      · exact s.finishResume_issued
      · rfl

theorem State.pageSealed_issued (s : State) (n : StationNo) : (s.pageSealed n).issued = s.issued := by
  unfold State.pageSealed
  dsimp only
  split
  · exact State.withStation_issued _ _ _
  · exact (State.JobWork.quiesceCheck _ n).issued

theorem State.issueEffect_issued (s : State) (a : Access) : (s.issueEffect a).issued = s.issued := by
  unfold State.issueEffect
  split
  · exact s.acceptStart_issued _
  · exact ((State.JobWork.modHeld s _ _).trans (.presentResult _ _)).issued
  · unfold State.doneIssued
    dsimp only
    split <;> rfl
  · exact s.withStation_issued _ _
  · rfl
  · exact s.pageSealed_issued _
  · rfl

/-- The device with an access issued, before its effect on the requester. -/
def State.issuing (s : State) (a : Access) : State :=
  { s.dequeue a with hmp := ((s.dequeue a).hmp.granted a).issue a (s.dequeue a).elapsed }

theorem State.grant_eq (s : State) (a : Access) : s.grant a = ((s.issuing a).issueEffect a).settleSeals := rfl

/-- What a grant leaves of the port. -/
theorem State.grant_issued (s : State) (a : Access) : (s.grant a).issued =
    (s.hmp.inFlight ++ (if a.data = none then [⟨s.hmp.nextId, s.elapsed, a⟩] else []),
      s.hmp.writes ++ (if a.data = none then [] else [⟨s.hmp.nextId, a, false⟩]),
      s.hmp.nextId + 1, a.cls,
      (if a.cls = .page then a.station.getD s.hmp.stationPtr else s.hmp.stationPtr),
      (if a.cls = .page then s.hmp.nonPagePtr else a.cls),
      (if a.cls = .page then min 3 (s.hmp.burst + 1) else 0)) := by
  rw [State.grant_eq, State.settleSeals_issued, State.issueEffect_issued]
  obtain ⟨cls, station, addr, len, data, purpose⟩ := a
  cases cls <;> cases station <;> cases data <;>
    simp [State.issued, State.issuing, State.dequeue, HostPort.granted, HostPort.issue, State.modStation]

/-- Settles O18. -/
theorem grantIssuesOneAccess : Obligations.GrantIssuesOneAccess := by
  refine ⟨fun s hno => ?_, fun s a hg => ⟨s.grant a, ?_, ?_⟩⟩
  · change Host.Outcome.next s.arbitrate = _
    unfold State.arbitrate
    rw [hno]
  · exact congrArg Host.Outcome.next (State.arbitrate_of_next hg)
  · have h := s.grant_issued a
    simp only [State.issued, Prod.mk.injEq] at h
    obtain ⟨h1, h2, h3, h4, h5, h6, h7⟩ := h
    exact ⟨h3, h1, h2, h4, h6, h7, h5⟩

end Sys2Proof.Machine
end

section
/-! The issue of the capability, TAKEN and DONE writes (R168, R178). -/

namespace Sys2Proof.Machine

theorem exec_accessGrant {s : State} {a : Access} (h : s.nextGrant = some a) :
    exec .accessGrant s = .next (((s.issuing a).issueEffect a).settleSeals) :=
  congrArg Host.Outcome.next (State.arbitrate_of_next h)

/-- With no halt and no resumption under way nothing is settled at an issue. -/
theorem State.settleSeals_none {s : State} (hh : s.halting = false) (hr : s.resuming = false) :
    s.settleSeals = s := by
  unfold State.settleSeals
  simp [hh, hr]

/-! ## Starts accepted -/

theorem State.MarkWork.kept {s t : State} (h : s.MarkWork t) : t.area = s.area ∧ t.sweep = s.sweep
    ∧ t.elapsed = s.elapsed ∧ t.runState = s.runState ∧ t.halting = s.halting ∧ t.resuming = s.resuming
    ∧ t.startCheck = s.startCheck ∧ t.start = s.start ∧ t.cursor = s.cursor ∧ t.nextSerial = s.nextSerial
    ∧ t.run = s.run ∧ t.attention = s.attention ∧ t.dealAtStart = s.dealAtStart := by
  obtain ⟨b, c, d, e, rfl⟩ := h
  exact ⟨rfl, rfl, rfl, rfl, rfl, rfl, rfl, rfl, rfl, rfl, rfl, rfl, rfl⟩

/-- The device with its sweep timer at the full interval and a sweep begun with slot 0. -/
def State.sweeping (s : State) (a : Area) (first : Bool) : State :=
  { s with
    stations := Vector.ofFn fun n => { s.station n with pg := { (s.station n).pg with starved := false } }
    sweep := ⟨.readingState 0, first, s.sweep.pending, 0, some (s.elapsed + a.sweepUs * 100)⟩
    hmp := { s.hmp with sweepQ := s.hmp.sweepQ ++ [Access.readOf .sweep none a.jobBoard 1 (.slotState 0)] } }

/-- At the end of a start or a resumption the sweep timer runs and a sweep begins (R168, R170). -/
theorem State.sweepsAgain {s : State} {a : Area} (ha : s.area = some a) (hidle : s.sweep.phase = .idle)
    (first : Bool) : s.startSweepTimer.requestSweep first = s.sweeping a first := by
  rw [State.requestSweep_idle (by rwa [State.startSweepTimer_phase]), State.startSweepTimer_area ha]
  exact State.beginSweep_area (s := { s with sweep := { s.sweep with timer := some (s.elapsed + a.sweepUs * 100) } })
    ha first

/-- The device whose start is accepted, its marks not yet dealt with or forgotten (R168). -/
def State.accepting (s : State) (a : Area) : State :=
  { s with
    area := some a, startCheck := .ok, cursor := 0, runState := .running, start := .none, dealAtStart := false }

theorem State.acceptStart_eq (s : State) (a : Area) : s.acceptStart a =
    ((if s.dealAtStart then (s.accepting a).dealMarks else (s.accepting a).forgetMarks).startSweepTimer.requestSweep
      true).quiesceAll := by
  unfold State.acceptStart
  dsimp only
  by_cases hd : s.dealAtStart = true
  · rw [if_pos hd, if_pos hd]
    rfl
  · have hd' : s.dealAtStart = false := by simpa using hd
    have he : s.accepting a = { s with
        area := some a, startCheck := .ok, cursor := 0, runState := .running, start := .none } := by
      unfold State.accepting
      rw [← hd']
    rw [if_neg hd, if_neg hd, he]

/-- What a start that has been accepted leaves: `x` is the device with its marks dealt with or forgotten. -/
theorem State.acceptStart_parts {s : State} (a : Area) (hidle : s.sweep.phase = .idle) :
    ∃ x, (s.accepting a).MarkWork x
      ∧ x = (if s.dealAtStart then (s.accepting a).dealMarks else (s.accepting a).forgetMarks)
      ∧ s.acceptStart a = (x.sweeping a true).quiesceAll := by
  have hm : (s.accepting a).MarkWork
      (if s.dealAtStart then (s.accepting a).dealMarks else (s.accepting a).forgetMarks) := by
    split
    · exact State.MarkWork.dealMarks _
    · exact (State.JobWork.forgetMarks _).marks
  refine ⟨_, hm, rfl, ?_⟩
  rw [State.acceptStart_eq]
  generalize (if s.dealAtStart then (s.accepting a).dealMarks else (s.accepting a).forgetMarks) = x at hm
  obtain ⟨harea, hsweep, -⟩ := hm.kept
  rw [State.sweepsAgain (s := x) (a := a) harea (by rw [hsweep]; exact hidle)]

theorem State.JobWork.sweepQ {s t : State} (h : s.JobWork t) : t.hmp.sweepQ = s.hmp.sweepQ := by
  obtain ⟨b, c, d, rfl⟩ := h
  rfl

/-! ## DONE and TAKEN -/

theorem State.presentResult_formed {s : State} {h : HeldJob} {bytes : List Byte} (hh : s.heldJob h.jid = some h)
    (hf : h.formed = some bytes) (ht : h.taken ≠ .waiting) :
    s.presentResult h.jid = { s with hmp := { s.hmp with jobQ := s.hmp.jobQ ++ h.backWrites bytes } } := by
  unfold State.presentResult
  rw [hh]
  simp only [hf, if_neg ht]
  simp [State.presentJob, HeldJob.backWrites]

/-- A held job changed under its own number is found changed. -/
theorem State.heldJob_modHeld {s : State} (hn : (s.held.map HeldJob.jid).Nodup) {h : HeldJob} (hm : h ∈ s.held)
    {f : HeldJob → HeldJob} (hf : ∀ x, (f x).jid = x.jid) :
    (s.modHeld h.jid f).heldJob h.jid = some (f h) ∧ f h ∈ (s.modHeld h.jid f).held := by
  have hmem : f h ∈ (s.modHeld h.jid f).held :=
    List.mem_map.mpr ⟨h, hm, by simp⟩
  refine ⟨?_, hmem⟩
  have hnd : ((s.modHeld h.jid f).held.map HeldJob.jid).Nodup := by
    have : (s.modHeld h.jid f).held.map HeldJob.jid = s.held.map HeldJob.jid := by
      simp only [State.modHeld, List.map_map]
      refine List.map_congr_left fun x _ => ?_
      simp only [Function.comp]
      split
      · exact hf x
      · rfl
    rwa [this]
  have := State.heldJob_mem hnd hmem
  rwa [hf] at this

/-- What the issue of an access that is no PAGE access leaves alone, before its effect. -/
theorem State.issuing_kept (s : State) (a : Access) (ha : a.cls ≠ .page) :
    (s.issuing a).held = s.held ∧ (s.issuing a).attention = s.attention ∧ (s.issuing a).runState = s.runState
      ∧ (s.issuing a).halting = s.halting ∧ (s.issuing a).resuming = s.resuming
      ∧ (s.issuing a).stations = s.stations := by
  unfold State.issuing State.dequeue
  split
  · exact ⟨rfl, rfl, rfl, rfl, rfl, rfl⟩
  · exact ⟨rfl, rfl, rfl, rfl, rfl, rfl⟩
  · exact absurd ‹_› ha
  · exact ⟨rfl, rfl, rfl, rfl, rfl, rfl⟩

/-- The issue of a DONE write releases its job (R178). -/
theorem State.doneIssued_eq (s : State) (h : HeldJob) : s.doneIssued h = { s with
    held := s.held.filter fun x => x.jid != h.jid
    attention := if h.notify then s.attention ||| Attn.jobDone.mask else s.attention } := by
  unfold State.doneIssued
  cases h.notify <;> rfl

/-- The issue of a TAKEN write lets results already formed be presented (R178). -/
theorem State.takenIssued_formed {s : State} {h : HeldJob} {bytes : List Byte}
    (hn : (s.held.map HeldJob.jid).Nodup) (hm : h ∈ s.held) (hf : h.formed = some bytes) :
    ({ h with taken := .issued } : HeldJob) ∈ (s.takenIssued h.jid).held
      ∧ s.takenIssued h.jid = { s with
          held := (s.takenIssued h.jid).held
          hmp := { s.hmp with
            jobQ := s.hmp.jobQ ++ ({ h with taken := .issued } : HeldJob).backWrites bytes } } := by
  obtain ⟨hfind, hmem⟩ := State.heldJob_modHeld hn hm (f := fun h => { h with taken := .issued }) fun _ => rfl
  have hres : s.takenIssued h.jid = _ :=
    State.presentResult_formed (h := { h with taken := .issued }) hfind hf nofun
  rw [hres]
  exact ⟨hmem, rfl⟩

/-- Settles O19. -/
theorem jobIssuesTakeEffect : Obligations.JobIssuesTakeEffect := by
  refine ⟨fun s addr d a hst hh hr hidle hg => ?_, fun s h hst hh hr hg => ?_,
    fun s h bytes addr hst hh hr hi hm hf hg => ?_⟩
  · obtain ⟨x, hx, -, heq⟩ :=
      State.acceptStart_parts (s := s.issuing (Access.writeOf .sweep none addr d (.capability a))) a hidle
    have hexec := exec_accessGrant hg
    change _ = Host.Outcome.next (State.settleSeals (State.acceptStart _ a)) at hexec
    obtain ⟨h1, h2, h3, h4, h5, h6, h7, h8, h9, h10, h11, -⟩ := hx.kept
    obtain ⟨g1, g2, g3, g4, g5, g6, g7, g8, g9, g10, g11, -⟩ :=
      (State.JobWork.quiesceAll (x.sweeping a true)).marks.kept
    have hq := State.JobWork.sweepQ (State.JobWork.quiesceAll (x.sweeping a true))
    rw [heq, State.settleSeals_none (g5.trans (h5.trans hh)) (g6.trans (h6.trans hr))] at hexec
    refine ⟨_, hexec, g4.trans h4, g1.trans h1, g7.trans h7, g8.trans h8, g9.trans h9, g10.trans h10,
      g11.trans h11, ?_, ?_, ?_, _, hq⟩
    · rw [g2]; rfl
    · rw [g2]; rfl
    · rw [g2]
      change some (x.elapsed + a.sweepUs * 100) = _
      rw [h3]
      rfl
  · have hexec := exec_accessGrant hg
    change _ = Host.Outcome.next (State.settleSeals (State.doneIssued _ h)) at hexec
    obtain ⟨k1, k2, k3, k4, k5, k6⟩ := State.issuing_kept s (Access.writeOf .job none h.slot [3] (.done h)) nofun
    rw [State.settleSeals_none (by rw [State.doneIssued_eq]; exact k4.trans hh)
      (by rw [State.doneIssued_eq]; exact k5.trans hr), State.doneIssued_eq] at hexec
    refine ⟨_, hexec, congrArg _ k1, ?_, k6, k3.trans hst⟩
    change (if h.notify then State.attention _ ||| _ else State.attention _) = _
    rw [k2]
  · have hexec := exec_accessGrant hg
    change _ = Host.Outcome.next (State.settleSeals (State.takenIssued _ h.jid)) at hexec
    obtain ⟨k1, k2, k3, k4, k5, k6⟩ :=
      State.issuing_kept s (Access.writeOf .sweep none addr [2] (.taken h.jid)) nofun
    have hq : (s.issuing (Access.writeOf .sweep none addr [2] (.taken h.jid))).hmp.jobQ = s.hmp.jobQ := rfl
    obtain ⟨hmem, htaken⟩ := State.takenIssued_formed (by rw [k1]; exact hi.1) (by rw [k1]; exact hm) hf
    rw [State.settleSeals_none (by rw [htaken]; exact k4.trans hh) (by rw [htaken]; exact k5.trans hr)] at hexec
    refine ⟨_, _, hexec, rfl, hmem, ?_, ?_⟩
    · rw [htaken]
      exact congrArg (· ++ _) hq
    · rw [htaken]
      exact k6

end Sys2Proof.Machine
end

section
/-! Immediate jobs that set no attention bit and present no access: ENABLE, CAPTURE STOP, DISARM and FLUSH
(R28, R118, R136, R158, R175). -/

namespace Sys2Proof.Machine

/-! ## Quiet effects -/

/-- A local effect that sets no attention bit and presents no access. -/
def quietAct (g : Env → Station → Station) (r : Env → Station → Res) : LocalAct where
  station := g
  bits _ _ := 0
  writes _ _ := []
  result := r

theorem quietAct_apply (g : Env → Station → Station) (r : Env → Station → Res) (s : State) (n : StationNo) :
    (quietAct g r).apply s n = (s.put n (g (s.env n) (s.station n)) s.attention, r (s.env n) (s.station n)) := by
  have ha : s.attention ||| (quietAct g r).bits (s.env n) (s.station n) = s.attention := BitVec.or_zero
  have hq : s.hmp.jobQ ++ (quietAct g r).writes (s.env n) (s.station n) = s.hmp.jobQ := List.append_nil _
  unfold LocalAct.apply
  rw [ha, hq]
  rfl

/-- An immediate job with a quiet effect executed from its slot read: `does` tells where Table 2-2 has it
executed and `code` what it gives elsewhere. -/
theorem quietAct_jobArrives {g : Env → Station → Station} {r : Env → Station → Res} {s : State} {id i : Nat}
    {slot : Word64} {live : Bool} {h : JobHeader} {j : Job} {does : Station → Prop} [DecidablePred does]
    {code : ResultCode} (hi : s.jobsInv) (ha : s.awaitsSlot id i slot live) (hm : h.mask ≠ 0)
    (hj : j.cls = .immediate) (hf : j.fieldsOk = true)
    (hd : ∀ t : Station, t.state.immediateRefusal j = if does t then none else some code)
    (hA : ∀ u m, does (u.station m) → j.doAt (postedView h j) s.nextJid u m
      = (u.put m (g (u.env m) (u.station m)) u.attention, r (u.env m) (u.station m))) :
    ∃ u : State, s.jobArrives id h j = u.afterSlot i live ∧ s.afterExecuted u id ∧ u.attention = s.attention
      ∧ (∀ n, u.station n = if inMask h.mask n ∧ does (s.station n) then g (s.env n) (s.station n) else s.station n)
      ∧ u.writtenBack s.hmp.jobQ slot h
          (perStation h.mask fun n =>
            if does (s.station n) then r (s.env n) (s.station n) else Res.ended code) none s.tb := by
  have hdoes : ∀ t : Station, t.state.immediateRefusal j = none → does t := by
    intro t ht
    by_contra hn
    rw [hd, if_neg hn] at ht
    cases ht
  obtain ⟨u, hu, hframe, hstation, hattention, hback⟩ :=
    LocalAct.jobArrives_eq (A := quietAct g r) hi ha hm hj hf fun u m hr =>
      (hA u m (hdoes _ hr)).trans (quietAct_apply ..).symm
  have hbits : ∀ (a : BitVec 11) n, a ||| (quietAct g r).bitsAt j s n = a := fun a n => by
    unfold LocalAct.bitsAt
    split <;> exact BitVec.or_zero
  have hwrites : (maskStations h.mask).flatMap ((quietAct g r).writesAt j s) = [] :=
    List.flatMap_eq_nil_iff.mpr fun n _ => by unfold LocalAct.writesAt; split <;> rfl
  refine ⟨u, hu, hframe, ?_, fun n => ?_, ?_⟩
  · rw [hattention]
    induction maskStations h.mask with
    | nil => rfl
    | cons m ms ih => rw [List.foldl_cons, hbits, ih]
  · rw [hstation, ite_and]
    refine if_congr Iff.rfl ?_ rfl
    unfold LocalAct.after
    rw [hd]
    split_ifs <;> rfl
  · have hresult : (quietAct g r).resultAt j s
        = fun n => if does (s.station n) then r (s.env n) (s.station n) else Res.ended code := by
      funext n
      unfold LocalAct.resultAt
      rw [hd]
      split_ifs <;> rfl
    rw [hwrites, List.append_nil, hresult] at hback
    exact hback

/-! ## ENABLE (R28) -/

/-- The station that ENABLE makes of an OFF one, with the inputs and the time of `e`. -/
def Station.enabled (t : Station) (e : Env) : Station :=
  { state := .ready
    profile := some Profile.default
    queue := []
    head := .waiting
    lp := ⟨true, false, none, Health.empty, some (e.now + 1000000), [], none⟩
    au := ⟨[], [], false, 0, .unknown⟩
    cu := { t.cu with rx := .idle, line := [], idle := none, patterns := [], sendQ := [], tx := none }
    bpu := { PowerUnit.reset with
      state := if e.pin.settled then .seated else .absent
      cls := if e.pin.settled then e.pin.straps else 7 }
    ts := { t.ts with state := .disarmed, program := none }
    cap := Capture.reset
    pg := { t.pg with mark := none, starved := false, episode := false }
    pageQ := t.pageQ }

/-- A capture that is STOPPED takes no record (R134). -/
theorem Station.offer_stopped {t : Station} (h : t.cap.state = .stopped) (tb : Tick) (r : SrcRec) :
    t.offer tb r = ⟨t.cap, false, false⟩ := by
  unfold Station.offer Capture.offer
  rw [h]

/-- A record offered at a station with capture STOPPED leaves no trace (R134). -/
theorem offerRec_stopped {c : Ctx} (h : c.st.cap.state = .stopped) (e : Env) (r : SrcRec) : offerRec e r c = c := by
  rw [offerRec_eq, Station.offer_stopped h]
  exact congrArg (fun a => Ctx.mk c.st a c.effs) BitVec.or_zero

/-- A power event without a fault at a station with capture STOPPED and the sequencer not ARMED, where ON is
not left, leaves no trace (R98, R119, R134). -/
theorem powerEvent_silent {c : Ctx} (hcap : c.st.cap.state = .stopped) (hts : c.st.unarmed) (e : Env) {ev : PowerEv}
    (hev : ev.faultOf = none) : powerEvent e ev false c = c := by
  unfold powerEvent offerPower
  rw [offerRec_stopped hcap, report_unarmed e _ hts, hev]
  rfl

theorem enableStation_eq (e : Env) (t : Station) (a : BitVec 11) :
    enableStation e ⟨t, a, []⟩ = ⟨t.enabled e, a, []⟩ := by
  unfold enableStation findBoard seat
  dsimp only
  cases h : e.pin.settled with
  | false => simp [Station.enabled, h]; rfl
  | true =>
    rw [if_pos rfl, powerEvent_silent rfl (by rfl) e rfl]
    simp [Station.enabled, h]
    rfl

theorem State.doEnable_eq (s : State) (n : StationNo) :
    s.doEnable n = (s.put n ((s.station n).enabled (s.env n)) s.attention, Res.okv 0) := by
  unfold State.doEnable
  rw [State.withStation_quiet (enableStation_eq ..)]

/-- Settles O20: ENABLE is an immediate job whose effect at an OFF station is `Station.enabled`. -/
theorem enablePutsStationsReady : Obligations.EnablePutsStationsReady := by
  unfold Obligations.EnablePutsStationsReady
  intro s id i slot live h hi ha hm
  obtain ⟨u, hu, hframe, hattention, hstation, hback⟩ :=
    quietAct_jobArrives (g := fun e t => t.enabled e) (r := fun _ _ => Res.okv 0) (j := .enable)
      (does := fun t => t.state = .off) (code := .state) hi ha hm rfl rfl
      (fun t => by cases t.state <;> rfl) fun u m _ => u.doEnable_eq m
  exact ⟨u, congrArg _ hu, hframe, hattention, hback, hstation⟩

/-! ## CAPTURE STOP, DISARM and FLUSH (R118, R136, R158) -/

/-- Only READY and QUIESCING stations execute CAPTURE STOP, DISARM and FLUSH (Table 2-2). -/
theorem Station.workRefusal_eq {j : Job} (hj : j = .disarm ∨ j = .flush ∨ ∃ p, j = .captureStop p) (t : Station) :
    t.state.immediateRefusal j = if t.working = true then none else some .unavailable := by
  unfold Station.working
  obtain rfl | rfl | ⟨p, rfl⟩ := hj <;> cases t.state <;> rfl

/-- A station whose capture was stopped with post count `p` by CAPTURE STOP (R136). -/
def Station.captureStopped (t : Station) (p : BitVec 16) : Station :=
  match t.cap.state with
  | .stopped => t
  | .watching => { t with cap := { t.cap with state := .stopped, history := [] } }
  | .recording | .stopping _ =>
    if p = 0 then
      { t with
        cap := { t.cap with state := .stopped }
        pg := { t.pg with
          mark := if t.cap.staging = [] ∧ t.pg.page = none then none
            else some ⟨t.cap.staging.length, .stopped⟩ } }
    else { t with cap := { t.cap with state := .stopping p.toNat } }

/-- The seal mark of a request made now (R158). -/
theorem Station.sealRequest_eq (t : Station) (why : SealReason) :
    t.sealRequest why = { t with pg := { t.pg with
      mark := if t.cap.staging = [] ∧ t.pg.page = none then none else some ⟨t.cap.staging.length, why⟩ } } := by
  unfold Station.sealRequest
  simp only [List.length_eq_zero_iff]

theorem stopCapture_eq (p : BitVec 16) (t : Station) (a : BitVec 11) :
    stopCapture p.toNat ⟨t, a, []⟩ = ⟨t.captureStopped p, a, []⟩ := by
  have hzero : p.toNat = 0 ↔ p = 0 := by rw [← BitVec.toNat_inj]; rfl
  have hnow := congrArg (Ctx.mk · a [])
    (Station.sealRequest_eq { t with cap := { t.cap with state := .stopped } } .stopped)
  unfold stopCapture Capture.stop Station.captureStopped
  cases t.cap.state with
  | stopped => rfl
  | watching => rfl
  | recording =>
    by_cases hp : p = 0
    · simp only [hzero, if_pos hp]
      exact hnow
    · simp only [hzero, if_neg hp]
      rfl
  | stopping m =>
    by_cases hp : p = 0
    · simp only [hzero, if_pos hp]
      exact hnow
    · simp only [hzero, if_neg hp]
      rfl

theorem State.doStop_eq (s : State) (p : BitVec 16) (n : StationNo) :
    s.doStop p.toNat n = (s.put n ((s.station n).captureStopped p) s.attention,
      Res.okv (if (s.station n).cap.state = .stopped then 0 else 1)) := by
  unfold State.doStop
  rw [State.withStation_quiet (stopCapture_eq ..)]
  refine congrArg _ (congrArg Res.okv ?_)
  cases (s.station n).cap.state <;> rfl

theorem State.doDisarm_eq (s : State) (n : StationNo) :
    s.doDisarm n = (s.put n (disarmStation (s.station n)) s.attention,
      Res.okv (if (s.station n).ts.state.code = 1 then 1 else 0)) := by
  refine congrArg (Prod.mk (s.put n (disarmStation (s.station n)) s.attention)) (congrArg Res.okv ?_)
  unfold bit
  simp only [beq_iff_eq]

theorem State.doFlush_eq (s : State) (n : StationNo) :
    s.doFlush n = (s.put n ((s.station n).sealRequest .flush) s.attention, Res.okv (s.station n).cap.used) := rfl

/-- Settles O24: CAPTURE STOP, DISARM and FLUSH are immediate jobs with quiet effects at the working
stations. -/
theorem stopDisarmAndFlushExecute : Obligations.StopDisarmAndFlushExecute := by
  unfold Obligations.StopDisarmAndFlushExecute
  refine ⟨fun s id i slot live h post hi ha hm => ?_, fun s id i slot live h hi ha hm => ⟨?_, ?_⟩⟩
  · obtain ⟨u, hu, hframe, hattention, hstation, hback⟩ :=
      quietAct_jobArrives (g := fun _ t => t.captureStopped post)
        (r := fun _ t => Res.okv (if t.cap.state = .stopped then 0 else 1)) (j := .captureStop post.toNat)
        (does := fun t => t.working = true) (code := .unavailable) hi ha hm rfl rfl
        (Station.workRefusal_eq (.inr (.inr ⟨_, rfl⟩))) fun u m _ => u.doStop_eq post m
    refine ⟨u, congrArg _ hu, hframe, hattention, hback, fun n => ?_⟩
    have hn := hstation n
    by_cases hc : inMask h.mask n = true ∧ (s.station n).working = true
    · rw [if_pos hc] at hn ⊢
      exact hn
    · rw [if_neg hc] at hn ⊢
      exact hn
  · obtain ⟨u, hu, hframe, hattention, hstation, hback⟩ :=
      quietAct_jobArrives (g := fun _ t => disarmStation t)
        (r := fun _ t => Res.okv (if t.ts.state.code = 1 then 1 else 0)) (j := .disarm)
        (does := fun t => t.working = true) (code := .unavailable) hi ha hm rfl rfl
        (Station.workRefusal_eq (.inl rfl)) fun u m _ => u.doDisarm_eq m
    exact ⟨u, congrArg _ hu, hframe, hattention, hstation, hback⟩
  · obtain ⟨u, hu, hframe, hattention, hstation, hback⟩ :=
      quietAct_jobArrives (g := fun _ t => t.sealRequest .flush) (r := fun _ t => Res.okv t.cap.used) (j := .flush)
        (does := fun t => t.working = true) (code := .unavailable) hi ha hm rfl rfl
        (Station.workRefusal_eq (.inr (.inl rfl))) fun u m _ => u.doFlush_eq m
    refine ⟨u, congrArg _ hu, hframe, hattention, fun n => ?_, hback⟩
    rw [hstation, Station.sealRequest_eq]

end Sys2Proof.Machine
end

section
/-! Fields of byte strings, and the station status record (R39, R40, Table 12-12). -/

namespace Sys2Proof.Machine

/-! ## Fields of byte strings (R185) -/

@[simp] theorem leBytes_length (k v : Nat) : (leBytes k v).length = k := by
  induction k generalizing v with
  | zero => rfl
  | succ k ih => exact congrArg (· + 1) (ih _)

@[simp] theorem zeros_length (k : Nat) : (zeros k).length = k := List.length_replicate ..

theorem leNat_leBytes (k v : Nat) : leNat (leBytes k v) = v % 256 ^ k := by
  induction k generalizing v with
  | zero => simp [leBytes, leNat, Nat.mod_one]
  | succ k ih =>
    unfold leBytes leNat
    rw [ih, BitVec.toNat_ofNat, show 256 ^ (k + 1) = 256 * 256 ^ k from Nat.pow_succ', Nat.mod_mul]

/-- A field behind the front part of a byte string. -/
theorem field_append_skip {a b : List Byte} {off : Nat} (h : a.length ≤ off) (len : Nat) :
    field (a ++ b) off len = field b (off - a.length) len := by
  unfold field
  rw [List.drop_append, List.drop_eq_nil_of_le h, List.nil_append]

/-- A field within the front part of a byte string. -/
theorem field_append_front {a b : List Byte} {off len : Nat} (h : off + len ≤ a.length) :
    field (a ++ b) off len = field a off len := by
  unfold field
  rw [List.drop_append_of_le_length (by omega), List.take_append_of_le_length (by simp; omega)]

/-- Numbers written one after the other, each in as many bytes as stand before it. -/
def packed (ps : List (Nat × Nat)) : List Byte := ps.flatMap fun p => leBytes p.1 p.2

@[simp] theorem packed_nil : packed [] = [] := rfl

@[simp] theorem packed_cons (p : Nat × Nat) (ps : List (Nat × Nat)) :
    packed (p :: ps) = leBytes p.1 p.2 ++ packed ps := List.flatMap_cons ..

theorem packed_length (ps : List (Nat × Nat)) : (packed ps).length = (ps.map Prod.fst).sum := by
  induction ps with
  | nil => rfl
  | cons p ps ih => rw [packed_cons, List.length_append, leBytes_length, ih, List.map_cons, List.sum_cons]

/-- Each number written is the field at its place. -/
theorem field_packed {ps : List (Nat × Nat)} {i k v off : Nat} (hi : ps[i]? = some (k, v))
    (ho : ((ps.take i).map Prod.fst).sum = off) : field (packed ps) off k = v % 256 ^ k := by
  subst ho
  induction ps generalizing i with
  | nil => cases hi
  | cons p ps ih =>
    rw [packed_cons]
    cases i with
    | zero =>
      obtain rfl : p = (k, v) := by simpa using hi
      unfold field
      rw [List.take_zero, List.map_nil, List.sum_nil, List.drop_zero, List.take_left' (leBytes_length ..), leNat_leBytes]
    | succ i =>
      rw [List.take_succ_cons, List.map_cons, List.sum_cons, field_append_skip (by simp), leBytes_length,
        Nat.add_sub_cancel_left]
      exact ih (by simpa using hi)

/-- A number that its bytes hold is read back. -/
theorem field_packed_of_lt {ps : List (Nat × Nat)} {i k v off : Nat} (hi : ps[i]? = some (k, v))
    (ho : ((ps.take i).map Prod.fst).sum = off) (hv : v < 256 ^ k) : field (packed ps) off k = v :=
  (field_packed hi ho).trans (Nat.mod_eq_of_lt hv)

theorem leBytes_one (b : Byte) : leBytes 1 b.toNat = [b] := by
  simp [leBytes]

theorem leBytes_zero (k : Nat) : leBytes k 0 = zeros k := by
  induction k with
  | zero => rfl
  | succ k ih => exact congrArg (0#8 :: ·) ih

/-! ## The station status record (Table 12-12) -/

/-- The numbers of a station status record, each with its width. -/
def statusParts (c : ConnectorNo) (t : Station) : List (Nat × Nat) :=
  [(1, t.state.code), (1, c.val), (1, t.bpu.state.code), (1, (t.profile.map fun p => p.powerMode.code).getD 0),
    (1, t.bpu.cls.toNat), (1, t.bpu.latched.code), (1, t.bpu.retry), (1, statusFlags t),
    (1, t.au.boardRun.code), (1, t.cap.state.code), (2, t.cap.state.remaining), (1, t.ts.state.code),
    (1, t.ts.state.step), (1, (t.bpu.held.map ProgressCode.width).getD 0), (1, t.queue.length),
    (4, (t.bpu.held.map fun h => h.value.toNat).getD 0), (2, t.cap.used), (2, historyBytes t.cap.history),
    (4, t.cap.pend.records), (4, t.cap.pend.bytes), (1, t.au.entries.length), (1, t.au.retired.length),
    (2, t.cap.seq.toNat), (4, (t.pg.page.map OpenPage.serial).getD 0), (1, t.lp.health.flags.toNat), (1, 0),
    (2, t.lp.health.corrected), (2, t.lp.health.discarded), (2, t.lp.health.filtered), (2, t.lp.health.late),
    (2, t.lp.health.unmatched)]

/-- The widths of the fields of a status record. -/
def statusWidths : List Nat :=
  [1, 1, 1, 1, 1, 1, 1, 1, 1, 1, 2, 1, 1, 1, 1, 4, 2, 2, 4, 4, 1, 1, 2, 4, 1, 1, 2, 2, 2, 2, 2]

theorem statusParts_widths (c : ConnectorNo) (t : Station) : (statusParts c t).map Prod.fst = statusWidths := rfl

theorem statusBytes_eq (c : ConnectorNo) (t : Station) : statusBytes c t = packed (statusParts c t) ++ zeros 12 := by
  unfold statusBytes Health.counters statusParts
  simp only [packed_cons, packed_nil, List.append_assoc, List.append_nil, leBytes_one, leBytes_zero, zeros,
    List.replicate_one, List.cons_append, List.nil_append]

theorem statusBytes_length (c : ConnectorNo) (t : Station) : (statusBytes c t).length = 64 := by
  rw [statusBytes_eq, List.length_append, packed_length, statusParts_widths, zeros_length]
  decide

theorem statusBytes_rest (c : ConnectorNo) (t : Station) : (statusBytes c t).drop 52 = zeros 12 := by
  rw [statusBytes_eq]
  refine List.drop_left' ?_
  rw [packed_length, statusParts_widths]
  decide

/-- Each number of a status record that its bytes hold is the field at its place. -/
theorem statusBytes_field {c : ConnectorNo} {t : Station} {i k v off : Nat} (hi : (statusParts c t)[i]? = some (k, v))
    (ho : (statusWidths.take i).sum = off) (hin : off + k ≤ statusWidths.sum) (hv : v < 256 ^ k) :
    field (statusBytes c t) off k = v := by
  rw [statusBytes_eq, field_append_front (by rwa [packed_length, statusParts_widths])]
  refine field_packed_of_lt hi ?_ hv
  rw [List.map_take, statusParts_widths, ho]

/-! ### The codes lie within a byte -/

theorem StationState.code_lt (x : StationState) : x.code < 256 := by cases x <;> decide
theorem PowerState.code_lt (x : PowerState) : x.code < 256 := by cases x <;> decide
theorem FaultKind.code_lt (x : FaultKind) : x.code < 256 := by cases x <;> decide
theorem BoardRun.code_lt (x : BoardRun) : x.code < 256 := by cases x <;> decide
theorem PowerMode.code_lt (x : PowerMode) : x.code < 256 := by cases x <;> decide

theorem CaptureState.code_lt (x : CaptureState) : x.code < 256 := by
  cases x <;> simp [CaptureState.code]

theorem SeqState.code_lt (x : SeqState) : x.code < 256 := by
  cases x <;> simp [SeqState.code]

theorem SeqState.step_lt (x : SeqState) : x.step < 256 := by
  cases x with
  | armed i _ _ => exact Nat.lt_trans i.isLt (by decide)
  | disarmed => decide
  | done => decide

/-- Byte 7 of a status record holds the six flags in their order. -/
theorem statusFlags_bits (t : Station) (i : Fin 8) :
    (BitVec.ofNat 8 (statusFlags t)).getLsbD i.val = [t.bpu.hold, t.lp.up, t.bpu.held.isSome, t.au.holder,
      t.pg.page.isSome, t.cap.loss, false, false][i.val]?.getD false := by
  unfold statusFlags
  generalize t.bpu.hold = a, t.lp.up = b, t.bpu.held.isSome = c, t.au.holder = d, t.pg.page.isSome = f, t.cap.loss = g
  revert a b c d f g i
  decide

theorem statusFlags_lt (t : Station) : statusFlags t < 256 := by
  have hbit : ∀ b : Bool, bit b ≤ 1 := by decide
  unfold statusFlags
  have h1 := hbit t.bpu.hold
  have h2 := hbit t.lp.up
  have h3 := hbit t.bpu.held.isSome
  have h4 := hbit t.au.holder
  have h5 := hbit t.pg.page.isSome
  have h6 := hbit t.cap.loss
  omega

section
variable {c : ConnectorNo} {t : Station}

/-- The fields of a status record that a station within its bounds fills (Table 12-12). -/
theorem statusBytes_bounded (hc : t.cap.bounded) (ha : t.au.bounded) (hq : t.queue.length ≤ 4) :
    let d := statusBytes c t
    field d 0 1 = t.state.code ∧ field d 1 1 = c.val
      ∧ field d 2 1 = t.bpu.state.code ∧ field d 4 1 = t.bpu.cls.toNat
      ∧ field d 5 1 = t.bpu.latched.code ∧ field d 8 1 = t.au.boardRun.code
      ∧ field d 9 1 = t.cap.state.code ∧ field d 12 1 = t.ts.state.code
      ∧ field d 13 1 = t.ts.state.step ∧ field d 15 1 = t.queue.length
      ∧ field d 20 2 = t.cap.used ∧ field d 32 1 = t.au.entries.length
      ∧ field d 33 1 = t.au.retired.length ∧ field d 34 2 = t.cap.seq.toNat := by
  obtain ⟨hused, -, -, -⟩ := hc
  obtain ⟨hentries, hretired, -⟩ := ha
  have hused' : t.cap.used ≤ 8192 := hused
  have hentries' : t.au.entries.length ≤ 4 := hentries
  have hretired' : t.au.retired.length ≤ 8 := hretired
  exact ⟨statusBytes_field (i := 0) rfl rfl (by decide) t.state.code_lt,
    statusBytes_field (i := 1) rfl rfl (by decide) (by have := c.isLt; omega),
    statusBytes_field (i := 2) rfl rfl (by decide) t.bpu.state.code_lt,
    statusBytes_field (i := 4) rfl rfl (by decide) (by have := t.bpu.cls.isLt; omega),
    statusBytes_field (i := 5) rfl rfl (by decide) t.bpu.latched.code_lt,
    statusBytes_field (i := 8) rfl rfl (by decide) t.au.boardRun.code_lt,
    statusBytes_field (i := 9) rfl rfl (by decide) t.cap.state.code_lt,
    statusBytes_field (i := 11) rfl rfl (by decide) t.ts.state.code_lt,
    statusBytes_field (i := 12) rfl rfl (by decide) t.ts.state.step_lt,
    statusBytes_field (i := 14) rfl rfl (by decide) (by omega),
    statusBytes_field (i := 16) rfl rfl (by decide) (by omega),
    statusBytes_field (i := 20) rfl rfl (by decide) (by omega),
    statusBytes_field (i := 21) rfl rfl (by decide) (by omega),
    statusBytes_field (i := 22) rfl rfl (by decide) t.cap.seq.isLt⟩

/-- The remaining number fields of a status record, where what they hold fits them (Table 12-12). -/
theorem statusBytes_others (hc : t.cap.bounded) (hsize : t.cap.historySize ≤ 8192) (hretry : t.bpu.retry ≤ 7)
    (hheld : ∀ h, t.bpu.held = some h → h.width ≤ 4) (hpost : ∀ m, t.cap.state = .stopping m → m ≤ 65535)
    (hrecords : t.cap.pend.records ≤ 4294967295) (hbytes : t.cap.pend.bytes ≤ 4294967295)
    (hserial : ∀ p, t.pg.page = some p → p.serial ≤ 4294967295) :
    let d := statusBytes c t
    field d 3 1 = (t.profile.map fun p => p.powerMode.code).getD 0 ∧ field d 6 1 = t.bpu.retry
      ∧ field d 7 1 = statusFlags t ∧ field d 10 2 = t.cap.state.remaining
      ∧ field d 14 1 = (t.bpu.held.map ProgressCode.width).getD 0
      ∧ field d 16 4 = (t.bpu.held.map fun h => h.value.toNat).getD 0
      ∧ field d 22 2 = historyBytes t.cap.history
      ∧ field d 24 4 = t.cap.pend.records ∧ field d 28 4 = t.cap.pend.bytes
      ∧ field d 36 4 = (t.pg.page.map OpenPage.serial).getD 0 := by
  obtain ⟨-, -, hhistory, -⟩ := hc
  refine ⟨statusBytes_field (i := 3) rfl rfl (by decide) ?_, statusBytes_field (i := 6) rfl rfl (by decide) (by omega),
    statusBytes_field (i := 7) rfl rfl (by decide) (statusFlags_lt t),
    statusBytes_field (i := 10) rfl rfl (by decide) ?_, statusBytes_field (i := 13) rfl rfl (by decide) ?_,
    statusBytes_field (i := 15) rfl rfl (by decide) ?_, statusBytes_field (i := 17) rfl rfl (by decide) (by omega),
    statusBytes_field (i := 18) rfl rfl (by decide) (by omega),
    statusBytes_field (i := 19) rfl rfl (by decide) (by omega),
    statusBytes_field (i := 23) rfl rfl (by decide) ?_⟩
  · cases t.profile with
    | none => decide
    | some p => exact p.powerMode.code_lt
  · cases hs : t.cap.state with
    | stopping m => exact Nat.lt_of_le_of_lt (hpost m hs) (by decide)
    | _ => decide
  · cases hh : t.bpu.held with
    | none => decide
    | some x => exact Nat.lt_of_le_of_lt (hheld x hh) (by decide)
  · cases t.bpu.held with
    | none => decide
    | some x => exact x.value.isLt
  · cases hp : t.pg.page with
    | none => decide
    | some p => exact Nat.lt_of_le_of_lt (hserial p hp) (by decide)

/-- The link health fields of a status record (Table 12-12). -/
theorem statusBytes_health (h1 : t.lp.health.corrected ≤ 65535) (h2 : t.lp.health.discarded ≤ 65535)
    (h3 : t.lp.health.filtered ≤ 65535) (h4 : t.lp.health.late ≤ 65535) (h5 : t.lp.health.unmatched ≤ 65535) :
    let d := statusBytes c t
    field d 40 1 = t.lp.health.flags.toNat ∧ field d 41 1 = 0
      ∧ field d 42 2 = t.lp.health.corrected ∧ field d 44 2 = t.lp.health.discarded
      ∧ field d 46 2 = t.lp.health.filtered ∧ field d 48 2 = t.lp.health.late
      ∧ field d 50 2 = t.lp.health.unmatched :=
  ⟨statusBytes_field (i := 24) rfl rfl (by decide) t.lp.health.flags.isLt,
    statusBytes_field (i := 25) rfl rfl (by decide) (by decide),
    statusBytes_field (i := 26) rfl rfl (by decide) (by omega),
    statusBytes_field (i := 27) rfl rfl (by decide) (by omega),
    statusBytes_field (i := 28) rfl rfl (by decide) (by omega),
    statusBytes_field (i := 29) rfl rfl (by decide) (by omega),
    statusBytes_field (i := 30) rfl rfl (by decide) (by omega)⟩

end

/-! ## STATUS (R39) -/

/-- Executing an immediate job by `f` or by `g` is the same where both agree on what holds all along. -/
theorem State.immediate_congr {P : State → Prop} {s : State} {slot : Word64} {v : SlotView} {j : Job}
    {f g : Nat → State → StationNo → Done} (hs : P (s.hold slot v noResults none .notNeeded))
    (heq : ∀ u n, P u → f s.nextJid u n = g s.nextJid u n)
    (hkeeps : ∀ u n, P u → P (u.immediateAt s.nextJid j (g s.nextJid) n)) :
    s.immediate slot v j f = s.immediate slot v j g := by
  have hfold : ∀ (l : List StationNo) (u : State), P u →
      l.foldl (fun s' n => s'.immediateAt s.nextJid j (f s.nextJid) n) u
        = l.foldl (fun s' n => s'.immediateAt s.nextJid j (g s.nextJid) n) u := by
    intro l
    induction l with
    | nil => intros; rfl
    | cons n ns ih =>
      intro u hu
      have hstep : u.immediateAt s.nextJid j (f s.nextJid) n = u.immediateAt s.nextJid j (g s.nextJid) n := by
        unfold State.immediateAt
        rw [heq u n hu]
      rw [List.foldl_cons, List.foldl_cons, hstep]
      exact ih _ (hkeeps u n hu)
  exact hfold _ _ hs

/-- What an immediate job with a local effect leaves, where only all along the job the effect is local. -/
theorem LocalAct.jobArrives_of_eq {A : LocalAct} {s : State} {id i : Nat} {slot : Word64} {live : Bool}
    {h : JobHeader} {j : Job} {f : Nat → State → StationNo → Done} (hi : s.jobsInv)
    (ha : s.awaitsSlot id i slot live) (hm : h.mask ≠ 0) (hj : j.cls = .immediate) (hf : j.fieldsOk = true)
    (heq : (s.endRead id).immediate slot (postedView h j) j (j.doAt (postedView h j))
      = (s.endRead id).immediate slot (postedView h j) j f)
    (hA : ∀ u m, (u.station m).state.immediateRefusal j = none → f s.nextJid u m = A.apply u m) :
    ∃ u : State, s.jobArrives id h j = u.afterSlot i live ∧ s.afterExecuted u id
      ∧ (∀ n, u.station n = if inMask h.mask n then A.after j s n else s.station n)
      ∧ u.attention = (maskStations h.mask).foldl (fun a n => a ||| A.bitsAt j s n) s.attention
      ∧ u.writtenBack (s.hmp.jobQ ++ (maskStations h.mask).flatMap (A.writesAt j s)) slot h
          (perStation h.mask (A.resultAt j s)) none s.tb := by
  obtain ⟨-, -, hjid, -, -⟩ := hi
  have hresults : (A.filled j (s.endRead id)
      (newHeld s.nextJid slot (postedView h j) noResults none .notNeeded) (maskStations h.mask)).results
        = perStation h.mask (A.resultAt j s) := by
    simp only [LocalAct.filled, perStation, mem_maskStations, HeldJob.resultAt, newHeld, noResults,
      Vector.getElem_replicate]
    rfl
  refine ⟨_, (State.jobArrives_immediate ha hj hf hm).trans (congrArg (State.afterSlot · i live) heq), ?_⟩
  rw [LocalAct.immediate_eq (s := s.endRead id) (v := postedView h j) hjid hm hA, postedView_header]
  refine ⟨rfl, fun n => ?_, rfl, _, List.mem_append_right _ (List.mem_singleton_self _),
    rfl, rfl, rfl, hresults, rfl, ?_, ?_⟩
  · simp only [LocalAct.done, State.station, mem_maskStations, Vector.getElem_ofFn]
    rfl
  · rw [← hresults]; rfl
  · rw [← hresults]; rfl

/-- STATUS's effect at a station, the station map being `map`: the write of its record (R39). -/
def statusAct (map : Vector ConnectorNo 8) (jid : Nat) (buf : Word64) : LocalAct where
  station _ t := t
  bits _ _ := 0
  writes e t := [Access.writeOf .job none (buf + BitVec.ofNat 64 (64 * e.n.val)) (statusBytes map[e.n.val] t)
    (.statusRec jid e.n)]
  result _ t := Res.okv t.cap.used

theorem State.doStatus_eq {map : Vector ConnectorNo 8} {u : State} (hu : u.stationMap = map) (jid : Nat)
    (buf : Word64) (n : StationNo) : u.doStatus jid buf n = (statusAct map jid buf).apply u n := by
  subst hu
  have hput : u.put n ((statusAct u.stationMap jid buf).station (u.env n) (u.station n))
      (u.attention ||| (statusAct u.stationMap jid buf).bits (u.env n) (u.station n)) = u :=
    (congrArg (u.put n (u.station n)) BitVec.or_zero).trans (u.put_self n)
  unfold LocalAct.apply
  rw [hput]
  rfl

/-- A result recorded leaves the station map as it is. -/
theorem State.recordResult_stationMap (s : State) (n : StationNo) (j : Nat) (r : Res) :
    (s.recordResult n j r).stationMap = s.stationMap := by
  rw [State.recordResult_frame]

/-- Every station executes STATUS (Table 2-2). -/
theorem StationState.statusRefusal_eq (x : StationState) (buf : Word64) :
    x.immediateRefusal (.status buf) = none := by
  cases x <;> rfl

/-- STATUS executed from its slot read writes each named station's record (R39). -/
theorem status_jobArrives {s : State} {id i : Nat} {slot : Word64} {live : Bool} {h : JobHeader} {buf : Word64}
    (hi : s.jobsInv) (ha : s.awaitsSlot id i slot live) (hm : h.mask ≠ 0) (hbuf : buf.toNat % 8 = 0) :
    ∃ u : State, exec (.status id h buf) s = .next (u.afterSlot i live) ∧ s.afterExecuted u id
      ∧ u.stations = s.stations ∧ u.attention = s.attention
      ∧ u.writtenBack
          (s.hmp.jobQ ++ (maskStations h.mask).map fun n =>
            Access.writeOf .job none (buf + BitVec.ofNat 64 (64 * n.val))
              (statusBytes (s.connectorOf n) (s.station n)) (.statusRec s.nextJid n))
          slot h (perStation h.mask fun n => Res.okv (s.station n).cap.used) none s.tb := by
  have hf : (Job.status buf).fieldsOk = true := by
    simpa [Job.fieldsOk] using hbuf
  have hcongr := State.immediate_congr (P := fun u => u.stationMap = s.stationMap) (s := s.endRead id) (slot := slot)
    (v := postedView h (.status buf)) (j := .status buf) (f := (Job.status buf).doAt (postedView h (.status buf)))
    (g := fun jid u n => (statusAct s.stationMap jid buf).apply u n) rfl
    (fun u n hu => u.doStatus_eq hu _ buf n) fun u n hu => by
      unfold State.immediateAt
      split
      · exact (State.recordResult_stationMap ..).trans hu
      · exact (State.recordResult_stationMap ..).trans hu
  obtain ⟨u, hu, hframe, hstation, hattention, hback⟩ :=
    LocalAct.jobArrives_of_eq (A := statusAct s.stationMap s.nextJid buf) hi ha hm rfl hf hcongr fun _ _ _ => rfl
  have hrefusal := fun n => (s.station n).state.statusRefusal_eq buf
  refine ⟨u, congrArg _ hu, hframe, State.stations_ext fun n => ?_, ?_, ?_⟩
  · have hafter : (statusAct s.stationMap s.nextJid buf).after (.status buf) s n = s.station n := by
      unfold LocalAct.after
      rw [hrefusal]
      rfl
    have hn := hstation n
    rw [hafter, ite_self] at hn
    exact hn
  · have hbits : ∀ (a : BitVec 11) n, a ||| (statusAct s.stationMap s.nextJid buf).bitsAt (.status buf) s n = a := by
      intro a n
      unfold LocalAct.bitsAt
      rw [hrefusal]
      exact BitVec.or_zero
    rw [hattention]
    induction maskStations h.mask with
    | nil => rfl
    | cons m ms ih => rw [List.foldl_cons, hbits, ih]
  · have hwrites : (statusAct s.stationMap s.nextJid buf).writesAt (.status buf) s = fun n =>
        [Access.writeOf .job none (buf + BitVec.ofNat 64 (64 * n.val))
          (statusBytes (s.connectorOf n) (s.station n)) (.statusRec s.nextJid n)] := by
      funext n
      unfold LocalAct.writesAt
      rw [hrefusal]
      rfl
    have hresult : (statusAct s.stationMap s.nextJid buf).resultAt (.status buf) s
        = fun n => Res.okv (s.station n).cap.used := by
      funext n
      unfold LocalAct.resultAt
      rw [hrefusal]
      rfl
    rw [hwrites, hresult, ← List.map_eq_flatMap] at hback
    exact hback

/-- Settles O22: STATUS is an immediate job that writes `statusBytes` of each named station. -/
theorem statusWritesRecords : Obligations.StatusWritesRecords := by
  unfold Obligations.StatusWritesRecords
  refine ⟨⟨fun s id i slot live h buf => status_jobArrives, fun c t hc ha hq => ⟨statusBytes_length c t, statusBytes_bounded hc ha hq⟩⟩, ?_⟩
  intro c t hc ha hq hsize hretry hheld hpost hrecords hbytes hserial h1 h2 h3 h4 h5 d
  obtain ⟨fmode, fretry, fflags, fpost, fwidth, fheld, fhistory, frecords, fbytes, fserial⟩ :=
    statusBytes_others (c := c) hc hsize hretry hheld hpost hrecords hbytes hserial
  obtain ⟨gflags, gzero, g1, g2, g3, g4, g5⟩ := statusBytes_health (c := c) h1 h2 h3 h4 h5
  refine ⟨fmode.trans ?_, fretry, fun i => ?_, fpost.trans ?_, fwidth, fheld, fhistory, frecords, fbytes, fserial, ?_,
    gzero, g1, g2, g3, g4, g5, fun b hb => ?_⟩
  · cases t.profile with
    | none => rfl
    | some p => cases hp : p.powerMode <;> simp [hp, PowerMode.code]
  · unfold byteAt
    rw [fflags]
    exact statusFlags_bits t i
  · cases t.cap.state <;> rfl
  · unfold byteAt
    rw [gflags, BitVec.ofNat_toNat, BitVec.setWidth_eq]
  · rw [statusBytes_rest] at hb
    exact List.eq_of_mem_replicate hb

end Sys2Proof.Machine
end

section
/-! Device jobs, the SYNC edge, and slots that are passed over, refused or orphaned (R3 to R5, R41, R42, R173,
R174, R180). -/

namespace Sys2Proof.Machine

/-! ## A job ended at the read (R174, R178) -/

/-- A job that ends at the read is written back with its own result, and nothing else changes. -/
theorem State.endAtOnce_writtenBack {r : State} (hl : ∀ x ∈ r.held, x.jid < r.nextJid) (slot : Word64) (v : SlotView)
    (results : Vector (Option Res) 8) (a : Res) :
    ∃ held q, r.endAtOnce slot v results a
        = { r with held := held, nextJid := r.nextJid + 1, hmp := { r.hmp with jobQ := q } }
      ∧ State.writtenBack
        { r with held := held, nextJid := r.nextJid + 1, hmp := { r.hmp with jobQ := q } }
        r.hmp.jobQ slot v.header results (some a) r.tb :=
  ⟨_, _, State.endAtOnce_eq hl slot v results a, _, List.mem_append_right _ (List.mem_singleton_self _), rfl, rfl, rfl,
    rfl, rfl, rfl, rfl⟩

/-! ## A whole slot (R173, R174, R180) -/

/-- What a whole slot that has arrived does to the device, before the sweep goes on. -/
def State.slotHandled (r : State) (v : SlotView) (slot : Word64) (orphan : Bool) : State :=
  if v.state ≠ (if orphan then 2 else 1) ∨ r.holdsSlot slot then r
  else if orphan then r.handleOrphan slot v
  else r.handlePosted slot v

section
variable {s : State} {id i : Nat} {slot : Word64} {orphan live : Bool} {d : List Byte}

/-- An awaited whole slot arrives. -/
theorem slotReadDone_awaited (ha : s.awaits id (Access.readOf .sweep none slot 128 (.slotWhole i slot orphan live)))
    (hd : d.length = 128) : exec (.slotReadDone id d) s
      = .next (((s.endRead id).slotHandled (slotView d) slot orphan).afterSlot i live) := by
  refine congrArg Host.Outcome.next ?_
  rw [State.completeRead_awaited ha hd.symm nofun]
  rfl

/-- A posted slot that nothing holds is handled by R174. -/
theorem slotReadDone_posted (ha : s.awaitsSlot id i slot live) (hd : d.length = 128) (hp : field d 0 1 = 1) :
    exec (.slotReadDone id d) s = .next (((s.endRead id).handlePosted slot (slotView d)).afterSlot i live) := by
  obtain ⟨hread, hfree⟩ := ha
  have hfree' : (s.endRead id).holdsSlot slot = false := hfree
  have hstate : (slotView d).state = 1 := hp
  rw [slotReadDone_awaited hread hd]
  unfold State.slotHandled
  rw [if_neg (by simp [hfree', hstate])]
  rfl

/-- A posted device job that passes its checks is executed and ends at the read (R174, R175). -/
theorem State.jobArrives_device {h : JobHeader} {j : Job} (ha : s.awaitsSlot id i slot live) (hj : j.cls = .device)
    (hk : isDeviceKind j.kind = true) (hm : h.mask = 0) :
    s.jobArrives id h j = (if j.fieldsOk then
        (j.device (s.endRead id)).1.endAtOnce slot (postedView h j) noResults (j.device (s.endRead id)).2
      else (s.endRead id).endAtOnce slot (postedView h j) noResults (Res.ended .badParameter)).afterSlot i live := by
  obtain ⟨hread, hfree⟩ := ha
  have hfree' : (s.endRead id).holdsSlot slot = false := hfree
  have hmask : (postedView h j).maskOk = true := by simp [SlotView.maskOk, hk, hm]
  have harrives : s.jobArrives id h j
      = ((s.endRead id).slotHandled (postedView h j) slot false).afterSlot i live := by
    unfold State.jobArrives
    rw [State.completeRead_awaited (len := 128) hread rfl nofun]
    rfl
  rw [harrives]
  unfold State.slotHandled
  rw [if_neg (by simp [hfree'])]
  simp [State.handlePosted, State.runJob, hmask, hj]

end

/-! ## TIME LOAD and SYNC (R3 to R5) -/

theorem bit_isSome {α : Type} (x : Option α) : bit x.isSome = if x = none then 0 else 1 := by
  cases x <;> rfl

/-- Settles O25: `State.loadTime` is what a load does, by the job or by the edge. -/
theorem timeLoadsTakeEffect : Obligations.TimeLoadsTakeEffect := by
  unfold Obligations.TimeLoadsTakeEffect
  refine ⟨fun s hs => ?_, fun s p hs => ?_, ?_⟩
  · show execSyncEdge s = _
    unfold execSyncEdge
    rw [hs]
  · refine ⟨s.loadTime p, ?_, rfl, rfl, rfl, s.loadTime_station p⟩
    show execSyncEdge s = _
    unfold execSyncEdge
    rw [hs]
  · intro s id i slot live h preset hi ha hm hp value
    have hf : (Job.timeLoadImmediate preset).fieldsOk = true := by simpa [Job.fieldsOk] using hp
    have hvalue : bit (s.endRead id).pendingLoad.isSome = value := bit_isSome s.pendingLoad
    have hpreset : (preset.setWidth 48).toNat = preset.toNat := by
      rw [BitVec.toNat_setWidth, Nat.mod_eq_of_lt hp]
    obtain ⟨-, -, hjid, -, -⟩ := hi
    constructor
    · have harrives := State.jobArrives_device (j := .timeLoadImmediate preset) ha rfl rfl hm
      rw [if_pos hf] at harrives
      obtain ⟨held, q, hu, hback⟩ := State.endAtOnce_writtenBack
        (r := (s.endRead id).loadTime (preset.setWidth 48)) hjid slot (postedView h (.timeLoadImmediate preset))
        noResults (Res.okv (bit (s.endRead id).pendingLoad.isSome))
      refine ⟨_, congrArg Host.Outcome.next (harrives.trans (congrArg (State.afterSlot · i live) hu)), rfl, hpreset,
        (s.endRead id).loadTime_station _, ?_⟩
      rw [hvalue] at hback
      exact hback
    · have harrives := State.jobArrives_device (j := .timeLoadOnSync preset) ha rfl rfl hm
      rw [if_pos (show (Job.timeLoadOnSync preset).fieldsOk = true from hf)] at harrives
      obtain ⟨held, q, hu, hback⟩ := State.endAtOnce_writtenBack
        (r := { s.endRead id with pendingLoad := some (preset.setWidth 48) }) hjid slot
        (postedView h (.timeLoadOnSync preset)) noResults (Res.okv (bit (s.endRead id).pendingLoad.isSome))
      refine ⟨_, congrArg Host.Outcome.next (harrives.trans (congrArg (State.afterSlot · i live) hu)), rfl,
        congrArg some hpreset, ?_⟩
      rw [hvalue] at hback
      exact hback

/-! ## STATION MAP (R41, R42) -/

/-- The map that a STATION MAP with these connector numbers gives. -/
def mapOf (cs : List Byte) : Vector ConnectorNo 8 := Vector.ofFn fun n =>
  ⟨(cs.getD n.val 0).toNat % 8, Nat.mod_lt _ (by decide)⟩

theorem stationMap_fieldsOk {cs : List Byte} (hlen : cs.length = 8) :
    (Job.stationMap cs).fieldsOk = true ↔ (∀ c ∈ cs, c.toNat ≤ 7) ∧ cs.Nodup := by
  simp [Job.fieldsOk, hlen]

theorem mapOf_get {cs : List Byte} (hlen : cs.length = 8) (hcs : ∀ c ∈ cs, c.toNat ≤ 7) (n : StationNo) :
    cs[n.val]?.map BitVec.toNat = some ((mapOf cs)[n.val]).val := by
  have hn : n.val < cs.length := by omega
  have hle := hcs _ (List.getElem_mem hn)
  simp only [mapOf, Vector.getElem_ofFn, List.getElem?_eq_getElem hn, List.getD_eq_getElem _ _ hn, Option.map_some]
  rw [Nat.mod_eq_of_lt (by omega)]

/-- What a STATION MAP that passes its checks does (R42). -/
theorem stationMap_device (s : State) (cs : List Byte) : (Job.stationMap cs).device s
    = if ∀ n, (s.station n).state = .off then ({ s with stationMap := mapOf cs }, Res.okv 0)
      else (s, Res.ended .state) := by
  have hall : (allStations.all fun n => (s.station n).state == .off) = true ↔ ∀ n, (s.station n).state = .off := by
    simp [mem_allStations]
  unfold Job.device
  exact if_congr hall rfl rfl

/-- STATION MAP executed from its slot read, with what it does and its result. -/
theorem stationMap_arrives {s w : State} {id i : Nat} {slot : Word64} {live : Bool} {h : JobHeader} {cs : List Byte}
    {a : Res} {m : Vector ConnectorNo 8} (hi : s.jobsInv) (hw : w = { s.endRead id with stationMap := m })
    (hdoes : s.jobArrives id h (.stationMap cs)
      = (w.endAtOnce slot (postedView h (.stationMap cs)) noResults a).afterSlot i live) :
    ∃ u : State, exec (.stationMap id h cs) s = .next (u.afterSlot i live)
      ∧ u = { s.endRead id with
          stationMap := u.stationMap, held := u.held, nextJid := s.nextJid + 1
          hmp := { (s.endRead id).hmp with jobQ := u.hmp.jobQ } }
      ∧ u.stationMap = m ∧ u.writtenBack s.hmp.jobQ slot h noResults (some a) s.tb := by
  subst hw
  obtain ⟨-, -, hjid, -, -⟩ := hi
  obtain ⟨held, q, hu, hback⟩ := State.endAtOnce_writtenBack (r := { s.endRead id with stationMap := m }) hjid slot
    (postedView h (.stationMap cs)) noResults a
  exact ⟨_, congrArg Host.Outcome.next (hdoes.trans (congrArg (State.afterSlot · i live) hu)), rfl, rfl, hback⟩

/-- Each connector serves exactly one station where the map is a permutation (R41). -/
theorem State.stationOf_unique {s : State} (hn : s.stationMap.toList.Nodup) (c : ConnectorNo) :
    ∃ n, s.stationOf c = some n ∧ s.connectorOf n = c ∧ ∀ m, s.connectorOf m = c → m = n := by
  have hinj : Function.Injective s.connectorOf := by
    intro m n hmn
    have hm : m.val < s.stationMap.toList.length := by rw [Vector.length_toList]; exact m.isLt
    have hn' : n.val < s.stationMap.toList.length := by rw [Vector.length_toList]; exact n.isLt
    refine Fin.ext (hn.getElem_inj_iff.mp (?_ : s.stationMap.toList[m.val] = s.stationMap.toList[n.val]))
    rw [Vector.getElem_toList, Vector.getElem_toList]
    exact hmn
  obtain ⟨k, hk⟩ := Finite.injective_iff_surjective.mp hinj c
  have hsome : (s.stationOf c).isSome := by
    unfold State.stationOf
    rw [List.find?_isSome]
    exact ⟨k, mem_allStations k, by simp [hk]⟩
  obtain ⟨n, hn'⟩ := Option.isSome_iff_exists.mp hsome
  have hcn := State.connectorOf_stationOf hn'
  exact ⟨n, hn', hcn, fun m hm => hinj (hm.trans hcn.symm)⟩

/-- Settles O26: `stationMap_device` decides by the stations' states; a permutation serves each connector. -/
theorem stationMapNeedsAllOff : Obligations.StationMapNeedsAllOff := by
  unfold Obligations.StationMapNeedsAllOff
  constructor
  · intro s id i slot live h cs hi ha hm hlen frame good
    have harrives := State.jobArrives_device (j := .stationMap cs) ha rfl rfl hm
    rw [stationMap_device] at harrives
    have hoff : ∀ n, (s.endRead id).station n = s.station n := fun _ => rfl
    simp only [hoff] at harrives
    refine ⟨fun hgood hall => ?_, fun hgood hsome => ?_, fun hbad => ?_⟩
    · rw [if_pos ((stationMap_fieldsOk hlen).mpr hgood), if_pos hall] at harrives
      obtain ⟨u, hu, hframe, hmap, hback⟩ := stationMap_arrives (m := mapOf cs) hi rfl harrives
      refine ⟨u, hu, hframe, fun n => ?_, hback⟩
      unfold State.connectorOf
      rw [hmap]
      exact mapOf_get hlen hgood.1 n
    · obtain ⟨n, hn⟩ := hsome
      rw [if_pos ((stationMap_fieldsOk hlen).mpr hgood), if_neg fun hall => hn (hall n)] at harrives
      exact stationMap_arrives (m := s.stationMap) hi rfl harrives
    · rw [if_neg fun hok => hbad ((stationMap_fieldsOk hlen).mp hok)] at harrives
      exact stationMap_arrives (m := s.stationMap) hi rfl harrives
  · intro s c hn
    obtain ⟨n, hserves, hconn, honly⟩ := State.stationOf_unique hn c
    refine ⟨n, hserves, hconn, honly, ?_, ?_, s.outputOf_serves hserves _ _, s.outputOf_serves hserves _ _⟩
    · unfold State.pwrEnAt
      rw [State.outputOf_serves hserves]
      unfold PowerUnit.pwrEn
      cases (s.station n).bpu.state <;> simp
    · unfold State.boardResetAt
      rw [State.outputOf_serves hserves]
      simp [PowerUnit.boardReset, PowerUnit.released]

/-! ## Which slots hold a job (Table 12-5) -/

/-- A kind byte outside 1 to 23 names no job, and no other does so. -/
theorem slotJob_badKind_iff (d : List Byte) : slotJob d = .badKind ↔ field d 1 1 = 0 ∨ 23 < field d 1 1 := by
  have hofOption : ∀ o, SlotJob.ofOption o ≠ .badKind := fun o => by cases o <;> nofun
  unfold slotJob
  dsimp only
  split
  case h_12 => split <;> simp_all
  case h_13 => split <;> simp_all
  case h_15 => split <;> simp_all
  case h_21 => split <;> simp_all
  case h_22 => split <;> simp_all
  case h_24 => simp only [imp_false, true_iff] at *; omega
  all_goals simp_all

theorem powerModeOf_none_iff (k : Nat) : powerModeOf k = none ↔ 2 < k := by
  unfold powerModeOf
  split
  case h_4 =>
    simp only [imp_false] at *
    simp
    omega
  all_goals simp

theorem ofOption_refused_iff (o : Option Job) : SlotJob.ofOption o = .refused ↔ o = none := by
  cases o <;> simp [SlotJob.ofOption]

/-- The code fields whose values are refused (Table 12-5). -/
theorem slotJob_refused_iff (d : List Byte) : slotJob d = .refused ↔
    (field d 1 1 = 12 ∧ (field d 16 1 = 0 ∨ 3 < field d 16 1 ∨ (field d 16 1 = 3 ∧ 2 < field d 17 1)))
      ∨ (field d 1 1 = 13 ∧ (field d 16 1 = 0 ∨ 3 < field d 16 1))
      ∨ (field d 1 1 = 15 ∧ 1 < field d 26 1)
      ∨ ((field d 1 1 = 21 ∨ field d 1 1 = 22) ∧ 1 < field d 16 1) := by
  unfold slotJob
  dsimp only
  split
  case h_12 hk =>
    split
    case h_3 hop => simp [hk, hop, ofOption_refused_iff, powerModeOf_none_iff]
    case h_4 =>
      simp only [imp_false] at *
      simp [hk]
      omega
    all_goals simp_all
  case h_13 hk =>
    split
    case h_4 =>
      simp only [imp_false] at *
      simp [hk]
      omega
    all_goals simp_all
  case h_15 hk =>
    split
    case h_3 =>
      simp only [imp_false] at *
      simp [hk]
      omega
    all_goals simp_all
  case h_21 hk =>
    split
    case h_3 =>
      simp only [imp_false] at *
      simp [hk]
      omega
    all_goals simp_all
  case h_22 hk =>
    split
    case h_3 =>
      simp only [imp_false] at *
      simp [hk]
      omega
    all_goals simp_all
  case h_24 =>
    simp only [imp_false] at *
    simp
    omega
  all_goals simp_all

end Sys2Proof.Machine
end

section
/-! Posted slots: refused, orphaned, and queued jobs taken (R173 to R176, R180). -/

namespace Sys2Proof.Machine

section
variable {s : State} {id i : Nat} {slot : Word64} {live : Bool} {d : List Byte}

/-- A posted slot whose job does not run is written back with the reason. -/
theorem slotReadDone_refused {code : ResultCode} (hi : s.jobsInv) (hd : d.length = 128)
    (ha : s.awaitsSlot id i slot live) (hp : field d 0 1 = 1)
    (hends : (s.endRead id).handlePosted slot (slotView d)
      = (s.endRead id).endAtOnce slot (slotView d) noResults (Res.ended code)) :
    ∃ u : State, exec (.slotReadDone id d) s = .next (u.afterSlot i live)
      ∧ u = { s.endRead id with
          held := u.held, nextJid := s.nextJid + 1
          hmp := { (s.endRead id).hmp with jobQ := u.hmp.jobQ } }
      ∧ u.writtenBack s.hmp.jobQ slot (slotView d).header noResults (some (Res.ended code)) s.tb := by
  obtain ⟨-, -, hjid, -, -⟩ := hi
  obtain ⟨held, q, hu, hback⟩ := State.endAtOnce_writtenBack (r := s.endRead id) hjid slot (slotView d) noResults
    (Res.ended code)
  refine ⟨_, (slotReadDone_posted ha hd hp).trans
    (congrArg (fun w => Host.Outcome.next (State.afterSlot w i live)) (hends.trans hu)), rfl, hback⟩

theorem State.handlePosted_badKind (r : State) (v : SlotView) (h : v.job = .badKind) :
    r.handlePosted slot v = r.endAtOnce slot v noResults (Res.ended .badKind) := by
  unfold State.handlePosted
  rw [h]

/-- A job that is refused, or whose mask or fields fail, ends BAD PARAMETER (R174). -/
theorem State.handlePosted_badParameter (r : State) (v : SlotView) (hb : v.job ≠ .badKind)
    (h : ∀ j, v.job = .job j → (v.maskOk && j.fieldsOk) = false) :
    r.handlePosted slot v = r.endAtOnce slot v noResults (Res.ended .badParameter) := by
  unfold State.handlePosted
  cases hj : v.job with
  | badKind => exact absurd hj hb
  | refused => rfl
  | job j => simp [h j hj]

end

theorem field_byte_lt (d : List Byte) (off : Nat) : field d off 1 < 256 := by
  unfold field
  cases h : d.drop off with
  | nil => decide
  | cons b bs => simpa [leNat] using b.isLt

theorem slotView_maskOk (d : List Byte) : (slotView d).maskOk = true
    ↔ (field d 2 1 = 0 ↔ field d 1 1 = 22 ∨ field d 1 1 = 23) := by
  have hmask : (slotView d).header.mask = 0 ↔ field d 2 1 = 0 := by
    rw [← BitVec.toNat_inj]
    show (BitVec.ofNat 8 (field d 2 1)).toNat = 0 ↔ _
    rw [BitVec.toNat_ofNat, Nat.mod_eq_of_lt (field_byte_lt d 2)]
  have hkind : isDeviceKind (slotView d).kind = true ↔ field d 1 1 = 22 ∨ field d 1 1 = 23 := by
    show isDeviceKind (field d 1 1) = true ↔ _
    simp [isDeviceKind]
  unfold SlotView.maskOk
  rw [beq_iff_eq, Bool.eq_iff_iff, beq_iff_eq, hmask, hkind]

/-- Settles O15: the checks of R174 in turn, each ending the job at the read. -/
theorem refusedJobIsWrittenBack : Obligations.RefusedJobIsWrittenBack := by
  unfold Obligations.RefusedJobIsWrittenBack
  refine ⟨⟨?_, ?_, ?_⟩, fun d => slotJob_refused_iff d, ?_⟩
  · intro s id i slot live d hd ha hpass
    have hpass' : (slotView d).state ≠ (if false = true then 2 else 1) ∨ (s.endRead id).holdsSlot slot = true := hpass
    rw [slotReadDone_awaited ha hd]
    unfold State.slotHandled
    rw [if_pos hpass']
  · intro s id i slot live d hi hd ha hp v back
    have hback : ∀ code, (s.endRead id).handlePosted slot v = (s.endRead id).endAtOnce slot v noResults (Res.ended code) →
        back code := fun code => slotReadDone_refused hi hd ha hp
    have hjob : v.job = .badKind ↔ field d 1 1 = 0 ∨ 23 < field d 1 1 := slotJob_badKind_iff d
    refine ⟨fun hk => hback _ (State.handlePosted_badKind _ _ (hjob.mpr hk)), fun h1 h21 hm => ?_, fun hk hm => ?_,
      fun hr => ?_, fun j hj hf => ?_⟩
    · refine hback _ (State.handlePosted_badParameter _ _ (by rw [Ne, hjob]; omega) fun j _ => ?_)
      have : v.maskOk = false := by rw [← Bool.not_eq_true, slotView_maskOk]; omega
      rw [this, Bool.false_and]
    · refine hback _ (State.handlePosted_badParameter _ _ (by rw [Ne, hjob]; omega) fun j _ => ?_)
      have : v.maskOk = false := by rw [← Bool.not_eq_true, slotView_maskOk]; omega
      rw [this, Bool.false_and]
    · exact hback _ (State.handlePosted_badParameter _ _ (by rw [hr]; nofun) fun j hj => by rw [hr] at hj; cases hj)
    · refine hback _ (State.handlePosted_badParameter _ _ (by rw [hj]; nofun) fun j' hj' => ?_)
      rw [hj] at hj'
      cases hj'
      rw [hf, Bool.and_false]
  · intro s id i slot live d hi hd hfree hp ha
    have hfree' : (s.endRead id).holdsSlot slot = false := hfree
    have hstate : (slotView d).state = 2 := hp
    obtain ⟨-, -, hjid, -, -⟩ := hi
    obtain ⟨held, q, hu, hback⟩ := State.endAtOnce_writtenBack (r := s.endRead id) hjid slot (slotView d)
      (resultsAt (slotView d).header.mask (Res.ended .abandoned)) (Res.ended .abandoned)
    have hhandled : (s.endRead id).slotHandled (slotView d) slot true = (s.endRead id).handleOrphan slot (slotView d) := by
      unfold State.slotHandled
      rw [if_neg (by simp [hfree', hstate])]
      rfl
    exact ⟨_, (slotReadDone_awaited ha hd).trans
      (congrArg (fun w => Host.Outcome.next (State.afterSlot w i live)) (hhandled.trans hu)), rfl, hback⟩
  · refine ⟨fun buf => by simp [Job.fieldsOk], fun a buf k => by simp [Job.fieldsOk, and_assoc],
      fun a k ws => by simp [Job.fieldsOk], fun code => by simp [Job.fieldsOk], fun k bs => by simp [Job.fieldsOk],
      fun p => by simp [Job.fieldsOk], fun cs => by simp [Job.fieldsOk, and_assoc], fun j hj => ?_⟩
    rcases hj with hj | ⟨_, rfl⟩ | ⟨_, rfl⟩ | ⟨_, rfl⟩ | ⟨_, rfl⟩ | ⟨_, rfl⟩ | ⟨_, rfl⟩
    · revert j
      simp [Job.fieldsOk]
    all_goals rfl

/-! ## Queued jobs (R176) -/

/-- A queued kind is no device kind (Table 10-5). -/
theorem Job.not_deviceKind_of_queued {j : Job} (hj : j.cls = .queued) : isDeviceKind j.kind = false := by
  cases j <;> simp_all [Job.cls, Job.kind, isDeviceKind]

/-- The job a slot's bytes give has their kind. -/
theorem slotJob_kind {d : List Byte} {j : Job} (h : slotJob d = .job j) : j.kind = field d 1 1 := by
  have hofOption : ∀ {o : Option Job}, SlotJob.ofOption o = .job j → o = some j := fun {o} ho => by
    cases o with
    | none => cases ho
    | some x => cases ho; rfl
  unfold slotJob at h
  dsimp only at h
  split at h
  case h_12 hk =>
    rw [hk]
    split at h
    case h_3 =>
      obtain ⟨m, -, rfl⟩ := Option.map_eq_some_iff.mp (hofOption h)
      rfl
    all_goals cases h
    all_goals rfl
  case h_13 hk =>
    rw [hk]
    split at h <;> cases h
    all_goals rfl
  case h_15 hk =>
    rw [hk]
    split at h <;> cases h
    all_goals rfl
  case h_21 hk =>
    rw [hk]
    split at h <;> cases h
    all_goals rfl
  case h_22 hk =>
    rw [hk]
    split at h <;> cases h
    all_goals rfl
  all_goals
    rename_i hk
    cases h
  all_goals rw [hk]
  all_goals rfl

/-- A posted queued job that passes its checks comes to be taken or left (R176). -/
theorem State.handlePosted_queued (r : State) (slot : Word64) {d : List Byte} {j : Job}
    (hj : (slotView d).job = .job j) (hc : j.cls = .queued) (hm : (slotView d).header.mask ≠ 0)
    (hf : j.fieldsOk = true) : r.handlePosted slot (slotView d) = r.takeQueued slot (slotView d) j := by
  have hkind : isDeviceKind (slotView d).kind = false := by
    show isDeviceKind (field d 1 1) = false
    rw [← slotJob_kind hj, Job.not_deviceKind_of_queued hc]
  have hok : (slotView d).maskOk = true := by
    have : ((slotView d).header.mask == 0) = false := by simpa using hm
    unfold SlotView.maskOk
    rw [hkind, this]
    rfl
  unfold State.handlePosted
  rw [hj]
  simp [hok, hf, State.runJob, hc]

/-- The station takes the queued job `j` that names it (R176). -/
def State.takesAt (s : State) (m : Mask8) (j : Job) (n : StationNo) : Bool :=
  inMask m n && ((s.station n).state == .ready || ((s.station n).state == .parked && j == .unpark))

theorem StationState.takes_eq (x : StationState) (j : Job) :
    x.takes j = (x == .ready || (x == .parked && j == .unpark)) := by
  cases x <;> simp [StationState.takes]

theorem State.mem_takingStations (s : State) (m : Mask8) (j : Job) (n : StationNo) :
    n ∈ s.takingStations m j ↔ s.takesAt m j n = true := by
  unfold State.takingStations State.takesAt
  rw [List.mem_filter, mem_maskStations, StationState.takes_eq, Bool.and_eq_true]

theorem State.unavailableResults_eq (s : State) (m : Mask8) (j : Job) (n : StationNo) :
    (s.unavailableResults m j)[n.val]
      = if (inMask m n && !s.takesAt m j n) = true then some (Res.ended .unavailable) else none := by
  unfold State.unavailableResults State.takesAt
  rw [Vector.getElem_ofFn, StationState.takes_eq]
  cases inMask m n <;> rfl

section
variable {r : State} {slot : Word64} {v : SlotView} {j : Job}

/-- A queued job that no station takes is written back UNAVAILABLE (R176). -/
theorem State.takeQueued_unavailable (hl : ∀ x ∈ r.held, x.jid < r.nextJid)
    (hnone : ∀ n, r.takesAt v.header.mask j n = false) :
    ∃ held q, r.takeQueued slot v j
        = { r with held := held, nextJid := r.nextJid + 1, hmp := { r.hmp with jobQ := q } }
      ∧ State.writtenBack
        { r with held := held, nextJid := r.nextJid + 1, hmp := { r.hmp with jobQ := q } } r.hmp.jobQ slot v.header
        (perStation v.header.mask fun _ => Res.ended .unavailable) none r.tb := by
  have hempty : (r.takingStations v.header.mask j).isEmpty = true := by
    rw [List.isEmpty_iff, List.eq_nil_iff_forall_not_mem]
    intro n hn
    rw [State.mem_takingStations, hnone n] at hn
    cases hn
  have hresults : r.unavailableResults v.header.mask j = perStation v.header.mask fun _ => Res.ended .unavailable := by
    apply Vector.ext
    intro i hi
    have := r.unavailableResults_eq v.header.mask j ⟨i, hi⟩
    rw [hnone] at this
    simpa [perStation] using this
  generalize hh : newHeld r.nextJid slot v (perStation v.header.mask fun _ => Res.ended .unavailable) none .notNeeded = h
  have hcomplete : h.complete = true := by
    subst hh
    unfold HeldJob.complete
    rw [Bool.or_eq_true, List.all_eq_true]
    refine .inr fun n hn => ?_
    have hin : inMask v.header.mask n = true := (mem_maskStations _ n).mp hn
    simp [HeldJob.resultAt, newHeld, perStation, hin]
  have hfin := State.finishJob_last (s := r.hold slot v (perStation v.header.mask fun _ => Res.ended .unavailable) none
    .notNeeded) (l := r.held) (h := h) (by rw [← hh]; rfl) (by rw [← hh]; exact hl) hcomplete (by rw [← hh]; rfl)
    (by rw [← hh]; nofun)
  have hjid : h.jid = r.nextJid := by rw [← hh]; rfl
  unfold State.takeQueued
  rw [if_pos hempty, hresults]
  rw [hjid] at hfin
  refine ⟨_, _, hfin, _, List.mem_append_right _ (List.mem_singleton_self _), ?_⟩
  subst hh
  exact ⟨rfl, rfl, rfl, rfl, rfl, rfl, rfl⟩

/-- A queued job one of whose stations is blocked or full is left POSTED (R176). -/
theorem State.takeQueued_full
    (hfull : ∃ n, r.takesAt v.header.mask j n = true
      ∧ (inMask r.sweep.blocked n || decide (4 ≤ (r.station n).queue.length)) = true) :
    r.takeQueued slot v j = { r with sweep := { r.sweep with blocked := r.sweep.blocked ||| v.header.mask } } := by
  obtain ⟨n, ht, hf⟩ := hfull
  have hmem := (r.mem_takingStations v.header.mask j n).mpr ht
  have hne : ¬ (r.takingStations v.header.mask j).isEmpty = true := by
    rw [List.isEmpty_iff]
    exact List.ne_nil_of_mem hmem
  have hany : ((r.takingStations v.header.mask j).any fun n =>
      inMask r.sweep.blocked n || decide (Config.maxQueue ≤ (r.station n).queue.length)) = true :=
    List.any_eq_true.mpr ⟨n, hmem, hf⟩
  unfold State.takeQueued
  rw [if_neg hne, if_pos hany]

/-- Otherwise it joins the queue of each station that takes it, and TAKEN is presented (R176). -/
theorem State.takeQueued_taken (hsome : ∃ n, r.takesAt v.header.mask j n = true)
    (hfree : ∀ n, r.takesAt v.header.mask j n = true →
      (inMask r.sweep.blocked n || decide (4 ≤ (r.station n).queue.length)) = false) :
    ∃ stations : Vector Station 8, r.takeQueued slot v j = { r with
        held := r.held ++ [newHeld r.nextJid slot v (r.unavailableResults v.header.mask j) none .waiting]
        nextJid := r.nextJid + 1, stations := stations
        hmp := { r.hmp with sweepQ := r.hmp.sweepQ ++ [⟨.sweep, none, slot, 1, some [2], .taken r.nextJid⟩] } }
      ∧ ∀ n : StationNo, stations[n.val] = if r.takesAt v.header.mask j n = true then
          joinQueue ⟨r.nextJid, v.header.hostRef, j⟩ (r.station n) else r.station n := by
  obtain ⟨n, ht⟩ := hsome
  have hne : ¬ (r.takingStations v.header.mask j).isEmpty = true := by
    rw [List.isEmpty_iff]
    exact List.ne_nil_of_mem ((r.mem_takingStations v.header.mask j n).mpr ht)
  have hany : ¬ ((r.takingStations v.header.mask j).any fun n =>
      inMask r.sweep.blocked n || decide (Config.maxQueue ≤ (r.station n).queue.length)) = true := by
    rw [List.any_eq_true]
    rintro ⟨m, hm, hf⟩
    rw [hfree m ((r.mem_takingStations v.header.mask j m).mp hm)] at hf
    cases hf
  have hnodup : (r.takingStations v.header.mask j).Nodup := (maskStations_nodup _).filter _
  have hstation := foldStations_station (fun _ => joinQueue ⟨r.nextJid, v.header.hostRef, j⟩) _ hnodup
    (r.hold slot v (r.unavailableResults v.header.mask j) none .waiting)
  have hframe := foldStations_frame (fun _ => joinQueue ⟨r.nextJid, v.header.hostRef, j⟩)
    (r.takingStations v.header.mask j) (r.hold slot v (r.unavailableResults v.header.mask j) none .waiting)
  have htake : r.takeQueued slot v j = ((r.takingStations v.header.mask j).foldl
      (fun s n => s.modStation n (joinQueue ⟨r.nextJid, v.header.hostRef, j⟩))
      (r.hold slot v (r.unavailableResults v.header.mask j) none .waiting)).presentSweep
        (Access.writeOf .sweep none slot (leBytes 1 2) (.taken r.nextJid)) := by
    unfold State.takeQueued
    rw [if_neg hne, if_neg hany]
  generalize (r.takingStations v.header.mask j).foldl
    (fun s n => s.modStation n (joinQueue ⟨r.nextJid, v.header.hostRef, j⟩))
    (r.hold slot v (r.unavailableResults v.header.mask j) none .waiting) = w at hstation hframe htake
  refine ⟨w.stations, htake.trans ((congrArg (State.presentSweep · _) hframe).trans rfl), fun m => ?_⟩
  · have hm := hstation m
    simp only [State.mem_takingStations] at hm
    exact hm

end

/-! ## Words and bytes of a slot (Table 12-5) -/

theorem wordsOf_length (d : List Byte) (k : Nat) : (wordsOf d k).length = k := by
  induction k generalizing d with
  | zero => rfl
  | succ k ih => exact congrArg (· + 1) (ih _)

theorem leNat_take_lt (d : List Byte) (k : Nat) : leNat (d.take k) < 256 ^ k := by
  induction k generalizing d with
  | zero => simp [leNat]
  | succ k ih =>
    cases d with
    | nil => exact Nat.pos_of_ne_zero (by simp)
    | cons b bs =>
      have h1 := ih bs
      have h2 := b.isLt
      have h3 : 256 ^ (k + 1) = 256 * 256 ^ k := Nat.pow_succ'
      simp only [List.take_succ_cons, leNat, h3]
      omega

theorem field_drop (d : List Byte) (m off len : Nat) : field (d.drop m) off len = field d (m + off) len := by
  unfold field
  rw [List.drop_drop]

/-- The words read from a byte string are its fields of four bytes, in order. -/
theorem wordsOf_get {d : List Byte} {k i : Nat} {w : Word32} (h : (wordsOf d k)[i]? = some w) :
    w.toNat = field d (4 * i) 4 := by
  induction k generalizing d i with
  | zero => cases h
  | succ k ih =>
    cases i with
    | zero =>
      obtain rfl : BitVec.ofNat 32 (leNat (d.take 4)) = w := by simpa [wordsOf] using h
      rw [BitVec.toNat_ofNat, Nat.mod_eq_of_lt (show leNat (d.take 4) < 2 ^ 32 from leNat_take_lt d 4)]
      rfl
    | succ i =>
      rw [ih (d := d.drop 4) (i := i) (by simpa [wordsOf] using h), field_drop, show 4 * (i + 1) = 4 + 4 * i by omega]

/-- The bytes taken from a byte string are its fields of one byte, in order. -/
theorem bytes_get {d : List Byte} {m k i : Nat} {b : Byte} (h : ((d.drop m).take k)[i]? = some b) :
    b.toNat = field d (m + i) 1 := by
  have hb : d[m + i]? = some b := by
    rw [← List.getElem?_drop]
    exact List.getElem?_eq_some_iff.mpr <| by
      obtain ⟨hlt, he⟩ := List.getElem?_eq_some_iff.mp h
      rw [List.length_take] at hlt
      rw [List.getElem_take] at he
      exact ⟨by omega, he⟩
  obtain ⟨hlt, he⟩ := List.getElem?_eq_some_iff.mp hb
  unfold field
  rw [List.drop_eq_getElem_cons hlt, he]
  simp [leNat]

/-- Settles O16: `State.takeQueued` in its three cases, and `slotJob` by kind. -/
theorem queuedJobIsTakenOrLeftPosted : Obligations.QueuedJobIsTakenOrLeftPosted := by
  unfold Obligations.QueuedJobIsTakenOrLeftPosted
  constructor
  · intro s id i slot live d j hi hd ha hp hj hc hm hf h takes full r
    have hexec : exec (.slotReadDone id d) s
        = .next ((r.takeQueued slot (slotView d) j).afterSlot i live) := by
      rw [slotReadDone_posted ha hd hp, State.handlePosted_queued _ slot hj hc hm hf]
    have htakes : ∀ n, r.takesAt h.mask j n = takes n := fun n => rfl
    obtain ⟨-, -, hjid, -, -⟩ := hi
    refine ⟨fun hnone => ?_, fun ⟨n, hn⟩ => ?_, fun hsome hfree => ?_⟩
    · obtain ⟨held, q, hu, hback⟩ := State.takeQueued_unavailable (r := r) (slot := slot) (v := slotView d) (j := j)
        hjid hnone
      exact ⟨_, hexec.trans (congrArg (fun w => Host.Outcome.next (State.afterSlot w i live)) hu), rfl, hback⟩
    · rw [hexec, State.takeQueued_full (r := r) (slot := slot) (v := slotView d) (j := j)
        ⟨n, (Bool.and_eq_true_iff.mp hn).1, (Bool.and_eq_true_iff.mp hn).2⟩]
      rfl
    · obtain ⟨stations, hu, hstations⟩ := State.takeQueued_taken (r := r) (slot := slot) (v := slotView d) (j := j)
        hsome fun n hn => by
          have := hfree n
          rw [← htakes, hn, Bool.true_and] at this
          exact this
      refine ⟨_, newHeld r.nextJid slot (slotView d) (r.unavailableResults h.mask j) none .waiting,
        hexec.trans (congrArg (fun w => Host.Outcome.next (State.afterSlot w i live)) hu), rfl, rfl, rfl, rfl, rfl, rfl,
        rfl, rfl, fun n => ⟨r.unavailableResults_eq h.mask j n, hstations n⟩⟩
  · intro d hd v addr count buf op gives givesOp
    have hmask : v.header.mask.toNat = field d 2 1 := by
      show (BitVec.ofNat 8 (field d 2 1)).toNat = _
      rw [BitVec.toNat_ofNat, Nat.mod_eq_of_lt (field_byte_lt d 2)]
    have href : v.header.hostRef.toNat = field d 8 8 := by
      show (BitVec.ofNat 64 (field d 8 8)).toNat = _
      rw [BitVec.toNat_ofNat, Nat.mod_eq_of_lt (show field d 8 8 < 2 ^ 64 from leNat_take_lt _ 8)]
    have hinline : field d 1 1 = 15 → field d 26 1 = 0 → v.job = .job (.writeInline addr count
        (wordsOf (d.drop 40) (min count 4))) := fun hk hs => by
      show slotJob d = _
      unfold slotJob
      rw [hk, hs]
      rfl
    have hsend : field d 1 1 = 19 → v.job = .job (.consoleSend op ((d.drop 24).take (min op 32))) := fun hk => by
      show slotJob d = _
      unfold slotJob
      rw [hk]
      rfl
    have hmap : field d 1 1 = 23 → v.job = .job (.stationMap ((d.drop 16).take 8)) := fun hk => by
      show slotJob d = _
      unfold slotJob
      rw [hk]
      rfl
    refine ⟨hmask, rfl, href, ?_, ?_, ?_, ?_, ?_, ?_, ?_, ?_, ?_, ?_, ?_, ?_, ?_, ?_, ?_, ?_, ?_, ?_, ?_, ?_, ?_,
      fun hk hs => ⟨_, hinline hk hs, wordsOf_length .., fun i w hw => ?_⟩, ?_, ?_, ?_,
      fun hk => ⟨_, hsend hk, by simp [hd], fun i b hb => bytes_get hb⟩, ?_, ?_, ?_, ?_, ?_,
      fun hk => ⟨_, hmap hk, by simp [hd], fun i b hb => bytes_get hb⟩⟩
    case refine_22 => rw [wordsOf_get hw, field_drop]
    all_goals
      simp only [gives, givesOp]
      intros
      show slotJob d = _
      unfold slotJob
      simp_all [SlotJob.ofOption, powerModeOf, op, addr, count, buf]

end Sys2Proof.Machine
end

section
/-! Station work done in parts, and queued jobs at the head (R27, R177). -/

namespace Sys2Proof.Machine

/-! ## Work done in parts -/

/-- A station at work that set the attention bits `b` and handed on `l` before what `c` has done. -/
def Ctx.behind (b : BitVec 11) (l : List Eff) (c : Ctx) : Ctx := ⟨c.st, b ||| c.att, l ++ c.effs⟩

@[simp] theorem Ctx.behind_st (b : BitVec 11) (l : List Eff) (c : Ctx) : (c.behind b l).st = c.st := rfl
@[simp] theorem Ctx.behind_att (b : BitVec 11) (l : List Eff) (c : Ctx) : (c.behind b l).att = b ||| c.att := rfl
@[simp] theorem Ctx.behind_effs (b : BitVec 11) (l : List Eff) (c : Ctx) : (c.behind b l).effs = l ++ c.effs := rfl

/-- Work that looks neither at the attention bits nor at what was handed on before it. -/
def Passes (F : Ctx → Ctx) : Prop := ∀ b l c, F (c.behind b l) = (F c).behind b l

theorem State.put_put (s : State) (n : StationNo) (u u' : Station) (a a' : BitVec 11) :
    (s.put n u a).put n u' a' = s.put n u' a' := by
  unfold State.put State.setStation
  dsimp only
  rw [Vector.set_set]

theorem State.presentResult_put (s : State) (j : Nat) (n : StationNo) (u : Station) (a : BitVec 11) :
    (s.presentResult j).put n u a = (s.put n u a).presentResult j := by
  have hheld : (s.put n u a).heldJob j = s.heldJob j := rfl
  unfold State.presentResult
  rw [hheld]
  cases s.heldJob j with
  | none => rfl
  | some h =>
    cases hf : h.formed with
    | none => simp [hf]
    | some bytes =>
      simp only [hf]
      split_ifs <;> rfl

theorem State.finishJob_put (s : State) (j : Nat) (n : StationNo) (u : Station) (a : BitVec 11) :
    (s.finishJob j).put n u a = (s.put n u a).finishJob j := by
  have hheld : (s.put n u a).heldJob j = s.heldJob j := rfl
  unfold State.finishJob
  rw [hheld]
  cases s.heldJob j with
  | none => rfl
  | some h =>
    dsimp only
    split_ifs
    · exact State.presentResult_put ..
    · rfl

/-- A result recorded and a station changed commute. -/
theorem State.recordResult_put (s : State) (m : StationNo) (j : Nat) (r : Res) (n : StationNo) (u : Station)
    (a : BitVec 11) : (s.recordResult m j r).put n u a = (s.put n u a).recordResult m j r := State.finishJob_put ..

theorem State.foldEff_put (n : StationNo) (l : List Eff) (s : State) (u : Station) (a : BitVec 11) :
    (l.foldl (State.applyEff n) s).put n u a = l.foldl (State.applyEff n) (s.put n u a) := by
  induction l generalizing s with
  | nil => rfl
  | cons x xs ih =>
    rw [List.foldl_cons, List.foldl_cons, ih]
    congr 1
    cases x with
    | present a => rfl
    | jobEnd j r => exact State.recordResult_put ..

section
variable (s : State) (n : StationNo) (f : Env → Ctx → Ctx)

theorem State.withStation_eq : s.withStation n f
    = (f (s.env n) ⟨s.station n, s.attention, []⟩).effs.foldl (State.applyEff n)
      (s.put n (f (s.env n) ⟨s.station n, s.attention, []⟩).st (f (s.env n) ⟨s.station n, s.attention, []⟩).att) := rfl

theorem State.withStation_attention :
    (s.withStation n f).attention = (f (s.env n) ⟨s.station n, s.attention, []⟩).att := by
  obtain ⟨held, jobQ, h⟩ := s.withStation_frame n f
  rw [h]
  rfl

theorem State.withStation_env (m : StationNo) : (s.withStation n f).env m = s.env m := by
  obtain ⟨held, jobQ, h⟩ := s.withStation_frame n f
  rw [h]
  rfl

end

/-- Work after other work is the work at the state the other leaves. -/
theorem State.withStation_comp {s : State} {n : StationNo} {f : Env → Ctx → Ctx} (hf : Passes (f (s.env n)))
    (g : Env → Ctx → Ctx) : s.withStation n (fun e c => f e (g e c)) = (s.withStation n g).withStation n f := by
  rw [State.withStation_eq _ _ f, State.withStation_env, State.withStation_station, State.withStation_attention,
    State.withStation_eq s n g, State.foldEff_put, State.put_put, ← List.foldl_append, State.withStation_eq]
  generalize g (s.env n) ⟨s.station n, s.attention, []⟩ = c
  have hc : f (s.env n) c = (f (s.env n) ⟨c.st, c.att, []⟩).behind 0 c.effs := by
    rw [← hf]
    simp [Ctx.behind]
  have hatt : (f (s.env n) c).att = (f (s.env n) ⟨c.st, c.att, []⟩).att := by
    rw [hc, Ctx.behind_att]
    exact BitVec.zero_or
  rw [hatt, hc]
  rfl

/-- What station work does depends on what it gives where the station stands. -/
theorem State.withStation_congr {s : State} {n : StationNo} {f g : Env → Ctx → Ctx}
    (h : f (s.env n) ⟨s.station n, s.attention, []⟩ = g (s.env n) ⟨s.station n, s.attention, []⟩) :
    s.withStation n f = s.withStation n g := by
  unfold State.withStation
  rw [h]

/-! ### Parts as changes of the state -/

theorem State.withStation_mod (s : State) (n : StationNo) (g : Station → Station) :
    s.withStation n (fun _ c => c.mod g) = s.put n (g (s.station n)) s.attention := rfl

theorem State.withStation_offer (s : State) (n : StationNo) (r : SrcRec) :
    s.withStation n (fun e c => offerRec e r c) = s.putOffer n (s.station n) s.attention r :=
  State.withStation_quiet (offerRec_eq ..)

theorem State.withStation_endHead (s : State) (n : StationNo) (r : Res) :
    s.withStation n (fun _ c => endHead r c) = s.endFirst n r := by
  unfold State.endFirst
  cases hq : (s.station n).queue with
  | nil =>
    refine State.withStation_same ?_
    unfold endHead
    rw [hq]
  | cons q qs =>
    refine (State.withStation_ends (endHead_cons (c := ⟨s.station n, s.attention, []⟩) r hq)).trans ?_
    unfold State.endAt State.putEnd
    rw [hq]
    rfl

/-! ### Work that passes on what was done before it -/

theorem Passes.id : Passes fun c => c := fun _ _ _ => rfl

theorem Passes.comp {F G : Ctx → Ctx} (hF : Passes F) (hG : Passes G) : Passes fun c => F (G c) := fun b l c =>
  (congrArg F (hG b l c)).trans (hF b l (G c))

theorem Passes.mod (g : Station → Station) : Passes (·.mod g) := fun _ _ _ => rfl

theorem Passes.setAttn (a : Attn) : Passes (·.setAttn a) := fun b l c => by
  simp [Ctx.setAttn, Ctx.behind, BitVec.or_assoc]

theorem Passes.emit (x : Eff) : Passes (·.emit x) := fun b l c => by simp [Ctx.emit, Ctx.behind]

theorem Passes.capOut (o : CapOut) : Passes (·.capOut o) := fun b l c => by
  simp only [Ctx.capOut_eq, Ctx.behind, BitVec.or_assoc]

/-- Work chosen by how the station stands, all of whose choices pass. -/
theorem Passes.choose {F : Station → Ctx → Ctx} (hF : ∀ t, Passes (F t)) : Passes fun c => F c.st c :=
  fun b l c => hF c.st b l c

theorem Passes.ite {p : Prop} [Decidable p] {F G : Ctx → Ctx} (hF : Passes F) (hG : Passes G) :
    Passes fun c => if p then F c else G c := fun b l c => by
  by_cases h : p
  · simpa only [if_pos h] using hF b l c
  · simpa only [if_neg h] using hG b l c

theorem Passes.endHead (r : Res) : Passes (endHead r) := fun b l c => by
  unfold Machine.endHead
  cases hq : c.st.queue <;> simp [Ctx.behind, hq]

theorem Passes.offerRec (e : Env) (r : SrcRec) : Passes (offerRec e r) :=
  Passes.choose fun t => Passes.capOut (t.cap.offer t.prof.timeShift e.tb r)

theorem Passes.offerPower (e : Env) (ev : PowerEv) : Passes (offerPower e ev) :=
  Passes.choose fun t => Passes.offerRec e (powerRecord e ev t)

theorem Passes.whenAct {F : Ctx → Ctx} (hF : Passes F) (acts : BitVec 8) (i : Nat) : Passes (whenAct acts i F) :=
  Passes.ite hF Passes.id

theorem Passes.startPulse (e : Env) (w : Nat) : Passes (startPulse e w) :=
  (Passes.offerPower e _).comp (Passes.mod _)

theorem Passes.haltBoard (e : Env) : Passes (haltBoard e) :=
  Passes.choose (F := fun t c => match t.haltOutcome with
    | .issue => c.mod (issueReq e (controlReq 1) .trigger true)
    | .hold => c.mod fun t => { t with au := { t.au with holder := true } }
    | .overrun | .linkDown => c) fun t => by
      cases t.haltOutcome with
      | issue => exact Passes.mod _
      | hold => exact Passes.mod _
      | overrun => exact Passes.id
      | linkDown => exact Passes.id

/-- A firing passes on what was handed on, and starts the same pulse (R124). -/
theorem fire_behind (e : Env) (p : Program) (i : Fin 4) (st : Step) (cause : Cause) (b : BitVec 11)
    (l : List Eff) (c : Ctx) : fire e p i st cause (c.behind b l)
      = ((fire e p i st cause c).1.behind b l, (fire e p i st cause c).2) := by
  have h0 : ∀ a, Passes (Machine.whenAct a 0 (startCapture e)) := fun a =>
    Passes.whenAct (Passes.choose fun t => Passes.capOut (t.cap.start t.prof.timeShift e.tb)) a 0
  have h1 : ∀ a r, Passes (Machine.whenAct a 1 (Machine.offerRec e r)) := fun a r => (Passes.offerRec e r).whenAct a 1
  have h2 : ∀ a r, Passes (Machine.whenAct a 2 (Machine.offerRec e r)) := fun a r => (Passes.offerRec e r).whenAct a 2
  have h3 : ∀ a, Passes (Machine.whenAct a 3 (stopCapture p.postCount)) := fun a =>
    Passes.whenAct (Passes.choose fun t => Passes.capOut (t.cap.stop p.postCount)) a 3
  have h4 : ∀ a, Passes (Machine.whenAct a 4 (Machine.haltBoard e)) := fun a => (Passes.haltBoard e).whenAct a 4
  have h5 : ∀ a (b : Bool), Passes (Machine.whenAct a 5 fun c => if b = true then Machine.startPulse e p.pulseWidth c else c) :=
    fun a b => Passes.whenAct (Passes.ite (Passes.startPulse e _) Passes.id) a 5
  have h6 : ∀ a g, Passes (Machine.whenAct a 6 (·.mod g)) := fun a g => (Passes.mod g).whenAct a 6
  have h7 : ∀ a, Passes (Machine.whenAct a 7 (·.setAttn .trigger)) := fun a => (Passes.setAttn _).whenAct a 7
  unfold fire
  dsimp only [Ctx.behind_st]
  rw [h0 _ b l, h1 _ _ b l, h1 _ _ b l, h2 _ _ b l, h2 _ _ b l, h3 _ b l, h4 _ b l, h5 _ _ b l, h6 _ _ b l, h7 _ b l]
  rfl

theorem takeReport_behind (e : Env) (x : Cond) (b : BitVec 11) (l : List Eff) (c : Ctx) :
    takeReport e x (c.behind b l) = ((takeReport e x c).1.behind b l, (takeReport e x c).2) := by
  unfold takeReport
  rw [Ctx.behind_st]
  cases c.st.ts.current with
  | none => rfl
  | some y =>
    obtain ⟨i, n, st, p⟩ := y
    dsimp only
    split_ifs
    · exact fire_behind ..
    · rfl
    · rfl

theorem followUp_behind (e : Env) (b : BitVec 11) (l : List Eff) (x : Ctx × Bool) :
    followUp e (x.1.behind b l, x.2) = (followUp e x).behind b l := by
  unfold followUp
  cases x.2 with
  | false => rfl
  | true => exact congrArg Prod.fst (takeReport_behind ..)

/-- A report passes on what was handed on (R119). -/
theorem Passes.report (e : Env) (x : Cond) : Passes (report e x) := fun b l c => by
  unfold Machine.report
  rw [takeReport_behind, followUp_behind]

/-- The station that such work leaves does not depend on the attention bits. -/
theorem Passes.st {F : Ctx → Ctx} (hF : Passes F) (t : Station) (a a' : BitVec 11) :
    (F ⟨t, a, []⟩).st = (F ⟨t, a', []⟩).st := by
  have hbits : ∀ x, (F ⟨t, x, []⟩).st = (F ⟨t, 0, []⟩).st := fun x => by
    have h := hF x [] ⟨t, 0, []⟩
    have hx : Ctx.behind x [] ⟨t, 0, []⟩ = ⟨t, x, []⟩ := by simp [Ctx.behind]
    rw [hx] at h
    rw [h]
    rfl
  rw [hbits a, hbits a']

/-- Such work at each station of a list without repeats, one after the other. -/
theorem foldWith_station {f : Env → Ctx → Ctx} (hf : ∀ e, Passes (f e)) (l : List StationNo) (hl : l.Nodup) (s : State)
    (m : StationNo) : (l.foldl (fun s n => s.withStation n f) s).station m
      = if m ∈ l then (s.withStation m f).station m else s.station m := by
  induction l generalizing s with
  | nil => simp
  | cons n ns ih =>
    rw [List.nodup_cons] at hl
    rw [List.foldl_cons, ih hl.2]
    by_cases e : m = n
    · subst e
      simp [hl.1]
    · have hstation := State.withStation_other s f e
      simp only [List.mem_cons, e, false_or, hstation]
      refine if_congr Iff.rfl ?_ rfl
      rw [State.withStation_station, State.withStation_station, State.withStation_env, hstation]
      exact (hf _).st ..

end Sys2Proof.Machine
end

section
/-! Results recorded and written back (R177, R178, Tables 12-4 and 12-6). -/

namespace Sys2Proof.Machine

/-! ## One held job changed -/

/-- The held jobs with one of them changed under its number. -/
def replaced (l : List HeldJob) (j : Nat) (h : HeldJob) : List HeldJob := l.map fun x => if x.jid = j then h else x

/-- Jobs of different numbers split at one of them. -/
theorem held_split {l : List HeldJob} (hn : (l.map HeldJob.jid).Nodup) {h : HeldJob} (hm : h ∈ l) :
    ∃ l1 l2, l = l1 ++ h :: l2 ∧ (∀ x ∈ l1, x.jid ≠ h.jid) ∧ ∀ x ∈ l2, x.jid ≠ h.jid := by
  obtain ⟨l1, l2, rfl⟩ := List.append_of_mem hm
  refine ⟨l1, l2, rfl, fun x hx he => ?_, fun x hx he => ?_⟩
  · rw [List.map_append, List.nodup_append] at hn
    exact hn.2.2 _ (List.mem_map.mpr ⟨x, hx, rfl⟩) _ (List.mem_map.mpr ⟨h, List.mem_cons_self, rfl⟩) he
  · rw [List.map_append, List.nodup_append] at hn
    have := (List.nodup_cons.mp hn.2.1).1
    exact this (List.mem_map.mpr ⟨x, hx, he⟩)

theorem replaced_split {l1 l2 : List HeldJob} {h : HeldJob} (h1 : ∀ x ∈ l1, x.jid ≠ h.jid)
    (h2 : ∀ x ∈ l2, x.jid ≠ h.jid) (h' : HeldJob) :
    replaced (l1 ++ h :: l2) h.jid h' = l1 ++ h' :: l2 := by
  have hsame : ∀ l : List HeldJob, (∀ x ∈ l, x.jid ≠ h.jid) → replaced l h.jid h' = l := by
    intro l hl
    refine (List.map_congr_left fun x hx => if_neg (hl x hx)).trans (List.map_id l)
  have e1 := hsame l1 h1
  have e2 := hsame l2 h2
  unfold replaced at *
  rw [List.map_append, List.map_cons, e1, e2, if_pos rfl]

/-- Changing the held job `h` puts its change in its place. -/
theorem State.modHeld_replaced {s : State} (hn : (s.held.map HeldJob.jid).Nodup) {h : HeldJob} (hm : h ∈ s.held)
    (f : HeldJob → HeldJob) : s.modHeld h.jid f = { s with held := replaced s.held h.jid (f h) } := by
  unfold State.modHeld replaced
  congr 1
  refine List.map_congr_left fun x hx => ?_
  by_cases hj : x.jid = h.jid
  · have : x = h := by
      have e1 := find_jid hn hx
      have e2 := find_jid hn hm
      rw [hj] at e1
      exact Option.some.inj (e1.symm.trans e2)
    simp [this]
  · simp [hj]

theorem replaced_nodup {l : List HeldJob} (hn : (l.map HeldJob.jid).Nodup) {h h' : HeldJob} (hj : h'.jid = h.jid) :
    ((replaced l h.jid h').map HeldJob.jid).Nodup := by
  have : (replaced l h.jid h').map HeldJob.jid = l.map HeldJob.jid := by
    unfold replaced
    rw [List.map_map]
    refine List.map_congr_left fun x _ => ?_
    by_cases hx : x.jid = h.jid
    · simp [hx, hj]
    · simp [hx]
  rwa [this]

theorem mem_replaced {l : List HeldJob} {h : HeldJob} (hm : h ∈ l) (h' : HeldJob) : h' ∈ replaced l h.jid h' :=
  List.mem_map.mpr ⟨h, hm, if_pos rfl⟩

theorem replaced_replaced (l : List HeldJob) {h h' : HeldJob} (hj : h'.jid = h.jid) (h'' : HeldJob) :
    replaced (replaced l h.jid h') h'.jid h'' = replaced l h.jid h'' := by
  unfold replaced
  rw [List.map_map]
  refine List.map_congr_left fun x _ => ?_
  by_cases hx : x.jid = h.jid
  · simp [hx, hj]
  · simp [hx, hj]


/-! ## A result recorded (R178) -/

theorem State.presentResult_waiting {s : State} {j : Nat} {h : HeldJob} (hh : s.heldJob j = some h)
    (ht : h.taken = .waiting) : s.presentResult j = s := by
  unfold State.presentResult
  rw [hh]
  cases hf : h.formed with
  | none => simp [hf]
  | some bytes => simp [hf, ht]

section
variable {s : State} {h : HeldJob} (hn : (s.held.map HeldJob.jid).Nodup) (hm : h ∈ s.held)
include hn hm

/-- A job recorded as `h'` that is not complete, or formed already, stays as it is. -/
theorem State.finishJob_idle {h' : HeldJob} (hj : h'.jid = h.jid) (hi : h'.complete = false ∨ h'.formed ≠ none) :
    ({ s with held := replaced s.held h.jid h' } : State).finishJob h.jid
      = { s with held := replaced s.held h.jid h' } := by
  have hfind : ({ s with held := replaced s.held h.jid h' } : State).heldJob h.jid = some h' := by
    rw [← hj]
    exact State.heldJob_mem (by rw [hj]; exact replaced_nodup hn hj) (by rw [hj]; exact mem_replaced hm h')
  unfold State.finishJob
  rw [hfind]
  have hno : (h'.complete && h'.formed.isNone) = false := by
    rcases hi with hc | hf
    · rw [hc, Bool.false_and]
    · rw [Option.isNone_eq_false_iff.mpr (Option.isSome_iff_ne_none.mpr hf), Bool.and_false]
  simp only [hno]
  rfl

/-- A job recorded as `h'` that is complete has its results formed, and presented once its TAKEN write has been
issued. -/
theorem State.finishJob_formed {h' : HeldJob} (hj : h'.jid = h.jid) (hc : h'.complete = true)
    (hf : h'.formed = none) :
    let bytes := resultBytes h'.results h'.overall s.tb
    let done : HeldJob := { h' with formed := some bytes }
    ({ s with held := replaced s.held h.jid h' } : State).finishJob h.jid
      = { s with
          held := replaced s.held h.jid done
          hmp := { s.hmp with
            jobQ := s.hmp.jobQ ++ (if h'.taken = .waiting then [] else done.backWrites bytes) } } := by
  intro bytes done
  generalize hw : ({ s with held := replaced s.held h.jid h' } : State) = w
  have hnw : (w.held.map HeldJob.jid).Nodup := by rw [← hw]; exact replaced_nodup hn hj
  have hmw : h' ∈ w.held := by rw [← hw]; exact mem_replaced hm h'
  have hmod : w.modHeld h.jid (fun x => { x with formed := some (resultBytes x.results x.overall w.tb) })
      = { s with held := replaced s.held h.jid done } := by
    rw [← hj, State.modHeld_replaced hnw hmw]
    rw [← hw]
    dsimp only
    rw [← hj, replaced_replaced s.held rfl]
  have hfind : ({ s with held := replaced s.held h.jid done } : State).heldJob done.jid = some done :=
    State.heldJob_mem (replaced_nodup (h' := done) hn hj) (mem_replaced hm done)
  have hwfind : w.heldJob h.jid = some h' := by rw [← hj]; exact State.heldJob_mem hnw hmw
  have hpresent : State.finishJob w h.jid
      = ({ s with held := replaced s.held h.jid done } : State).presentResult h.jid := by
    unfold State.finishJob
    rw [hwfind]
    simp only [hc, hf, Option.isNone_none, Bool.and_self, if_true]
    exact congrArg (State.presentResult · h.jid) hmod
  rw [hpresent, show h.jid = done.jid from hj.symm] at *
  by_cases ht : h'.taken = .waiting
  · rw [if_pos ht, List.append_nil]
    exact State.presentResult_waiting hfind ht
  · rw [if_neg ht]
    exact State.presentResult_formed hfind rfl ht

end

/-! ## The overall result (R178) -/

theorem HeldJob.namedResults_eq {h : HeldJob} {r : StationNo → Res}
    (hr : ∀ n, inMask h.mask n = true → h.resultAt n = some (r n)) :
    h.namedResults = (maskStations h.mask).map r := by
  have hall : ∀ l : List StationNo, (∀ n ∈ l, h.resultAt n = some (r n)) → l.filterMap h.resultAt = l.map r := by
    intro l hl
    induction l with
    | nil => rfl
    | cons n ns ih =>
      rw [List.filterMap_cons, hl n List.mem_cons_self, List.map_cons, ih fun m hm => hl m (List.mem_cons_of_mem _ hm)]
  exact hall _ fun n hn => hr n ((mem_maskStations _ n).mp hn)

theorem HeldJob.overall_cons {h : HeldJob} {x : Res} {xs : List Res} (ho : h.own = none)
    (hrs : h.namedResults = x :: xs) : h.overall
      = if (xs.all fun y => y.code == x.code && y.sub == x.sub) = true then
          ⟨x.code, (x :: xs).any Res.clamped, x.sub, min ((x :: xs).map Res.value).sum Config.max32⟩
        else ⟨.mixed, (x :: xs).any Res.clamped, 0, min ((x :: xs).map Res.value).sum Config.max32⟩ := by
  unfold HeldJob.overall
  rw [ho]
  dsimp only
  rw [hrs]

/-- The overall result from the results of the named stations. -/
theorem HeldJob.overall_of_results {h : HeldJob} {r : StationNo → Res} (ho : h.own = none) (hm : h.mask ≠ 0)
    (hr : ∀ n, inMask h.mask n = true → h.resultAt n = some (r n)) :
    (h.overall.clamped = true ↔ ∃ n, inMask h.mask n = true ∧ (r n).clamped = true)
      ∧ h.overall.value = min ((allStations.filter (inMask h.mask)).map fun n => (r n).value).sum 4294967295
      ∧ ((∃ code sub, (∀ n, inMask h.mask n = true → (r n).code = code ∧ (r n).sub = sub)
            ∧ h.overall.code = code ∧ h.overall.sub = sub)
          ∨ ((∃ m n, inMask h.mask m = true ∧ inMask h.mask n = true
                ∧ ¬ ((r m).code = (r n).code ∧ (r m).sub = (r n).sub))
            ∧ h.overall.code = .mixed ∧ h.overall.sub = 0)) := by
  obtain ⟨n, ns, hns⟩ := List.exists_cons_of_ne_nil (maskStations_ne_nil hm)
  have hnamed := HeldJob.namedResults_eq hr
  have hin : ∀ m, inMask h.mask m = true ↔ m = n ∨ m ∈ ns := fun m => by
    rw [← mem_maskStations, hns, List.mem_cons]
  have hclamped : ((maskStations h.mask).map r).any Res.clamped = true
      ↔ ∃ n, inMask h.mask n = true ∧ (r n).clamped = true := by
    simp [List.any_eq_true, mem_maskStations]
  have hvalue : ((maskStations h.mask).map r).map Res.value
      = (allStations.filter (inMask h.mask)).map fun n => (r n).value := by
    rw [List.map_map]
    rfl
  have hsame : ((ns.map r).all fun y => y.code == (r n).code && y.sub == (r n).sub) = true
      ↔ ∀ m ∈ ns, (r m).code = (r n).code ∧ (r m).sub = (r n).sub := by
    simp [List.all_eq_true]
  rw [hns, List.map_cons] at hnamed hclamped hvalue
  rw [HeldJob.overall_cons ho hnamed]
  by_cases hall : ∀ m ∈ ns, (r m).code = (r n).code ∧ (r m).sub = (r n).sub
  · rw [if_pos (hsame.mpr hall)]
    refine ⟨hclamped, congrArg (fun l => min l.sum Config.max32) hvalue, .inl ⟨(r n).code, (r n).sub, fun m hm => ?_,
      rfl, rfl⟩⟩
    rcases (hin m).mp hm with rfl | hm'
    · exact ⟨rfl, rfl⟩
    · exact hall m hm'
  · rw [if_neg fun hs => hall (hsame.mp hs)]
    obtain ⟨m, hm', hne⟩ : ∃ m ∈ ns, ¬ ((r m).code = (r n).code ∧ (r m).sub = (r n).sub) := by
      by_contra hno
      exact hall fun m hm' => by_contra fun hne => hno ⟨m, hm', hne⟩
    exact ⟨hclamped, congrArg (fun l => min l.sum Config.max32) hvalue,
      .inr ⟨⟨m, n, (hin m).mpr (.inr hm'), (hin n).mpr (.inl rfl), hne⟩, rfl, rfl⟩⟩

/-! ## The result bytes (Tables 12-4 and 12-6) -/

/-- The two bytes of a station's result. -/
def resultPair : Option Res → List Byte
  | some r => leBytes 1 r.code.code ++ leBytes 1 r.detail
  | none => zeros 2

theorem resultPair_length (o : Option Res) : (resultPair o).length = 2 := by
  cases o <;> simp [resultPair]

theorem resultPairs_length (l : List (Option Res)) : (l.flatMap resultPair).length = 2 * l.length := by
  induction l with
  | nil => rfl
  | cons o l ih => rw [List.flatMap_cons, List.length_append, resultPair_length, ih, List.length_cons]; omega

/-- A station's bytes among the others. -/
theorem resultPairs_field {l : List (Option Res)} {i k : Nat} {o : Option Res} (hi : l[i]? = some o) (hk : k < 2)
    (rest : List Byte) : field (l.flatMap resultPair ++ rest) (2 * i + k) 1 = field (resultPair o) k 1 := by
  induction l generalizing i with
  | nil => cases hi
  | cons x l ih =>
    rw [List.flatMap_cons, List.append_assoc]
    cases i with
    | zero =>
      obtain rfl : x = o := by simpa using hi
      rw [Nat.mul_zero, Nat.zero_add, field_append_front (by rw [resultPair_length]; omega)]
    | succ i =>
      rw [field_append_skip (by rw [resultPair_length]; omega), resultPair_length,
        show 2 * (i + 1) + k - 2 = 2 * i + k by omega]
      exact ih (by simpa using hi)

theorem ResultCode.code_lt (c : ResultCode) : c.code < 256 := by cases c <;> decide

theorem Res.detail_lt {r : Res} (h : r.sub < 16) : r.detail < 256 := by
  unfold Res.detail bit
  split <;> omega

theorem resultPair_field (o : Option Res) (h : ∀ r, o = some r → r.sub < 16) :
    field (resultPair o) 0 1 = (o.map fun r => r.code.code).getD 0
      ∧ field (resultPair o) 1 1 = (o.map Res.detail).getD 0 := by
  cases o with
  | none => exact ⟨rfl, rfl⟩
  | some r =>
    have hpair : resultPair (some r) = packed [(1, r.code.code), (1, r.detail)] := by
      simp [resultPair]
    rw [hpair]
    exact ⟨field_packed_of_lt (i := 0) rfl rfl r.code.code_lt, field_packed_of_lt (i := 1) rfl rfl (Res.detail_lt (h r rfl))⟩

/-- The bytes behind the stations' results. -/
def resultRest (all : Res) (tb : Tick) : List (Nat × Nat) :=
  [(1, all.code.code), (1, all.detail), (2, 0), (4, all.value), (8, tb.toNat)]

theorem resultBytes_eq (per : Vector (Option Res) 8) (all : Res) (tb : Tick) :
    resultBytes per all tb = per.toList.flatMap resultPair ++ packed (resultRest all tb) := by
  have hpair : per.toList.flatMap resultPair = per.toList.flatMap fun
      | some r => leBytes 1 r.code.code ++ leBytes 1 r.detail
      | none => zeros 2 := by
    refine congrArg (List.flatMap · per.toList) (funext fun o => ?_)
    cases o <;> rfl
  unfold resultBytes resultRest
  rw [hpair]
  simp only [packed_cons, packed_nil, List.append_assoc, List.append_nil, leBytes_zero] <;> rfl

/-- The fields behind the stations' results. -/
theorem resultBytes_field {per : Vector (Option Res) 8} {all : Res} {tb : Tick} {i k v off : Nat}
    (hi : (resultRest all tb)[i]? = some (k, v)) (ho : (([1, 1, 2, 4, 8] : List Nat).take i).sum = off)
    (hv : v < 256 ^ k) : field (resultBytes per all tb) (16 + off) k = v := by
  have hlen : (per.toList.flatMap resultPair).length = 16 := by
    rw [resultPairs_length, Vector.length_toList]
  rw [resultBytes_eq, field_append_skip (by omega), hlen, Nat.add_sub_cancel_left]
  refine field_packed_of_lt hi ?_ hv
  rw [List.map_take]
  exact ho

/-- Settles O28: `State.finishJob` in its two cases, the overall result, and the bytes by their parts. -/
theorem resultIsRecordedAndWrittenBack : Obligations.ResultIsRecordedAndWrittenBack := by
  unfold Obligations.ResultIsRecordedAndWrittenBack
  refine ⟨⟨?_, fun h r ho hm hr => HeldJob.overall_of_results ho hm hr⟩, ?_⟩
  · intro s n h r hi hm h' bytes done
    have hn := hi.1
    have hrecord : s.recordResult n h.jid r = ({ s with held := replaced s.held h.jid h' } : State).finishJob h.jid :=
      congrArg (State.finishJob · h.jid)
        (State.modHeld_replaced hn hm fun h => { h with results := h.results.set n.val (some r) })
    rw [hrecord]
    exact ⟨fun hidle => State.finishJob_idle hn hm rfl hidle, fun hc hf => State.finishJob_formed hn hm rfl hc hf⟩
  · intro per all tb hvalue hsub hper d code detail
    have hcode : ∀ c : ResultCode, code c = c.code := fun c => by cases c <;> rfl
    have hdetail : ∀ r : Res, detail r = r.detail := fun r => by
      unfold detail Res.detail bit
      cases r.clamped <;> rfl
    refine ⟨?_, fun n => ?_, ?_, ?_, resultBytes_field (i := 2) rfl rfl (by decide),
      resultBytes_field (i := 3) rfl rfl (by omega),
      resultBytes_field (i := 4) rfl rfl (Nat.lt_trans tb.isLt (by decide))⟩
    · show (resultBytes per all tb).length = 32
      rw [resultBytes_eq, List.length_append, resultPairs_length, Vector.length_toList, packed_length]
      rfl
    · have hget : per.toList[n.val]? = some per[n.val] := by
        rw [List.getElem?_eq_getElem (by rw [Vector.length_toList]; exact n.isLt), Vector.getElem_toList]
      have hd : d = per.toList.flatMap resultPair ++ packed (resultRest all tb) := resultBytes_eq ..
      obtain ⟨h0, h1⟩ := resultPair_field per[n.val] fun r hr => hper n r hr
      simp only [hcode]
      rw [hd, show detail = Res.detail from funext hdetail]
      exact ⟨(resultPairs_field hget (by decide) _).trans h0, (resultPairs_field hget (by decide) _).trans h1⟩
    · rw [hcode]
      exact resultBytes_field (i := 0) rfl rfl all.code.code_lt
    · rw [hdetail]
      exact resultBytes_field (i := 1) rfl rfl (Res.detail_lt hsub)

end Sys2Proof.Machine
end

section
/-! Queued jobs at the head: the head check, CAPTURE START and CONFIGURE (R27, R30, R135). -/

namespace Sys2Proof.Machine

/-! ## The command row of a job at the head -/

section
variable {s : State} {n : StationNo}

theorem exec_configure_head {a : Word64} (h : (s.station n).waitingJob = some (.configure a)) :
    exec (.configure n) s = .next (s.withStation n fun e => gated (.configure a) (configureJob e a)) :=
  congrArg Host.Outcome.next (State.withStation_congr (by simp only [h]))

theorem exec_park_head (h : (s.station n).waitingJob = some .park) :
    exec (.park n) s = .next (s.withStation n fun e => gated .park (parkJob e)) :=
  congrArg Host.Outcome.next (State.withStation_congr (by simp only [h]))

theorem exec_unpark_head (h : (s.station n).waitingJob = some .unpark) :
    exec (.unpark n) s = .next (s.withStation n fun e => gated .unpark (unparkJob e)) :=
  congrArg Host.Outcome.next (State.withStation_congr (by simp only [h]))

theorem exec_powerOn_head (h : (s.station n).waitingJob = some .powerOn) :
    exec (.powerOn n) s = .next (s.withStation n fun e => gated .powerOn (powerOnJob e)) :=
  congrArg Host.Outcome.next (State.withStation_congr (by simp only [h]))

theorem exec_powerOff_head (h : (s.station n).waitingJob = some .powerOff) :
    exec (.powerOff n) s = .next (s.withStation n fun e => gated .powerOff (powerOffJob e)) :=
  congrArg Host.Outcome.next (State.withStation_congr (by simp only [h]))

theorem exec_setMode_head {m : PowerMode} (h : (s.station n).waitingJob = some (.setMode m)) :
    exec (.setMode n) s = .next (s.withStation n fun e => gated (.setMode m) (setModeJob e m)) :=
  congrArg Host.Outcome.next (State.withStation_congr (by simp only [h]))

theorem exec_resetPulse_head {w : Nat} (h : (s.station n).waitingJob = some (.resetPulse w)) :
    exec (.resetPulse n) s = .next (s.withStation n fun e => gated (.resetPulse w) (resetPulseJob e w)) :=
  congrArg Host.Outcome.next (State.withStation_congr (by simp only [h]))

theorem exec_resetHold_head (h : (s.station n).waitingJob = some .resetHold) :
    exec (.resetHold n) s = .next (s.withStation n fun e => gated .resetHold (resetHoldJob e)) :=
  congrArg Host.Outcome.next (State.withStation_congr (by simp only [h]))

theorem exec_resetRelease_head (h : (s.station n).waitingJob = some .resetRelease) :
    exec (.resetRelease n) s = .next (s.withStation n fun e => gated .resetRelease (resetReleaseJob e)) :=
  congrArg Host.Outcome.next (State.withStation_congr (by simp only [h]))

theorem exec_read_head {a b : Word64} {k : Nat} (h : (s.station n).waitingJob = some (.read a k b)) :
    exec (.read n) s = .next (s.withStation n fun e => gated (.read a k b) (startAccess e [⟨.read, a, [], k, 0⟩])) :=
  congrArg Host.Outcome.next (State.withStation_congr (by simp only [h]))

theorem exec_writeInline_head {a : Word64} {k : Nat} {ws : List Word32} (h : (s.station n).waitingJob = some (.writeInline a k ws)) :
    exec (.writeInline n) s = .next (s.withStation n fun e => gated (.writeInline a k ws) (startAccess e [⟨.write, a, ws, k, 0⟩])) :=
  congrArg Host.Outcome.next (State.withStation_congr (by simp only [h]))

theorem exec_writeBuffer_head {a b : Word64} {k : Nat} (h : (s.station n).waitingJob = some (.writeBuffer a k b)) :
    exec (.writeBuffer n) s = .next (s.withStation n fun e => gated (.writeBuffer a k b) (writeBufferJob e k b)) :=
  congrArg Host.Outcome.next (State.withStation_congr (by simp only [h]))

theorem exec_boardControl_head {k : Nat} (h : (s.station n).waitingJob = some (.boardControl k)) :
    exec (.boardControl n) s = .next (s.withStation n fun e => gated (.boardControl k) (startAccess e [controlReq k])) :=
  congrArg Host.Outcome.next (State.withStation_congr (by simp only [h]))

theorem exec_ping_head (h : (s.station n).waitingJob = some .ping) :
    exec (.ping n) s = .next (s.withStation n fun e => gated .ping (startAccess e [⟨.ping, 0, [], 0, 0⟩])) :=
  congrArg Host.Outcome.next (State.withStation_congr (by simp only [h]))

theorem exec_consoleSend_head {k : Nat} {bs : List Byte} (h : (s.station n).waitingJob = some (.consoleSend k bs)) :
    exec (.consoleSend n) s = .next (s.withStation n fun e => gated (.consoleSend k bs) (sendConsole e k bs)) :=
  congrArg Host.Outcome.next (State.withStation_congr (by simp only [h]))

theorem exec_arm_head {a : Word64} (h : (s.station n).waitingJob = some (.arm a)) :
    exec (.arm n) s = .next (s.withStation n fun e => gated (.arm a) (armJob e a)) :=
  congrArg Host.Outcome.next (State.withStation_congr (by simp only [h]))

theorem exec_captureStartImmediate_head (h : (s.station n).waitingJob = some .captureStartImmediate) :
    exec (.captureStartImmediate n) s = .next (s.withStation n fun e => gated .captureStartImmediate (captureImmediateJob e)) :=
  congrArg Host.Outcome.next (State.withStation_congr (by simp only [h]))

theorem exec_blockRead_head {a b : Word64} {k : Nat} (h : (s.station n).waitingJob = some (.blockRead a k b)) :
    exec (.blockRead n) s = .next (s.withStation n fun e => gated (.blockRead a k b) fun c =>
      startAccess e (blockRequests a (s.station n).prof.requestWords k) c) :=
  congrArg Host.Outcome.next (State.withStation_congr (by
    simp only [h]))

theorem exec_captureStartTriggered_head (h : (s.station n).waitingJob = some .captureStartTriggered) :
    exec (.captureStartTriggered n) s = .next (s.withStation n fun _ => gated .captureStartTriggered captureTriggeredJob) :=
  congrArg Host.Outcome.next (State.withStation_congr (by simp only [h]))

theorem exec_quiesce_head (h : (s.station n).waitingJob = some .quiesce) :
    exec (.quiesce n) s = .next ((s.withStation n fun e => gated .quiesce (quiesceJob e)).quiesceCheck n) :=
  congrArg (fun u => Host.Outcome.next (State.quiesceCheck u n)) (State.withStation_congr (by simp only [h]))

end

theorem Station.waitingJob_of {t : Station} {q : QJob} {qs : List QJob} (hh : t.head = .waiting) (hq : t.queue = q :: qs) :
    t.waitingJob = some q.job := by
  unfold Station.waitingJob
  rw [hh, hq]

/-! ## The head check (R27) -/

/-- A refused job ends at the station, and nothing else of it changes. -/
theorem State.gated_refused {s : State} {n : StationNo} {q : QJob} {qs : List QJob} {j : Job} {code : ResultCode}
    (hq : (s.station n).queue = q :: qs)
    (hr : (s.station n).headRefusal j = some code) (f : Env → Ctx → Ctx) :
    s.withStation n (fun e => gated j (f e)) = s.putEnd n (s.station n) s.attention q.jid (Res.ended code) := by
  have hg : gated j (f (s.env n)) ⟨s.station n, s.attention, []⟩
      = endHead (Res.ended code) ⟨s.station n, s.attention, []⟩ := by
    unfold gated
    rw [hr]
  rw [State.withStation_congr (f := fun e => gated j (f e)) (g := fun _ => endHead (Res.ended code)) hg,
    State.withStation_endHead, State.endFirst_cons s n _ q qs hq]
  rfl

/-- A job that is not refused is executed. -/
theorem State.gated_executed {s : State} {n : StationNo} {j : Job} (hr : (s.station n).headRefusal j = none)
    (f : Env → Ctx → Ctx) : s.withStation n (fun e => gated j (f e)) = s.withStation n f := by
  refine State.withStation_congr ?_
  unfold gated
  rw [hr]

/-- With the head job no QUIESCE in its drain, QUIESCE's check does nothing. -/
theorem State.quiesceCheck_waiting {s : State} {n : StationNo} (h : (s.station n).head = .waiting) :
    s.quiesceCheck n = s := by
  unfold State.quiesceCheck Station.drained
  rw [h]
  simp

theorem State.putEnd_station (s : State) (n : StationNo) (u : Station) (a : BitVec 11) (j : Nat) (r : Res) :
    (s.putEnd n u a j r).station n = { u with queue := u.queue.tail, head := .waiting } :=
  (State.station_congr (State.recordResult_stations ..) n).trans (State.put_station ..)

/-- Whatever the head check refuses ends there with the refusal. -/
theorem exec_headRow_refused {s : State} {n : StationNo} {q : QJob} {qs : List QJob} {c : Instr} {code : ResultCode}
    (hh : (s.station n).head = .waiting) (hq : (s.station n).queue = q :: qs) (hc : q.job.headRow n = some c)
    (hr : (s.station n).headRefusal q.job = some code) :
    exec c s = .next (s.putEnd n (s.station n) s.attention q.jid (Res.ended code)) := by
  have hw := Station.waitingJob_of hh hq
  have hgated : ∀ f : Env → Ctx → Ctx, (.next (s.withStation n fun e => gated q.job (f e)) : Answer)
      = .next (s.putEnd n (s.station n) s.attention q.jid (Res.ended code)) :=
    fun f => congrArg Host.Outcome.next (State.gated_refused hq hr f)
  generalize q.job = j at hc hw hr hgated
  cases j with
  | configure a => cases hc; exact (exec_configure_head hw).trans (hgated _)
  | park => cases hc; exact (exec_park_head hw).trans (hgated _)
  | unpark => cases hc; exact (exec_unpark_head hw).trans (hgated _)
  | quiesce =>
    cases hc
    refine (exec_quiesce_head hw).trans ?_
    have hg := State.gated_refused hq hr fun e => quiesceJob e
    rw [hg, State.quiesceCheck_waiting]
    rw [State.putEnd_station]
  | powerOn => cases hc; exact (exec_powerOn_head hw).trans (hgated _)
  | powerOff => cases hc; exact (exec_powerOff_head hw).trans (hgated _)
  | setMode m => cases hc; exact (exec_setMode_head hw).trans (hgated _)
  | resetPulse w => cases hc; exact (exec_resetPulse_head hw).trans (hgated _)
  | resetHold => cases hc; exact (exec_resetHold_head hw).trans (hgated _)
  | resetRelease => cases hc; exact (exec_resetRelease_head hw).trans (hgated _)
  | read a k b => cases hc; exact (exec_read_head hw).trans (hgated _)
  | writeInline a k ws => cases hc; exact (exec_writeInline_head hw).trans (hgated _)
  | writeBuffer a k b => cases hc; exact (exec_writeBuffer_head hw).trans (hgated _)
  | blockRead a k b => cases hc; exact (exec_blockRead_head hw).trans (hgated _)
  | boardControl k => cases hc; exact (exec_boardControl_head hw).trans (hgated _)
  | ping => cases hc; exact (exec_ping_head hw).trans (hgated _)
  | consoleSend k bs => cases hc; exact (exec_consoleSend_head hw).trans (hgated _)
  | arm a => cases hc; exact (exec_arm_head hw).trans (hgated _)
  | captureStartImmediate => cases hc; exact (exec_captureStartImmediate_head hw).trans (hgated _)
  | captureStartTriggered => cases hc; exact (exec_captureStartTriggered_head hw).trans (hgated _)
  | _ => cases hc

/-- Settles O29: the head check's refusals by the station state. -/
theorem headCheckRefusals : Obligations.HeadCheckRefusals := by
  unfold Obligations.HeadCheckRefusals
  intro s n q qs c hh hq hc
  refine ⟨fun hs hj => exec_headRow_refused hh hq hc ?_, fun hs hj => exec_headRow_refused hh hq hc ?_,
    fun hs hj => exec_headRow_refused hh hq hc ?_⟩
  · simp [Station.headRefusal, hs, hj]
  · simp [Station.headRefusal, hs, hj]
  · simp [Station.headRefusal, hs, hj]

/-! ## Jobs of working stations -/

section
variable {s : State} {n : StationNo} {q : QJob} {j : Job}

theorem Station.atHead.waitingJob {t : Station} (h : t.atHead q j) : t.waitingJob = some j := by
  obtain ⟨-, hh, rfl, qs, hq⟩ := h
  exact Station.waitingJob_of hh hq

/-- A READY or QUIESCING station refuses PARK and UNPARK alone (R27). -/
theorem Station.atHead.executes {t : Station} (h : t.atHead q j) (hp : j ≠ .park) (hu : j ≠ .unpark) :
    t.headRefusal j = none := by
  obtain ⟨hw, -⟩ := h
  unfold Station.working at hw
  unfold Station.headRefusal
  cases hs : t.state <;> simp_all

/-- The job at the head ends. -/
theorem Station.atHead.ends {t : Station} (h : t.atHead q j) (s : State) (n : StationNo) (a : BitVec 11) (r : Res) :
    s.withStation n (fun _ _ => endHead r ⟨t, a, []⟩) = s.putEnd n t a q.jid r := by
  obtain ⟨-, -, -, qs, hq⟩ := h
  refine (State.withStation_ends (endHead_cons (c := ⟨t, a, []⟩) r hq)).trans ?_
  unfold State.putEnd
  rw [hq]
  rfl

end

/-- Settles O36: CAPTURE START decides by the capture state. -/
theorem captureStartNeedsStopped : Obligations.CaptureStartNeedsStopped := by
  unfold Obligations.CaptureStartNeedsStopped
  refine ⟨fun s n q h => ?_, fun s n q h => ?_⟩
  · intro t
    have hexec := (exec_captureStartImmediate_head h.waitingJob).trans
      (congrArg Host.Outcome.next (State.gated_executed (h.executes nofun nofun) fun e => captureImmediateJob e))
    refine ⟨fun hc => hexec.trans (congrArg Host.Outcome.next ?_), fun hc => hexec.trans (congrArg Host.Outcome.next ?_)⟩
    · refine (State.withStation_congr (if_neg hc)).trans (h.ends s n s.attention _)
    · have hstart : startCapture (s.env n) ⟨t, s.attention, []⟩
          = ⟨{ t with cap := { t.cap.invalidate .enterRecording with state := .recording } }, s.attention, []⟩ := by
        unfold startCapture Capture.start
        simp only [hc]
        rfl
      have hdoes : captureImmediateJob (s.env n) ⟨t, s.attention, []⟩ = endHead (Res.okv 0)
          ⟨{ t with cap := { t.cap.invalidate .enterRecording with state := .recording } }, s.attention, []⟩ := by
        unfold captureImmediateJob
        rw [if_pos hc, hstart]
      refine (State.withStation_congr hdoes).trans
        (Station.atHead.ends (q := q) (j := .captureStartImmediate) (t := { t with cap :=
          { t.cap.invalidate .enterRecording with state := .recording } }) h s n s.attention _)
  · intro t
    have hexec := (exec_captureStartTriggered_head h.waitingJob).trans
      (congrArg Host.Outcome.next (State.gated_executed (h.executes nofun nofun) fun _ => captureTriggeredJob))
    refine ⟨fun hc => hexec.trans (congrArg Host.Outcome.next ?_), fun hc => hexec.trans (congrArg Host.Outcome.next ?_)⟩
    · exact (State.withStation_congr (if_neg hc)).trans (h.ends s n s.attention _)
    · refine (State.withStation_congr (if_pos hc)).trans
        (Station.atHead.ends (q := q) (j := .captureStartTriggered) (t := { t with cap :=
          { t.cap with state := .watching, history := [], historySize := t.prof.historySize } }) h s n s.attention _)

/-! ## Bench lines (R131 to R133) -/

/-- Reports at the stations of a list change stations and attention bits alone. -/
theorem foldReport_frame (x : Cond) (l : List StationNo) (s : State) :
    ∃ stations a, l.foldl (fun s n => s.withStation n fun e => report e x) s
      = { s with stations := stations, attention := a } := by
  induction l generalizing s with
  | nil => exact ⟨s.stations, s.attention, rfl⟩
  | cons n ns ih =>
    have heffs := report_effs (s.env n) x ⟨s.station n, s.attention, []⟩
    obtain ⟨stations, a, hrest⟩ := ih (s.withStation n fun e => report e x)
    rw [State.withStation_quiet (f := fun e => report e x) (Ctx.eq_of_effs_nil heffs)] at hrest
    refine ⟨stations, a, ?_⟩
    rw [List.foldl_cons, State.withStation_quiet (f := fun e => report e x) (Ctx.eq_of_effs_nil heffs)]
    exact hrest

/-- The lines with one more active. -/
theorem lines_set (b : BitVec 4) (l i : Fin 4) :
    (b ||| (1#4 <<< l.val)).getLsbD i.val = (b.getLsbD i.val || i == l) := by
  revert b l i
  decide

/-- The lines with one less active. -/
theorem lines_clear (b : BitVec 4) (l i : Fin 4) :
    (b &&& ~~~(1#4 <<< l.val)).getLsbD i.val = (b.getLsbD i.val && i != l) := by
  revert b l i
  decide

/-- Settles O52: the edges by the line's level and the card's drives, the drive's end by its time. -/
theorem benchLinesAreSeen : Obligations.BenchLinesAreSeen := by
  unfold Obligations.BenchLinesAreSeen
  refine ⟨fun s l => ⟨fun hl => ?_, fun hl => ?_⟩, fun s l => ⟨fun hd => ?_, fun hd => ?_⟩, fun s n l => ?_⟩
  · exact congrArg Host.Outcome.next (if_pos hl)
  · have hno : ¬ s.line l = true := by
      show ¬ s.lines.getLsbD l.val = true
      rw [hl]
      decide
    obtain ⟨stations, a, hfold⟩ := foldReport_frame (.benchLine l.val) allStations
      { s with lines := s.lines ||| (1#4 <<< l.val) }
    have hstation := foldWith_station (f := fun e => report e (.benchLine l.val)) (fun e => Passes.report e _)
      allStations allStations_nodup { s with lines := s.lines ||| (1#4 <<< l.val) }
    rw [hfold] at hstation
    refine ⟨_, congrArg Host.Outcome.next ((if_neg hno).trans hfold), fun i => lines_set s.lines l i, fun n => ?_,
      rfl, rfl, rfl, rfl⟩
    rw [hstation n, if_pos (mem_allStations n), State.withStation_station]
    unfold State.putReport
    rw [State.withStation_station]
    rfl
  · obtain ⟨n, hn⟩ := hd
    refine congrArg Host.Outcome.next (if_pos ?_)
    unfold State.pulls
    exact List.any_eq_true.mpr ⟨n, mem_allStations n, Option.isSome_iff_ne_none.mpr hn⟩
  · have hno : ¬ s.pulls l = true := by
      unfold State.pulls
      rw [List.any_eq_true]
      rintro ⟨n, -, hn⟩
      rw [hd n] at hn
      cases hn
    exact ⟨_, congrArg Host.Outcome.next (if_neg hno), rfl, fun i => lines_clear s.lines l i⟩
  · intro t
    refine ⟨fun hdue => ?_, fun hdue => ?_⟩
    · refine congrArg Host.Outcome.next ?_
      exact congrArg (s.setStation n) (if_pos hdue)
    · refine congrArg Host.Outcome.next ?_
      exact (congrArg (s.setStation n) (if_neg (Bool.eq_false_iff.mp hdue))).trans (s.put_self n)

end Sys2Proof.Machine
end

section
/-! Power work as changes of the state: events, ramps, faults, modes (R97 to R113). -/

namespace Sys2Proof.Machine

/-! ## Power work passes on what was done before it -/

theorem Passes.closeLine (e : Env) (f : LineFlags) (tm : Tick) : Passes (closeLine e f tm) :=
  Passes.choose (F := fun t c => (Machine.offerRec e (lineRecord t.cu f tm) c).modCu fun u => { u with line := [], idle := none })
    fun _ => (Passes.mod _).comp (Passes.offerRec e _)

theorem Passes.cutLine (e : Env) : Passes (cutLine e) :=
  Passes.choose (F := fun t c => if t.cu.line.isEmpty then c else Machine.closeLine e { LineFlags.none with cut := true } e.tb c)
    fun _ => Passes.ite Passes.id (Passes.closeLine _ _ _)

theorem Passes.endSend (k : FaultKind) : Passes (endSend k) :=
  Passes.choose (F := fun t c => match t.head with
    | .consoleSend _ sent => Machine.endHead (Res.powerFault k sent) (c.modCu (·.cutSend))
    | _ => c) fun t => by
      cases t.head with
      | consoleSend total sent => exact (Passes.endHead _).comp (Passes.mod _)
      | _ => exact Passes.id

theorem Passes.powerLeft (e : Env) (k : FaultKind) : Passes (powerLeft e k) := (Passes.endSend k).comp (Passes.cutLine e)

theorem Passes.powerEvent (e : Env) (ev : PowerEv) (left : Bool) : Passes (powerEvent e ev left) := by
  have hreport := (Passes.report e (.power ev)).comp (Passes.offerPower e ev)
  have hleft : Passes fun c => if left = true then Machine.powerLeft e (ev.faultOf.getD .none)
      (Machine.report e (.power ev) (Machine.offerPower e ev c)) else Machine.report e (.power ev) (Machine.offerPower e ev c) :=
    Passes.ite ((Passes.powerLeft _ _).comp hreport) hreport
  exact Passes.ite ((Passes.setAttn _).comp hleft) hleft

theorem Passes.endPowerJob (k : FaultKind) : Passes (endPowerJob k) :=
  Passes.choose (F := fun t c => match t.head with
    | .ramp _ | .pulse _ _ => Machine.endHead (Res.powerFault k 0) c
    | _ => c) fun t => by
      cases t.head with
      | ramp _ => exact Passes.endHead _
      | pulse _ _ => exact Passes.endHead _
      | _ => exact Passes.id

theorem Passes.endAssertion (e : Env) : Passes (endAssertion e) := by
  have hrest : Passes fun c => if c.st.bpu.hold then c.modBpu fun b => { b with ctl := .held }
      else Machine.powerEvent e .resetReleased false (c.modBpu fun b => { b with ctl := .released }) :=
    Passes.choose (F := fun t c => if t.bpu.hold then c.modBpu fun b => { b with ctl := .held }
      else Machine.powerEvent e .resetReleased false (c.modBpu fun b => { b with ctl := .released }))
      fun _ => Passes.ite (Passes.mod _) ((Passes.powerEvent _ _ _).comp (Passes.mod _))
  exact hrest.comp (Passes.mod _)

theorem Passes.endRampJob (e : Env) : Passes (endRampJob e) :=
  Passes.choose (F := fun t c => match t.head with
    | .ramp started => Machine.endHead (Res.okv ((e.now - started) / Config.ticksPerMs)) c
    | _ => c) fun t => by
      cases t.head with
      | ramp _ => exact Passes.endHead _
      | _ => exact Passes.id

theorem Passes.powerGood (e : Env) : Passes (powerGood e) :=
  Passes.choose (F := fun t c =>
    if t.prof.resetDelayMs = 0 then
      Machine.endAssertion e (Machine.endRampJob e (Machine.powerEvent e .powerGood false (c.modBpu fun b =>
        { b with state := .on, ramp := none, retry := 0, ctl := .delay
                 delay := some (e.now + t.prof.resetDelayMs * Config.ticksPerMs) })))
    else Machine.endRampJob e (Machine.powerEvent e .powerGood false (c.modBpu fun b =>
        { b with state := .on, ramp := none, retry := 0, ctl := .delay
                 delay := some (e.now + t.prof.resetDelayMs * Config.ticksPerMs) })))
    fun _ => by
      have hgood := fun g => (Passes.endRampJob e).comp ((Passes.powerEvent e .powerGood false).comp (Passes.mod g))
      exact Passes.ite ((Passes.endAssertion e).comp (hgood _)) (hgood _)

theorem Passes.enterRamping (e : Env) : Passes (enterRamping e) :=
  Passes.choose (F := fun t c =>
    let c := c.modBpu fun b =>
      { b with state := .ramping, held := none, autoSettle := none, cooldown := none
               ramp := some (e.now + t.prof.rampMs * Config.ticksPerMs)
               inrush := if t.prof.inrushMs = 0 then none else some (e.now + t.prof.inrushMs * Config.ticksPerMs) }
    let c := if t.prof.inrushMs = 0 ∧ e.pin.overload then c.mod (startFilter e) else c
    let c := Machine.powerEvent e .rampStart false c
    if e.pin.pwrGood then Machine.powerGood e c else c) fun t => by
      have hstart := fun g => (Passes.powerEvent e .rampStart false).comp
        ((Passes.ite (p := t.prof.inrushMs = 0 ∧ e.pin.overload = true) (Passes.mod (startFilter e)) Passes.id).comp (Passes.mod g))
      exact Passes.ite ((Passes.powerGood e).comp (hstart _)) (hstart _)

theorem Passes.settleDecides (e : Env) : Passes (settleDecides e) :=
  Passes.choose (F := fun t c =>
    if t.prof.classMask.getLsbD t.bpu.cls.toNat ∧ t.bpu.latched = .none then Machine.enterRamping e c
    else c.modBpu fun b => { b with autoSettle := none }) fun _ => Passes.ite (Passes.enterRamping e) (Passes.mod _)

theorem Passes.startSettle (e : Env) : Passes (startSettle e) :=
  Passes.choose (F := fun t c => if t.prof.autoSettleMs = 0 then Machine.settleDecides e c
    else c.modBpu fun b => { b with autoSettle := some (e.now + t.prof.autoSettleMs * Config.ticksPerMs) })
    fun _ => Passes.ite (Passes.settleDecides e) (Passes.mod _)

theorem Passes.switchOff (e : Env) : Passes (switchOff e) :=
  Passes.choose (F := fun t c => Machine.powerEvent e .off (t.bpu.state == .on) (c.modBpu fun b =>
    { b.stopPowered with state := .seated, cooldown := none, held := b.heldAfter }))
    fun _ => (Passes.powerEvent _ _ _).comp (Passes.mod _)

theorem Passes.modeStops (e : Env) : Passes (modeStops e) :=
  Passes.choose (F := fun t c => match t.bpu.state with
    | .cooldown => Machine.switchOff e c
    | .seated => c.modBpu fun b => { b with autoSettle := none }
    | .inactive | .absent | .ramping | .on => c) fun t => by
      cases t.bpu.state with
      | cooldown => exact Passes.switchOff e
      | seated => exact Passes.mod _
      | _ => exact Passes.id

theorem Passes.changeMode (e : Env) (old new : PowerMode) : Passes (changeMode e old new) := by
  have hoff : Passes fun c => if c.st.bpu.pwrEn then Machine.switchOff e c else Machine.modeStops e c :=
    Passes.choose (F := fun t c => if t.bpu.pwrEn then Machine.switchOff e c else Machine.modeStops e c)
      fun _ => Passes.ite (Passes.switchOff e) (Passes.modeStops e)
  have hauto : Passes fun c => if c.st.bpu.state = .seated then Machine.startSettle e c else c :=
    Passes.choose (F := fun t c => if t.bpu.state = .seated then Machine.startSettle e c else c)
      fun _ => Passes.ite (Passes.startSettle e) Passes.id
  cases new with
  | off => exact hoff.comp (Passes.mod _)
  | manual =>
    cases old with
    | auto => exact (Passes.modeStops e).comp (Passes.mod _)
    | off => exact Passes.mod fun t => { t with bpu := { t.bpu with latched := .none, retry := 0 } }
    | manual => exact Passes.mod fun t => { t with bpu := { t.bpu with latched := .none, retry := 0 } }
  | auto => cases old <;> exact hauto.comp (Passes.mod _)

end Sys2Proof.Machine
end

section
/-! The parts of power work at a state: what each gives (R98 to R107). -/

namespace Sys2Proof.Machine

section
variable (s : State) (n : StationNo)

/-! ## A station put, then at work -/

/-- Work after a change of the station. -/
theorem State.withStation_after {f : Env → Ctx → Ctx} (hf : ∀ e, Passes (f e)) (g : Env → Station → Station) :
    s.withStation n (fun e c => f e (c.mod (g e)))
      = (s.put n (g (s.env n) (s.station n)) s.attention).withStation n f :=
  State.withStation_comp (hf _) fun e c => c.mod (g e)

/-- Work before the end of the job at the head. -/
theorem State.withStation_thenEnd (f : Env → Ctx → Ctx) (r : Res) :
    s.withStation n (fun e c => endHead r (f e c)) = (s.withStation n f).endFirst n r :=
  (State.withStation_comp (f := fun _ c => endHead r c) (Passes.endHead r) f).trans (State.withStation_endHead ..)

theorem State.withStation_setAttn (a : Attn) : s.withStation n (fun _ c => c.setAttn a) = s.setAttn a := by
  show (s.put n (s.station n) (s.attention ||| a.mask)) = s.setAttn a
  unfold State.put State.setStation State.station State.setAttn
  simp

variable {s n}

theorem State.put_endFirst {u : Station} {q : QJob} {qs : List QJob} (hq : u.queue = q :: qs) (a : BitVec 11) (r : Res) :
    (s.put n u a).endFirst n r = s.putEnd n u a q.jid r := by
  rw [State.endFirst_cons _ n r q qs ((congrArg Station.queue (State.put_station s n u a)).trans hq)]
  unfold State.endAt State.putEnd
  rw [State.put_station, State.put_put]
  rfl

variable (s n)

/-! ## Power events (R98) -/

/-- Steps 2 and 3 of a power event at the station as it stands. -/
theorem State.withStation_powerSilent (ev : PowerEv) :
    s.withStation n (fun e c => report e (.power ev) (offerPower e ev c)) = s.putPower n (s.station n) ev := by
  refine (State.withStation_comp (f := fun e c => report e (.power ev) c) (Passes.report _ _)
    fun e c => offerPower e ev c).trans ?_
  refine congrArg (fun w : State => w.reportAt n (.power ev)) ?_
  exact State.withStation_quiet (offerRec_eq ..)

theorem State.putPower_put (u u' : Station) (ev : PowerEv) :
    (s.put n u s.attention).putPower n u' ev = s.putPower n u' ev :=
  congrArg (fun w : State => w.reportAt n (.power ev)) (State.put_put ..)

/-- A power event that does not leave ON and is no fault. -/
theorem State.withStation_event {ev : PowerEv} (hev : ev.faultOf = none) :
    s.withStation n (fun e => powerEvent e ev false) = s.putPower n (s.station n) ev := by
  refine Eq.trans ?_ (State.withStation_powerSilent s n ev)
  refine State.withStation_congr ?_
  unfold powerEvent
  simp [hev]

theorem State.withStation_eventAfter {ev : PowerEv} (hev : ev.faultOf = none) (g : Env → Station → Station) :
    s.withStation n (fun e c => powerEvent e ev false (c.mod (g e)))
      = s.putPower n (g (s.env n) (s.station n)) ev := by
  rw [State.withStation_after s n (fun e => Passes.powerEvent e ev false) g, State.withStation_event _ _ hev,
    State.put_station, State.putPower_put]

/-! ## ON left (R90, R96) -/

/-- The open line cut at a state, as `State.putLeft` has it. -/
def State.putCut (s : State) (n : StationNo) : State :=
  let t := s.station n
  let framing := t.cu.line.any LineByte.framing
  let flags : LineFlags := { LineFlags.none with cut := true, framing := framing }
  let cutRec : SrcRec := ⟨.consoleLine flags 0 (t.cu.line.map LineByte.val),
    { RecFlags.none with sourceError := framing }, s.tb, some t.cu.origin⟩
  let offered := s.putOffer n t s.attention cutRec
  if t.cu.line = [] then s else
    offered.put n { offered.station n with cu := { t.cu with line := [], idle := none } } offered.attention

theorem State.withStation_cutLine : s.withStation n (fun e => cutLine e) = s.putCut n := by
  unfold State.putCut
  dsimp only
  by_cases hl : (s.station n).cu.line = []
  · rw [if_pos hl]
    refine State.withStation_same ?_
    unfold cutLine
    simp [hl]
  · rw [if_neg hl]
    have hrec : lineRecord (s.station n).cu { LineFlags.none with cut := true } s.tb
        = ⟨.consoleLine { LineFlags.none with cut := true, framing := (s.station n).cu.line.any LineByte.framing } 0
            ((s.station n).cu.line.map LineByte.val),
          { RecFlags.none with sourceError := (s.station n).cu.line.any LineByte.framing }, s.tb,
          some (s.station n).cu.origin⟩ := by
      unfold lineRecord
      simp [LineFlags.none, hl]
    have hcut : s.withStation n (fun e => cutLine e) = s.withStation n fun e c =>
        (offerRec e (lineRecord (s.station n).cu { LineFlags.none with cut := true } s.tb) c).modCu
          fun u => { u with line := [], idle := none } := by
      refine State.withStation_congr ?_
      unfold cutLine closeLine
      exact if_neg (by simpa using hl)
    rw [hcut, ← hrec]
    generalize lineRecord (s.station n).cu { LineFlags.none with cut := true } s.tb = r
    refine (State.withStation_comp (f := fun _ c => c.modCu fun u => { u with line := [], idle := none }) (Passes.mod _)
      fun e c => offerRec e r c).trans ?_
    rw [State.withStation_offer]
    refine (State.withStation_mod ..).trans ?_
    have hcu : ((s.putOffer n (s.station n) s.attention r).station n).cu = (s.station n).cu := by
      unfold State.putOffer
      rw [State.put_station, Station.take_cu]
    rw [hcu]

theorem State.putCut_head : ((s.putCut n).station n).head = (s.station n).head := by
  unfold State.putCut
  dsimp only
  split_ifs
  · rfl
  · rw [State.put_station]
    unfold State.putOffer
    rw [State.put_station, Station.take_head]

theorem State.putCut_queue : ((s.putCut n).station n).queue = (s.station n).queue := by
  unfold State.putCut
  dsimp only
  split_ifs
  · rfl
  · rw [State.put_station]
    unfold State.putOffer
    rw [State.put_station, Station.take_queue]

/-- The send queue emptied and a CONSOLE SEND at the head `h` ended, as `State.putLeft` has it. -/
def State.putSent (w : State) (n : StationNo) (k : FaultKind) (h : Head) : State :=
  match h with
  | .consoleSend _ sent =>
    (w.put n { w.station n with cu := { (w.station n).cu with sendQ := [], tx := none } } w.attention).endFirst n
      ⟨.powerFault, false, k.code, sent⟩
  | _ => w

theorem State.putLeft_eq (k : FaultKind) : s.putLeft n k = (s.putCut n).putSent n k (s.station n).head := rfl

theorem State.withStation_endSend (k : FaultKind) :
    s.withStation n (fun _ => endSend k) = s.putSent n k (s.station n).head := by
  unfold State.putSent
  cases hh : (s.station n).head with
  | consoleSend total sent =>
    refine Eq.trans (State.withStation_congr (g := fun _ c => endHead (Res.powerFault k sent) (c.modCu (·.cutSend))) ?_)
      (State.withStation_thenEnd s n (fun _ c => c.modCu (·.cutSend)) _)
    unfold endSend
    rw [hh]
  | _ =>
    refine State.withStation_same ?_
    unfold endSend
    rw [hh]

theorem State.withStation_powerLeft (k : FaultKind) : s.withStation n (fun e => powerLeft e k) = s.putLeft n k := by
  rw [State.putLeft_eq, ← s.putCut_head n, ← State.withStation_endSend, ← State.withStation_cutLine]
  exact State.withStation_comp (f := fun _ => endSend k) (Passes.endSend k) fun e => cutLine e

/-- A power event, whole (R98). -/
theorem State.withStation_powerEvent (ev : PowerEv) (left : Bool) :
    s.withStation n (fun e => powerEvent e ev left)
      = (let taken := s.putPower n (s.station n) ev
        let told := if left = true then taken.putLeft n (ev.faultOf.getD .none) else taken
        if ev.faultOf.isSome then told.setAttn .powerFault else told) := by
  have htold : s.withStation n (fun e c => if left = true then powerLeft e (ev.faultOf.getD .none)
        (report e (.power ev) (offerPower e ev c)) else report e (.power ev) (offerPower e ev c))
      = if left = true then (s.putPower n (s.station n) ev).putLeft n (ev.faultOf.getD .none)
        else s.putPower n (s.station n) ev := by
    cases left with
    | false => exact State.withStation_powerSilent s n ev
    | true =>
      refine (State.withStation_comp (f := fun e c => powerLeft e (ev.faultOf.getD .none) c) (Passes.powerLeft _ _)
        fun e c => report e (.power ev) (offerPower e ev c)).trans ?_
      rw [State.withStation_powerSilent, State.withStation_powerLeft]
      rfl
  dsimp only
  rw [← htold]
  cases hf : ev.faultOf.isSome with
  | false =>
    rw [if_neg Bool.false_ne_true]
    refine State.withStation_congr ?_
    unfold powerEvent
    simp [hf]
  | true =>
    rw [if_pos rfl]
    refine Eq.trans ?_ ((State.withStation_comp (f := fun _ c => c.setAttn .powerFault) (Passes.setAttn _) _).trans
      (State.withStation_setAttn ..))
    refine State.withStation_congr ?_
    unfold powerEvent
    simp [hf]

/-! ## The head's power jobs (R111, R113) -/

theorem State.withStation_endPowerJob (k : FaultKind) : s.withStation n (fun _ => endPowerJob k) = s.endPower n k := by
  unfold State.endPower
  have hdoes : ∀ h, (s.station n).head = h → endPowerJob k ⟨s.station n, s.attention, []⟩ = match h with
      | .ramp _ | .pulse _ _ => endHead (Res.powerFault k 0) ⟨s.station n, s.attention, []⟩
      | _ => ⟨s.station n, s.attention, []⟩ := by
    rintro h rfl
    rfl
  cases hh : (s.station n).head with
  | ramp _ => exact (State.withStation_congr (g := fun _ => endHead (Res.powerFault k 0)) (hdoes _ hh)).trans (State.withStation_endHead ..)
  | pulse _ _ => exact (State.withStation_congr (g := fun _ => endHead (Res.powerFault k 0)) (hdoes _ hh)).trans (State.withStation_endHead ..)
  | _ => exact State.withStation_same (f := fun _ => endPowerJob k) (hdoes _ hh)

/-! ## What a power event leaves of its station -/

/-- A station after the record and the report of a power event: a firing's changes at most (R98, R124). -/
theorem State.putPower_station (u : Station) (ev : PowerEv) : ∃ v : Station, (s.putPower n u ev).station n = v
    ∧ v.head = u.head ∧ v.queue = u.queue ∧ v.profile = u.profile ∧ v.cu = u.cu ∧ v.state = u.state
    ∧ v.pageQ = u.pageQ := by
  refine ⟨_, rfl, ?_⟩
  unfold State.putPower State.reportAt State.putReport
  rw [State.withStation_station]
  obtain ⟨-, hst⟩ := report_fired ((s.putOffer n u s.attention (s.powerRec ev u.bpu)).env n) (.power ev)
    ⟨(s.putOffer n u s.attention (s.powerRec ev u.bpu)).station n, (s.putOffer n u s.attention (s.powerRec ev u.bpu)).attention, []⟩
  rw [hst]
  dsimp only
  unfold State.putOffer
  rw [State.put_station]
  simp

theorem State.putPower_env (u : Station) (ev : PowerEv) (m : StationNo) : (s.putPower n u ev).env m = s.env m :=
  (State.withStation_env ..).trans rfl

theorem State.putPower_elapsed (u : Station) (ev : PowerEv) : (s.putPower n u ev).elapsed = s.elapsed :=
  congrArg Env.now (State.putPower_env s n u ev n)

theorem State.putPower_pin (u : Station) (ev : PowerEv) :
    (s.putPower n u ev).connector ((s.putPower n u ev).connectorOf n) = s.connector (s.connectorOf n) :=
  congrArg Env.pin (State.putPower_env s n u ev n)

end

end Sys2Proof.Machine
end

section
/-! Ramps, settling, switching off and mode changes as changes of the state (R101 to R110). -/

namespace Sys2Proof.Machine

section
variable (s : State) (n : StationNo)

/-! ## The end of an assertion (R108, R109) -/

theorem State.withStation_endAssertion : s.withStation n (fun e => endAssertion e) = s.putReleased n := by
  unfold State.putReleased
  dsimp only
  by_cases hh : (s.station n).bpu.hold = true
  · rw [if_pos hh]
    exact State.withStation_quiet (if_pos hh)
  · rw [if_neg hh]
    exact (State.withStation_congr (if_neg hh)).trans (State.withStation_eventAfter s n rfl fun _ t =>
      { t with bpu := { t.bpu with delay := none, pulse := none, ctl := .released } })

/-! ## Ramps (R101, R103) -/

/-- A POWER ON at the head `h` ended at POWER GOOD, as `State.putGood` has it. -/
def State.putRampEnd (w : State) (n : StationNo) (h : Head) : State :=
  match h with
  | .ramp started => w.endFirst n (Res.okv ((w.elapsed - started) / 100000))
  | _ => w

theorem State.withStation_endRampJob :
    s.withStation n (fun e => endRampJob e) = s.putRampEnd n (s.station n).head := by
  unfold State.putRampEnd
  cases hh : (s.station n).head with
  | ramp started =>
    refine Eq.trans (State.withStation_congr (g := fun e => endHead (Res.okv ((s.elapsed - started) / 100000))) ?_)
      (State.withStation_endHead s n _)
    unfold endRampJob
    rw [hh]
    rfl
  | _ =>
    refine State.withStation_same ?_
    unfold endRampJob
    rw [hh]

/-- A station in RAMPING that finds PWR_GOOD asserted at `now`, before the event (R103). -/
def Station.goodFound (t : Station) (now : Nat) : Station :=
  { t with bpu := { t.bpu with
      state := .on, ramp := none, retry := 0, ctl := .delay, delay := some (now + t.prof.resetDelayMs * 100000) } }

theorem State.putGood_eq (t : Station) : s.putGood n t =
    (let done := (s.putPower n (t.goodFound s.elapsed) .powerGood).putRampEnd n t.head
      if t.prof.resetDelayMs = 0 then done.putReleased n else done) := by
  have hnow := State.putPower_elapsed s n (t.goodFound s.elapsed) .powerGood
  unfold State.putGood State.putRampEnd
  dsimp only
  rw [hnow]
  rfl

theorem powerGood_eq (e : Env) (c : Ctx) : powerGood e c =
    (let done := endRampJob e (powerEvent e .powerGood false (c.mod fun t => t.goodFound e.now))
      if c.st.prof.resetDelayMs = 0 then endAssertion e done else done) := by
  have hfound : (c.modBpu fun b => { b with
      state := .on, ramp := none, retry := 0, ctl := .delay
      delay := some (e.now + c.st.prof.resetDelayMs * Config.ticksPerMs) }) = c.mod fun t => t.goodFound e.now := by
    unfold Ctx.modBpu Ctx.mod Station.goodFound Config.ticksPerMs
    rfl
  unfold powerGood
  dsimp only
  rw [hfound]

theorem State.withStation_powerGood : s.withStation n (fun e => powerGood e) = s.putGood n (s.station n) := by
  rw [State.putGood_eq]
  dsimp only
  have hgood : s.withStation n (fun e c => endRampJob e (powerEvent e .powerGood false (c.mod fun t => t.goodFound e.now)))
      = (s.putPower n ((s.station n).goodFound s.elapsed) .powerGood).putRampEnd n (s.station n).head := by
    refine (State.withStation_comp (f := fun e c => endRampJob e c) (Passes.endRampJob _)
      fun e c => powerEvent e .powerGood false (c.mod fun t => t.goodFound e.now)).trans ?_
    rw [State.withStation_eventAfter s n rfl fun e t => t.goodFound e.now, State.withStation_endRampJob]
    obtain ⟨v, hv, hhead, -⟩ := s.putPower_station n ((s.station n).goodFound s.elapsed) .powerGood
    exact congrArg _ ((congrArg Station.head hv).trans hhead)
  rw [← hgood]
  by_cases hz : (s.station n).prof.resetDelayMs = 0
  · rw [if_pos hz, ← State.withStation_endAssertion]
    refine (State.withStation_congr ((powerGood_eq _ _).trans (if_pos hz))).trans (State.withStation_comp (f := fun e => endAssertion e)
      (Passes.endAssertion _) fun e c => endRampJob e (powerEvent e .powerGood false (c.mod fun t => t.goodFound e.now)))
  · rw [if_neg hz]
    exact State.withStation_congr ((powerGood_eq _ _).trans (if_neg hz))

/-- RAMPING is entered in one change of the power unit. -/
theorem enterRamping_eq (e : Env) (c : Ctx) : enterRamping e c =
    (let ramping := powerEvent e .rampStart false (c.mod fun t => { t with bpu := t.bpu.ramped t.prof e.pin e.now })
      if e.pin.pwrGood then powerGood e ramping else ramping) := by
  have hstart : (if c.st.prof.inrushMs = 0 ∧ e.pin.overload = true then (c.modBpu fun b =>
      { b with state := .ramping, held := none, autoSettle := none, cooldown := none
               ramp := some (e.now + c.st.prof.rampMs * Config.ticksPerMs)
               inrush := if c.st.prof.inrushMs = 0 then none
                 else some (e.now + c.st.prof.inrushMs * Config.ticksPerMs) }).mod (startFilter e)
      else c.modBpu fun b =>
      { b with state := .ramping, held := none, autoSettle := none, cooldown := none
               ramp := some (e.now + c.st.prof.rampMs * Config.ticksPerMs)
               inrush := if c.st.prof.inrushMs = 0 then none
                 else some (e.now + c.st.prof.inrushMs * Config.ticksPerMs) })
      = c.mod fun t => { t with bpu := t.bpu.ramped t.prof e.pin e.now } := by
    unfold PowerUnit.ramped Ctx.modBpu Ctx.mod startFilter
    by_cases h : c.st.prof.inrushMs = 0 ∧ e.pin.overload = true
    · simp only [if_pos h] <;> rfl
    · simp only [if_neg h]
  dsimp only
  rw [← hstart]
  rfl

theorem State.withStation_enterRamping : s.withStation n (fun e => enterRamping e) = s.putRamp n (s.station n) := by
  unfold State.putRamp
  dsimp only
  have hramping := State.withStation_eventAfter s n (ev := .rampStart) rfl fun e t =>
    { t with bpu := t.bpu.ramped t.prof e.pin e.now }
  change _ = s.putPower n { s.station n with
    bpu := (s.station n).bpu.ramped (s.station n).prof (s.connector (s.connectorOf n)) s.elapsed } .rampStart at hramping
  rw [← hramping]
  by_cases hg : (s.connector (s.connectorOf n)).pwrGood = true
  · rw [if_pos hg, ← State.withStation_powerGood]
    refine Eq.trans (State.withStation_congr ?_) (State.withStation_comp (f := fun e => powerGood e) (Passes.powerGood _) _)
    rw [enterRamping_eq]
    exact if_pos hg
  · rw [if_neg hg]
    refine State.withStation_congr ?_
    rw [enterRamping_eq]
    exact if_neg hg

theorem State.putRamp_put (u t : Station) : (s.put n u s.attention).putRamp n t = s.putRamp n t := by
  unfold State.putRamp
  dsimp only
  rw [show (s.put n u s.attention).connectorOf n = s.connectorOf n from rfl,
    show (s.put n u s.attention).connector (s.connectorOf n) = s.connector (s.connectorOf n) from rfl,
    State.put_elapsed, State.putPower_put]

/-- RAMPING entered after a change of the station. -/
theorem State.withStation_rampAfter (g : Env → Station → Station) :
    s.withStation n (fun e c => enterRamping e (c.mod (g e))) = s.putRamp n (g (s.env n) (s.station n)) := by
  rw [State.withStation_after s n (fun e => Passes.enterRamping e) g, State.withStation_enterRamping, State.put_station,
    State.putRamp_put]

/-! ## Auto settle (R102) -/

theorem State.withStation_settleDecides : s.withStation n (fun e => settleDecides e) = s.putDecided n (s.station n) := by
  unfold State.putDecided
  by_cases h : (s.station n).prof.classMask.getLsbD (s.station n).bpu.cls.toNat = true ∧ (s.station n).bpu.latched = .none
  · rw [if_pos h, ← State.withStation_enterRamping]
    exact State.withStation_congr (if_pos h)
  · rw [if_neg h]
    exact State.withStation_quiet (if_neg h)

theorem State.putDecided_put (u t : Station) : (s.put n u s.attention).putDecided n t = s.putDecided n t := by
  unfold State.putDecided
  rw [State.putRamp_put, State.put_attention, State.put_put]

theorem State.withStation_startSettle : s.withStation n (fun e => startSettle e) = s.putSettle n (s.station n) := by
  unfold State.putSettle
  by_cases h : (s.station n).prof.autoSettleMs = 0
  · rw [if_pos h, ← State.withStation_settleDecides]
    exact State.withStation_congr (if_pos h)
  · rw [if_neg h]
    exact State.withStation_quiet (if_neg h)

theorem State.putSettle_put (u t : Station) : (s.put n u s.attention).putSettle n t = s.putSettle n t := by
  unfold State.putSettle
  rw [State.putDecided_put, State.put_attention, State.put_elapsed, State.put_put]

/-! ## Switching off and mode changes (R107) -/

theorem PowerUnit.heldAfter_eq (b : PowerUnit) :
    b.heldAfter = if b.state = .on ∧ b.ctl = .released then none else b.held := by
  unfold PowerUnit.heldAfter PowerUnit.released
  simp

/-- Station n, having become `u`, is switched off, CU being told where it left ON. -/
def State.putOff (s : State) (n : StationNo) (u : Station) : State :=
  let off := s.putPower n { u with bpu := u.bpu.off } .off
  if u.bpu.state = .on then off.putLeft n .none else off

theorem State.putOff_put (u t : Station) : (s.put n u s.attention).putOff n t = s.putOff n t := by
  unfold State.putOff
  rw [State.putPower_put]

theorem State.withStation_switchOff : s.withStation n (fun e => switchOff e) = s.putOff n (s.station n) := by
  have hoff : { (s.station n).bpu.stopPowered with
      state := .seated, cooldown := none, held := (s.station n).bpu.heldAfter } = (s.station n).bpu.off := by
    rw [PowerUnit.heldAfter_eq]
    rfl
  refine (State.withStation_congr (g := fun e c => powerEvent e .off ((s.station n).bpu.state == .on)
    (c.mod fun t => { t with bpu := (s.station n).bpu.off })) (by rw [← hoff]; rfl)).trans ?_
  rw [State.withStation_after s n (fun e => Passes.powerEvent e _ _) fun _ t => { t with bpu := (s.station n).bpu.off },
    State.withStation_powerEvent, State.put_station, State.putPower_put]
  unfold State.putOff
  by_cases h : (s.station n).bpu.state = .on
  · simp [h, PowerEv.faultOf]
  · simp [h, PowerEv.faultOf]

/-- What a change of mode away from a mode with timers does to a station that is not powered, having become
`u`. -/
def State.putStops (s : State) (n : StationNo) (u : Station) : State :=
  match u.bpu.state with
  | .cooldown => s.putOff n u
  | .seated => s.put n { u with bpu := { u.bpu with autoSettle := none } } s.attention
  | .inactive | .absent | .ramping | .on => s.put n u s.attention

theorem State.withStation_modeStops : s.withStation n (fun e => modeStops e) = s.putStops n (s.station n) := by
  have hdoes : ∀ e x, (s.station n).bpu.state = x → modeStops e ⟨s.station n, s.attention, []⟩ = match x with
      | .cooldown => switchOff e ⟨s.station n, s.attention, []⟩
      | .seated => Ctx.modBpu ⟨s.station n, s.attention, []⟩ fun b => { b with autoSettle := none }
      | .inactive | .absent | .ramping | .on => ⟨s.station n, s.attention, []⟩ := by
    rintro e x rfl
    rfl
  unfold State.putStops
  cases hs : (s.station n).bpu.state with
  | cooldown =>
    rw [← State.withStation_switchOff]
    exact State.withStation_congr (hdoes _ _ hs)
  | seated => exact State.withStation_quiet (f := fun e => modeStops e) (hdoes _ _ hs)
  | _ => exact (State.withStation_same (f := fun e => modeStops e) (hdoes _ _ hs)).trans (s.put_self n).symm

theorem State.putStops_put (u t : Station) : (s.put n u s.attention).putStops n t = s.putStops n t := by
  unfold State.putStops
  cases t.bpu.state <;> simp only [State.putOff_put, State.put_put, State.put_attention]

theorem State.withStation_changeMode (old new : PowerMode) :
    s.withStation n (fun e => changeMode e old new) = s.putMode n (s.station n) old new := by
  generalize ht : s.station n = t
  have hreset := fun (f : Env → Ctx → Ctx) (hf : ∀ e, Passes (f e)) => State.withStation_after s n hf fun _ t =>
    { t with bpu := { t.bpu with latched := .none, retry := 0 } }
  rw [ht] at hreset
  have hstops : s.withStation n (fun e c => modeStops e (c.mod fun t =>
      { t with bpu := { t.bpu with latched := .none, retry := 0 } }))
      = s.putStops n { t with bpu := { t.bpu with latched := .none, retry := 0 } } := by
    rw [hreset _ fun e => Passes.modeStops e, State.withStation_modeStops, State.put_station, State.putStops_put]
  have hpure : ∀ f : Env → Ctx → Ctx, f (s.env n) ⟨s.station n, s.attention, []⟩
        = ⟨{ t with bpu := { t.bpu with latched := .none, retry := 0 } }, s.attention, []⟩ →
      s.withStation n f = s.put n { t with bpu := { t.bpu with latched := .none, retry := 0 } } s.attention :=
    fun f hf => State.withStation_quiet hf
  cases new with
  | off =>
    by_cases hp : t.bpu.state = .ramping ∨ t.bpu.state = .on
    · have hen : (s.station n).bpu.pwrEn = true := by
        rw [ht]
        unfold PowerUnit.pwrEn
        obtain h | h := hp <;> rw [h]
      have hdoes : s.withStation n (fun e => changeMode e old .off)
          = s.putOff n { t with bpu := { t.bpu with latched := .none, retry := 0 } } := by
        refine Eq.trans (State.withStation_congr (g := fun e c => switchOff e (c.mod fun t =>
          { t with bpu := { t.bpu with latched := .none, retry := 0 } })) ?_) ?_
        · cases old <;> exact if_pos hen
        · rw [hreset _ fun e => Passes.switchOff e, State.withStation_switchOff, State.put_station, State.putOff_put]
      rw [hdoes]
      unfold State.putMode
      exact (if_pos (.inl ⟨rfl, hp⟩)).symm
    · have hen : ¬ (s.station n).bpu.pwrEn = true := by
        rw [ht]
        unfold PowerUnit.pwrEn
        cases h : t.bpu.state <;> simp_all
      have hdoes : s.withStation n (fun e => changeMode e old .off)
          = s.putStops n { t with bpu := { t.bpu with latched := .none, retry := 0 } } := by
        rw [← hstops]
        refine State.withStation_congr ?_
        cases old <;> exact if_neg hen
      rw [hdoes]
      unfold State.putMode State.putStops
      cases hst : t.bpu.state <;> simp_all [State.putOff]
  | manual =>
    cases old with
    | auto =>
      refine hstops.trans ?_
      unfold State.putMode State.putStops
      cases hst : t.bpu.state <;> simp [hst, State.putOff]
    | off => exact (hpure _ (by rw [ht]; rfl)).trans (by simp [State.putMode])
    | manual => exact (hpure _ (by rw [ht]; rfl)).trans (by simp [State.putMode])
  | auto =>
    have hmode : s.putMode n t old .auto = if t.bpu.state = .seated
        then s.putSettle n { t with bpu := { t.bpu with latched := .none, retry := 0 } }
        else s.put n { t with bpu := { t.bpu with latched := .none, retry := 0 } } s.attention := by
      unfold State.putMode
      simp
    rw [hmode]
    by_cases hseat : t.bpu.state = .seated
    · rw [if_pos hseat]
      have hdoes : s.withStation n (fun e => changeMode e old .auto) = s.withStation n fun e c => startSettle e (c.mod fun t =>
          { t with bpu := { t.bpu with latched := .none, retry := 0 } }) := by
        refine State.withStation_congr ?_
        rw [ht]
        cases old <;> exact if_pos hseat
      rw [hdoes, hreset _ fun e => Passes.startSettle e, State.withStation_startSettle, State.put_station,
        State.putSettle_put]
    · rw [if_neg hseat]
      refine hpure _ ?_
      rw [ht]
      cases old <;> exact if_neg hseat

theorem State.putMode_put (u t : Station) (old new : PowerMode) :
    (s.put n u s.attention).putMode n t old new = s.putMode n t old new := by
  unfold State.putMode
  dsimp only
  rw [State.putPower_put, State.putSettle_put]
  simp only [State.put_put, State.put_attention]

end

end Sys2Proof.Machine
end

section
/-! What power work leaves of its station, and the power and reset jobs (R111 to R113). -/

namespace Sys2Proof.Machine

/-! ## A firing that cannot start a pulse keeps the power unit -/

theorem whenAct_keeps {α : Type} (π : Station → α) {f : Ctx → Ctx} (hf : ∀ c, π (f c).st = π c.st) (acts : BitVec 8)
    (i : Nat) (c : Ctx) : π (whenAct acts i f c).st = π c.st := by
  unfold whenAct
  split_ifs
  · exact hf c
  · rfl

theorem capOut_bpu (c : Ctx) (o : CapOut) : (c.capOut o).st.bpu = c.st.bpu := by
  rw [Ctx.capOut_eq]
  exact Station.take_bpu ..

theorem haltBoard_bpu (e : Env) (c : Ctx) : (haltBoard e c).st.bpu = c.st.bpu := by
  unfold haltBoard
  split <;> rfl

theorem enterTarget_bpu (e : Env) (p : Program) (tgt : Target) (t : Station) : (enterTarget e p tgt t).bpu = t.bpu := by
  unfold enterTarget
  split <;> rfl

theorem fire_bpu {c : Ctx} (h : c.st.canPulse = false) (e : Env) (p : Program) (i : Fin 4) (st : Step) (cause : Cause) :
    (fire e p i st cause c).1.st.bpu = c.st.bpu ∧ (fire e p i st cause c).2 = false := by
  refine ⟨?_, ?_⟩
  · unfold fire
    dsimp only [Ctx.mod_st]
    rw [h]
    refine (enterTarget_bpu ..).trans <|
      (whenAct_keeps Station.bpu ?_ ..).trans <| (whenAct_keeps Station.bpu ?_ ..).trans <|
      (whenAct_keeps Station.bpu ?_ ..).trans <| (whenAct_keeps Station.bpu ?_ ..).trans <|
      (whenAct_keeps Station.bpu ?_ ..).trans <| (whenAct_keeps Station.bpu ?_ ..).trans <|
      (whenAct_keeps Station.bpu ?_ ..).trans <| whenAct_keeps Station.bpu ?_ ..
    · exact fun _ => rfl
    · exact fun _ => rfl
    · exact fun _ => rfl
    · exact haltBoard_bpu e
    · exact fun _ => capOut_bpu ..
    · exact fun _ => capOut_bpu ..
    · exact fun _ => capOut_bpu ..
    · exact fun _ => capOut_bpu ..
  · unfold fire
    dsimp only
    rw [h, Bool.and_false]

theorem takeReport_bpu {c : Ctx} (h : c.st.canPulse = false) (e : Env) (x : Cond) :
    (takeReport e x c).1.st.bpu = c.st.bpu ∧ (takeReport e x c).2 = false := by
  unfold takeReport
  split
  · split_ifs
    · exact fire_bpu h ..
    · exact ⟨rfl, rfl⟩
    · exact ⟨rfl, rfl⟩
  · exact ⟨rfl, rfl⟩

theorem report_bpu {c : Ctx} (h : c.st.canPulse = false) (e : Env) (x : Cond) : (report e x c).st.bpu = c.st.bpu := by
  unfold report followUp
  rw [(takeReport_bpu h e x).2]
  exact (takeReport_bpu h e x).1

section
variable (s : State) (n : StationNo)

theorem State.putPower_bpu {u : Station} (h : u.canPulse = false) (ev : PowerEv) :
    ((s.putPower n u ev).station n).bpu = u.bpu := by
  have hoffered : ((s.putOffer n u s.attention (s.powerRec ev u.bpu)).station n).bpu = u.bpu := by
    unfold State.putOffer
    rw [State.put_station, Station.take_bpu]
  unfold State.putPower State.reportAt State.putReport
  rw [State.withStation_station, report_bpu]
  · exact hoffered
  · unfold Station.canPulse at h ⊢
    rw [hoffered]
    exact h

/-! ## Power work keeps the queue and a head it does not end -/

/-- The head of station n is `h` and its queue `qs`. -/
def State.heads (s : State) (n : StationNo) (h : Head) (qs : List QJob) : Prop :=
  (s.station n).head = h ∧ (s.station n).queue = qs

/-- No power work ends a job with this head: it is no POWER ON, RESET PULSE or CONSOLE SEND under way. -/
def Head.apart : Head → Bool
  | .ramp _ | .pulse _ _ | .consoleSend _ _ => false
  | _ => true

variable {s n} {h : Head} {qs : List QJob}

theorem State.heads_put {u : Station} (hh : u.head = h) (hq : u.queue = qs) (a : BitVec 11) : (s.put n u a).heads n h qs := by
  unfold State.heads
  rw [State.put_station]
  exact ⟨hh, hq⟩

theorem State.heads_putPower {u : Station} (hh : u.head = h) (hq : u.queue = qs) (ev : PowerEv) :
    (s.putPower n u ev).heads n h qs := by
  obtain ⟨v, hv, hhead, hqueue, -⟩ := s.putPower_station n u ev
  unfold State.heads
  rw [hv]
  exact ⟨hhead.trans hh, hqueue.trans hq⟩

theorem State.heads_putCut (hw : s.heads n h qs) : (s.putCut n).heads n h qs :=
  ⟨(s.putCut_head n).trans hw.1, (s.putCut_queue n).trans hw.2⟩

theorem State.putSent_apart (ha : h.apart = true) (k : FaultKind) : s.putSent n k h = s := by
  unfold State.putSent
  cases h <;> first | rfl | cases ha

theorem State.heads_putLeft (ha : h.apart = true) (hw : s.heads n h qs) (k : FaultKind) : (s.putLeft n k).heads n h qs := by
  rw [State.putLeft_eq, hw.1, State.putSent_apart ha]
  exact State.heads_putCut hw

theorem State.heads_putReleased (hw : s.heads n h qs) : (s.putReleased n).heads n h qs := by
  unfold State.putReleased
  dsimp only
  split_ifs
  · exact State.heads_put (by exact hw.1) (by exact hw.2) _
  · exact State.heads_putPower (by exact hw.1) (by exact hw.2) _

theorem State.putRampEnd_apart (ha : h.apart = true) : s.putRampEnd n h = s := by
  unfold State.putRampEnd
  cases h <;> first | rfl | cases ha

theorem State.heads_putGood {t : Station} (ha : h.apart = true) (hh : t.head = h) (hq : t.queue = qs) :
    (s.putGood n t).heads n h qs := by
  rw [State.putGood_eq]
  dsimp only
  rw [hh, State.putRampEnd_apart ha]
  have hgood : (s.putPower n (t.goodFound s.elapsed) .powerGood).heads n h qs := State.heads_putPower (by exact hh) (by exact hq) _
  split_ifs
  · exact State.heads_putReleased hgood
  · exact hgood

theorem State.heads_putRamp {t : Station} (ha : h.apart = true) (hh : t.head = h) (hq : t.queue = qs) :
    (s.putRamp n t).heads n h qs := by
  have hramping : (s.putPower n { t with bpu := t.bpu.ramped t.prof (s.connector (s.connectorOf n)) s.elapsed }
      .rampStart).heads n h qs := State.heads_putPower (by exact hh) (by exact hq) _
  unfold State.putRamp
  dsimp only
  split_ifs
  · exact State.heads_putGood ha hramping.1 hramping.2
  · exact hramping

theorem State.heads_putSettle {t : Station} (ha : h.apart = true) (hh : t.head = h) (hq : t.queue = qs) :
    (s.putSettle n t).heads n h qs := by
  unfold State.putSettle State.putDecided
  split_ifs
  · exact State.heads_putRamp ha (by exact hh) (by exact hq)
  · exact State.heads_put (by exact hh) (by exact hq) _
  · exact State.heads_put (by exact hh) (by exact hq) _

theorem State.heads_putOff {t : Station} (ha : h.apart = true) (hh : t.head = h) (hq : t.queue = qs) :
    (s.putOff n t).heads n h qs := by
  have hoff : (s.putPower n { t with bpu := t.bpu.off } .off).heads n h qs := State.heads_putPower (by exact hh) (by exact hq) _
  unfold State.putOff
  dsimp only
  split_ifs
  · exact State.heads_putLeft ha hoff _
  · exact hoff

theorem State.heads_putMode {t : Station} (ha : h.apart = true) (hh : t.head = h) (hq : t.queue = qs) (old new : PowerMode) :
    (s.putMode n t old new).heads n h qs := by
  have hoff : (s.putOff n { t with bpu := { t.bpu with latched := .none, retry := 0 } }).heads n h qs :=
    State.heads_putOff ha (by exact hh) (by exact hq)
  unfold State.putMode
  dsimp only
  split_ifs with h1 h2
  · exact (show State.heads _ n h qs from (by unfold State.putOff at hoff; rwa [if_pos h2] at hoff))
  · exact (show State.heads _ n h qs from (by unfold State.putOff at hoff; rwa [if_neg h2] at hoff))
  · exact State.heads_put (by exact hh) (by exact hq) _
  · exact State.heads_putSettle ha (by exact hh) (by exact hq)
  · exact State.heads_put (by exact hh) (by exact hq) _

/-- The head job of a state whose queue is known. -/
theorem State.heads.endFirst {q : QJob} (hw : s.heads n h (q :: qs)) (r : Res) : s.endFirst n r = s.endAt n q.jid r :=
  State.endFirst_cons s n r q qs hw.2

theorem State.put_endAt (u : Station) (a : BitVec 11) (j : Nat) (r : Res) :
    (s.put n u a).endAt n j r = s.putEnd n u a j r := by
  unfold State.endAt State.putEnd
  rw [State.put_station, State.put_put]
  rfl

end

end Sys2Proof.Machine
end

section
/-! The power jobs: POWER ON, POWER OFF, SET MODE and the reset jobs (R111 to R113). -/

namespace Sys2Proof.Machine

section
variable {s : State} {n : StationNo} {q : QJob}

/-- The end of a job at the head after power work that keeps the head. -/
theorem State.withStation_endAt {j : Job} (h : (s.station n).atHead q j) {f : Env → Ctx → Ctx} {w : State}
    (hf : s.withStation n f = w) (hw : ∀ qs, (s.station n).queue = qs → w.heads n .waiting qs) (r : Res) :
    s.withStation n (fun e c => endHead r (f e c)) = w.endAt n q.jid r := by
  obtain ⟨-, -, -, qs, hq⟩ := h
  rw [State.withStation_thenEnd, hf]
  exact (hw _ hq).endFirst r

/-- Switching off with no console line open, or from RAMPING, tells CU nothing. -/
theorem State.putOff_idle {t : Station} (hw : t.head = .waiting) (hl : t.bpu.state ≠ .on ∨ t.cu.line = []) :
    s.putOff n t = s.putPower n { t with bpu := t.bpu.off } .off := by
  obtain ⟨v, hv, hhead, -, -, hcu, -⟩ := s.putPower_station n { t with bpu := t.bpu.off } .off
  unfold State.putOff
  dsimp only
  split_ifs with hon
  · refine State.putLeft_idle _ n _ ?_ ?_
    · rw [hv, hcu]
      exact hl.resolve_left (not_not_intro hon)
    · rw [hv]
      exact hhead.trans hw
  · rfl

end

section
variable (s : State) (n : StationNo)

/-- With no job of CU under way the line that is open is cut, and no more. -/
theorem State.putLeft_waiting {k : FaultKind} (hw : (s.station n).head = .waiting) : s.putLeft n k = s.putCut n := by
  rw [State.putLeft_eq, hw, State.putSent_apart rfl]

/-- A line cut changes CU's line, CAP, the seal mark and the attention bits alone. -/
theorem State.putCut_put (u : Station) (a : BitVec 11) : ∃ v b, (s.put n u a).putCut n = s.put n v b
    ∧ v.cu.line = [] ∧ v.bpu = u.bpu ∧ v.queue = u.queue ∧ v.state = u.state ∧ v.lp = u.lp ∧ v.au = u.au
    ∧ v.ts = u.ts ∧ v.profile = u.profile ∧ v.pageQ = u.pageQ := by
  unfold State.putCut
  dsimp only
  rw [State.put_station]
  split_ifs with hl
  · exact ⟨u, a, rfl, hl, rfl, rfl, rfl, rfl, rfl, rfl, rfl, rfl⟩
  · unfold State.putOffer
    rw [State.put_put, State.put_put, State.put_station]
    exact ⟨_, _, rfl, rfl, by simp, by simp, by simp, by simp, by simp, by simp, by simp, by simp⟩

end

/-! ## POWER ON (R111) -/

section
variable {s : State} {n : StationNo} {q : QJob}

/-- POWER ON of a seated station in a mode other than OFF enters RAMPING. -/
theorem exec_powerOn_seated (h : (s.station n).atHead q .powerOn)
    (hok : (s.station n).bpu.state = .seated ∧ (s.station n).prof.powerMode ≠ .off) :
    exec (.powerOn n) s = .next (s.putRamp n { s.station n with
      head := .ramp s.elapsed, bpu := { (s.station n).bpu with latched := .none, retry := 0 } }) := by
  refine (exec_powerOn_head h.waitingJob).trans (congrArg Host.Outcome.next ?_)
  rw [State.gated_executed (h.executes nofun nofun) fun e => powerOnJob e]
  refine Eq.trans (State.withStation_congr ?_) (State.withStation_rampAfter s n fun e t => { t with
    head := .ramp e.now, bpu := { t.bpu with latched := .none, retry := 0, autoSettle := none } })
  exact if_pos hok

/-- RAMPING entered with PWR_GOOD asserted and a reset delay, a POWER ON at the head (R101, R103, R111). -/
theorem State.putRamp_good {t : Station} {qs : List QJob} {started : Nat} (hq : t.queue = q :: qs) (hh : t.head = .ramp started)
    (hg : (s.connector (s.connectorOf n)).pwrGood = true) (hd : t.prof.resetDelayMs ≠ 0) :
    s.putRamp n t =
      (let b := t.bpu.ramped t.prof (s.connector (s.connectorOf n)) s.elapsed
      let ramping := s.putPower n { t with bpu := b } .rampStart
      let good := ramping.putPower n { ramping.station n with bpu := { b with
        state := .on, ramp := none, retry := 0, ctl := .delay
        delay := some (s.elapsed + t.prof.resetDelayMs * 100000) } } .powerGood
      good.endAt n q.jid (Res.okv ((s.elapsed - started) / 100000))) := by
  unfold State.putRamp
  dsimp only
  rw [if_pos hg]
  generalize hb : t.bpu.ramped t.prof (s.connector (s.connectorOf n)) s.elapsed = b
  have hnot : Station.canPulse { t with bpu := b } = false := by
    rw [← hb]
    rfl
  have hbpu := s.putPower_bpu n hnot .rampStart
  obtain ⟨v, hv, hhead, hqueue, hprof, -⟩ := s.putPower_station n { t with bpu := b } .rampStart
  have hnow := s.putPower_elapsed n { t with bpu := b } .rampStart
  rw [hv] at hbpu
  rw [hv]
  generalize s.putPower n { t with bpu := b } .rampStart = w at *
  have hvprof : v.prof = t.prof := congrArg (Option.getD · Profile.default) hprof
  have hfound : v.goodFound w.elapsed = { v with bpu := { b with
      state := .on, ramp := none, retry := 0, ctl := .delay
      delay := some (s.elapsed + t.prof.resetDelayMs * 100000) } } := by
    unfold Station.goodFound
    rw [hbpu, hvprof, hnow]
  rw [State.putGood_eq]
  dsimp only
  have hend : ∀ x : State, x.putRampEnd n v.head = x.endFirst n (Res.okv ((x.elapsed - started) / 100000)) := fun x => by
    rw [hhead.trans hh]
    rfl
  rw [if_neg (by rw [hvprof]; exact hd), hfound, hend]
  obtain ⟨v', hv', hhead', hqueue', -⟩ := w.putPower_station n { v with bpu := { b with
      state := .on, ramp := none, retry := 0, ctl := .delay
      delay := some (s.elapsed + t.prof.resetDelayMs * 100000) } } .powerGood
  refine (State.endFirst_cons _ n _ q qs ?_).trans ?_
  · rw [hv', hqueue', hqueue]
    exact hq
  · rw [State.putPower_elapsed, hnow]

/-! ## POWER OFF and SET MODE (R112) -/

theorem PowerUnit.pwrEn_iff (b : PowerUnit) : b.pwrEn = true ↔ b.state = .ramping ∨ b.state = .on := by
  unfold PowerUnit.pwrEn
  cases b.state <;> decide

theorem exec_powerOff_powered (h : (s.station n).atHead q .powerOff)
    (hp : (s.station n).bpu.state = .ramping ∨ (s.station n).bpu.state = .on) :
    exec (.powerOff n) s = .next ((s.putOff n (s.station n)).endAt n q.jid (Res.okv 1)) := by
  refine (exec_powerOff_head h.waitingJob).trans (congrArg Host.Outcome.next ?_)
  rw [State.gated_executed (h.executes nofun nofun) fun e => powerOffJob e]
  refine Eq.trans (State.withStation_congr ?_) (State.withStation_endAt h (State.withStation_switchOff s n)
    (fun qs hq => State.heads_putOff rfl (by exact h.2.1) (by exact hq)) _)
  exact if_pos ((PowerUnit.pwrEn_iff _).mpr hp)

/-- SET MODE with another mode than the one in force. -/
theorem exec_setMode_changed {m : PowerMode} {p : Profile} (h : (s.station n).atHead q (.setMode m))
    (hp : (s.station n).profile = some p) (hm : p.powerMode ≠ m) :
    exec (.setMode n) s = .next ((s.putMode n { s.station n with profile := some { p with powerMode := m } } p.powerMode m).endAt
      n q.jid (Res.okv 1)) := by
  have hprof : (s.station n).prof = p := by
    unfold Station.prof
    rw [hp]
    rfl
  have hset : (s.station n).setMode m = { s.station n with profile := some { p with powerMode := m } } := by
    unfold Station.setMode
    rw [hp]
    rfl
  refine (exec_setMode_head h.waitingJob).trans (congrArg Host.Outcome.next ?_)
  rw [State.gated_executed (h.executes nofun nofun) fun e => setModeJob e m]
  have hdoes : s.withStation n (fun e c => changeMode e p.powerMode m (c.mod (·.setMode m)))
      = s.putMode n { s.station n with profile := some { p with powerMode := m } } p.powerMode m := by
    rw [State.withStation_after s n (fun e => Passes.changeMode e _ _) fun _ t => t.setMode m,
      State.withStation_changeMode, State.put_station, State.putMode_put, hset]
  refine Eq.trans (State.withStation_congr ?_) (State.withStation_endAt h hdoes
    (fun qs hq => State.heads_putMode rfl (by exact h.2.1) (by exact hq) _ _) _)
  unfold setModeJob
  dsimp only
  rw [hprof, if_neg hm]

/-- A mode change that switches off. -/
theorem State.putMode_off (t : Station) {old new : PowerMode}
    (h : (new = .off ∧ (t.bpu.state = .ramping ∨ t.bpu.state = .on))
      ∨ (new ≠ .auto ∧ (old = .auto ∨ new = .off) ∧ t.bpu.state = .cooldown)) :
    s.putMode n t old new = s.putOff n { t with bpu := { t.bpu with latched := .none, retry := 0 } } := by
  unfold State.putMode
  refine if_pos (h.imp id ?_)
  rintro ⟨hn, ho, hc⟩
  refine ⟨?_, hc⟩
  cases old <;> cases new <;> simp_all

/-- A mode change that stops the auto settle timer. -/
theorem State.putMode_stop (t : Station) {old new : PowerMode} (hn : new ≠ .auto) (ho : old = .auto ∨ new = .off)
    (hs : t.bpu.state = .seated) : s.putMode n t old new
      = s.put n { t with bpu := { t.bpu with latched := .none, retry := 0, autoSettle := none } } s.attention := by
  unfold State.putMode
  simp only [hs]
  cases old <;> cases new <;> simp_all

/-- A mode change to AUTO of a seated station. -/
theorem State.putMode_auto (t : Station) {old : PowerMode} (hs : t.bpu.state = .seated) :
    s.putMode n t old .auto = s.putSettle n { t with bpu := { t.bpu with latched := .none, retry := 0 } } := by
  unfold State.putMode
  simp [hs]

/-- Any other mode change. -/
theorem State.putMode_rest (t : Station) {old new : PowerMode}
    (h : t.bpu.state = .absent ∨ t.bpu.state = .inactive
      ∨ (new = .manual ∧ (t.bpu.state = .ramping ∨ t.bpu.state = .on))
      ∨ (new = .auto ∧ t.bpu.state ≠ .seated) ∨ (old ≠ .auto ∧ new = .manual)) :
    s.putMode n t old new = s.put n { t with bpu := { t.bpu with latched := .none, retry := 0 } } s.attention := by
  unfold State.putMode
  cases hst : t.bpu.state <;> cases old <;> cases new <;> simp_all

end

end Sys2Proof.Machine
end

section
/-! The statements about the power and reset jobs. -/

namespace Sys2Proof.Machine

/-- A job at the head that ends at once with a change of the station alone. -/
theorem State.withStation_endPut {s : State} {n : StationNo} {q : QJob} {j : Job} (h : (s.station n).atHead q j)
    {f : Env → Ctx → Ctx} {u : Station} {r : Res} (hu : u.queue = (s.station n).queue)
    (hf : f (s.env n) ⟨s.station n, s.attention, []⟩ = endHead r ⟨u, s.attention, []⟩) :
    s.withStation n f = s.putEnd n u s.attention q.jid r := by
  obtain ⟨-, -, -, qs, hq⟩ := h
  refine (State.withStation_ends (hf.trans (endHead_cons (c := ⟨u, s.attention, []⟩) r (hu.trans hq)))).trans ?_
  unfold State.putEnd
  rw [hu, hq]
  rfl

/-- Work at a station just put is work that begins with that station. -/
theorem State.put_withStation (s : State) (n : StationNo) (u : Station) (a : BitVec 11) (f : Env → Ctx → Ctx) :
    (s.put n u a).withStation n f = s.withStation n fun e _ => f e ⟨u, a, []⟩ := by
  rw [State.withStation_eq, State.withStation_eq, State.put_station, State.put_put, State.put_attention]
  rfl

/-- Settles O37: POWER ON, POWER OFF and SET MODE in each power state. -/
theorem powerJobsSwitchPower : Obligations.PowerJobsSwitchPower := by
  unfold Obligations.PowerJobsSwitchPower
  refine ⟨fun s n q h => ?_, fun s n q h => ?_, fun s n q m p h hp => ?_⟩
  · intro t pin ok
    refine ⟨fun hno => ?_, fun hok hlow => ?_, fun hok => exec_powerOn_seated h hok, fun hok hg hd => ?_⟩
    · refine (exec_powerOn_head h.waitingJob).trans (congrArg Host.Outcome.next ?_)
      rw [State.gated_executed (h.executes nofun nofun) fun e => powerOnJob e]
      refine State.withStation_endPut h (u := t) rfl ?_
      exact if_neg hno
    · exact (exec_powerOn_seated h hok).trans (congrArg Host.Outcome.next (State.putRamp_low s n _ hlow))
    · obtain ⟨-, -, -, qs, hq⟩ := id h
      refine (exec_powerOn_seated h hok).trans (congrArg Host.Outcome.next ?_)
      refine (State.putRamp_good (q := q) (qs := qs) (started := s.elapsed) (t := { t with
        head := .ramp s.elapsed, bpu := { t.bpu with latched := .none, retry := 0 } }) hq rfl hg hd).trans ?_
      have hzero : (s.elapsed - s.elapsed) / 100000 = 0 := by rw [Nat.sub_self, Nat.zero_div]
      exact congrArg (State.endAt _ n q.jid) (congrArg Res.okv hzero)
  · intro t b
    have hw : t.head = .waiting := h.2.1
    refine ⟨fun hr ho => ?_, fun hp => ?_, fun ho => ?_, fun hun ho => ?_⟩
    · refine (exec_powerOff_head h.waitingJob).trans (congrArg Host.Outcome.next ?_)
      rw [State.gated_executed (h.executes nofun nofun) fun e => powerOffJob e]
      refine State.withStation_endPut h (u := t) rfl ?_
      exact if_neg fun hen => ((PowerUnit.pwrEn_iff _).mp hen).elim hr ho
    · refine (exec_powerOff_powered h (hp.imp id And.left)).trans (congrArg (fun w : State => Host.Outcome.next (w.endAt n q.jid (Res.okv 1))) ?_)
      refine State.putOff_idle hw ?_
      obtain hr | ⟨-, hl⟩ := hp
      · left
        rw [hr]
        decide
      · exact .inr hl
    · refine (exec_powerOff_powered h (.inr ho)).trans (congrArg (fun w : State => Host.Outcome.next (w.endAt n q.jid (Res.okv 1))) ?_)
      exact if_pos ho
    · have hun' : ({ t with bpu := b } : Station).unarmed := hun
      obtain ⟨v, a, hcut, hline, hbpu, hqueue, hstate, hlp, hau, hts, hprof, hpage⟩ := s.putCut_put n
        (({ t with bpu := b } : Station).take (({ t with bpu := b } : Station).offer s.tb (s.powerRec .off b)))
        (s.attention ||| (({ t with bpu := b } : Station).offer s.tb (s.powerRec .off b)).bits)
      have hoff : s.putOff n t = s.put n v a := by
        have hleft : s.putOff n t = (s.putPower n { t with bpu := b } .off).putLeft n .none := if_pos ho
        have hwait : ((s.putPower n { t with bpu := b } .off).station n).head = .waiting :=
          (State.heads_putPower (qs := t.queue) (by exact hw) (by rfl) _).1
        rw [hleft, State.putLeft_waiting _ _ hwait, State.putPower_unarmed hun']
        exact hcut
      refine ⟨v, a, ?_, ?_⟩
      · refine (exec_powerOff_powered h (.inr ho)).trans (congrArg Host.Outcome.next ?_)
        rw [hoff, State.put_endAt]
      · rw [hbpu, hqueue, hstate, hlp, hau, hts, hprof, hpage]
        simp [hline]
  · intro t t' b off
    have hw : t.head = .waiting := h.2.1
    have hchanged : p.powerMode ≠ m → ∀ w, s.putMode n t' p.powerMode m = w →
        exec (.setMode n) s = .next (w.endAt n q.jid (Res.okv 1)) := fun hm w hmode =>
      (exec_setMode_changed h hp hm).trans (congrArg (fun w : State => Host.Outcome.next (w.endAt n q.jid (Res.okv 1))) hmode)
    have hput : p.powerMode ≠ m → ∀ u, s.putMode n t' p.powerMode m = s.put n u s.attention →
        exec (.setMode n) s = .next (s.putEnd n u s.attention q.jid (Res.okv 1)) := fun hm u hmode =>
      (hchanged hm _ hmode).trans (congrArg Host.Outcome.next (State.put_endAt ..))
    refine ⟨fun hm => ?_, fun hm hoff => hchanged hm _ ?_, fun hm hm' hon => hchanged hm _ ?_, fun hm hm' ho hs => hput hm _ ?_,
      fun hm hm' hs => hput hm _ ?_, fun ho hm hs hd => hput (hm ▸ ho) _ ?_, fun ho hm hs hd => ?_,
      fun ho hm hs => hput (hm ▸ ho) _ ?_, fun ho hm => hput (by rw [ho, hm]; decide) _ ?_⟩
    · refine (exec_setMode_head h.waitingJob).trans (congrArg Host.Outcome.next ?_)
      rw [State.gated_executed (h.executes nofun nofun) fun e => setModeJob e m]
      refine State.withStation_endPut h (u := t) rfl ?_
      have hprof : t.prof = p := by
        unfold Station.prof
        rw [show t.profile = some p from hp]
        rfl
      exact if_pos ((congrArg Profile.powerMode hprof).trans hm)
    · rw [State.putMode_off (t := t') (hoff.imp (fun h => ⟨h.1, h.2.imp id And.left⟩) id)]
      refine State.putOff_idle (t := { t' with bpu := b }) hw ?_
      obtain ⟨-, hr | ⟨-, hl⟩⟩ | ⟨-, -, hc⟩ := hoff
      · left
        show t.bpu.state ≠ .on
        rw [hr]
        decide
      · exact .inr hl
      · left
        show t.bpu.state ≠ .on
        rw [hc]
        decide
    · rw [State.putMode_off (t := t') (.inl ⟨hm', .inr hon⟩)]
      exact if_pos hon
    · exact State.putMode_stop t' hm' ho hs
    · refine State.putMode_rest t' ?_
      obtain ha | hi | hx := hs
      · exact .inl ha
      · exact .inr (.inl hi)
      · exact .inr (.inr (.inl hx))
    · subst hm
      refine (State.putMode_auto t' hs).trans ?_
      exact if_neg hd
    · subst hm
      intro allowed
      have hsettle : ∀ w, s.putDecided n { t' with bpu := b } = w →
          s.putMode n t' p.powerMode .auto = w := fun w hw => by
        rw [State.putMode_auto t' hs, ← hw]
        exact if_pos hd
      refine ⟨fun ha => hchanged ho _ (hsettle _ ?_), fun ha => hput ho _ (hsettle _ ?_)⟩
      · exact if_pos ⟨ha, rfl⟩
      · exact if_neg fun hx => ha hx.1
    · exact State.putMode_rest t' (.inr (.inr (.inr (.inl ⟨hm, hs⟩))))
    · exact State.putMode_rest t' (.inr (.inr (.inr (.inr ⟨by rw [ho]; decide, hm⟩))))

/-- A power event of a job at the head that then ends. -/
theorem State.withStation_eventEnd {s : State} {n : StationNo} {q : QJob} {j : Job} (h : (s.station n).atHead q j)
    {ev : PowerEv} (hev : ev.faultOf = none) {g : Env → Station → Station} {u : Station}
    (hg : g (s.env n) (s.station n) = u) (hh : u.head = .waiting) (hq : u.queue = (s.station n).queue) (r : Res) :
    s.withStation n (fun e c => endHead r (powerEvent e ev false (c.mod (g e)))) = (s.putPower n u ev).endAt n q.jid r := by
  refine State.withStation_endAt h ((State.withStation_eventAfter s n hev g).trans (congrArg (s.putPower n · ev) hg))
    (fun qs hqs => State.heads_putPower hh (hq.trans hqs) _) r

/-- Settles O38: RESET PULSE, RESET HOLD and RESET RELEASE by the power state and the controller. -/
theorem resetJobsDriveBoardReset : Obligations.ResetJobsDriveBoardReset := by
  unfold Obligations.ResetJobsDriveBoardReset
  refine ⟨fun s n q w h => ?_, fun s n q h => ?_, fun s n q h => ?_⟩
  · intro t
    have hexec := (exec_resetPulse_head h.waitingJob).trans
      (congrArg Host.Outcome.next (State.gated_executed (h.executes nofun nofun) fun e => resetPulseJob e w))
    have hcan : t.canPulse = true ↔ t.bpu.state = .on ∧ t.bpu.ctl = .released := by
      unfold Station.canPulse
      simp
    refine ⟨fun hno => hexec.trans (congrArg Host.Outcome.next ?_), fun hon hrel => ?_⟩
    · refine State.withStation_endPut h (u := t) rfl ?_
      exact if_neg fun hx => hno (hcan.mp hx)
    · intro b u o
      refine hexec.trans (congrArg Host.Outcome.next ?_)
      refine Eq.trans (State.withStation_congr (g := fun e c => report e (.power .resetAsserted)
        (offerPower e .resetAsserted (c.mod fun _ => u))) (if_pos (hcan.mpr ⟨hon, hrel⟩))) ?_
      refine (State.withStation_comp (f := fun e => report e (.power .resetAsserted)) (Passes.report _ _)
        fun e c => offerPower e .resetAsserted (c.mod fun _ => u)).trans ?_
      have hoffer : s.withStation n (fun e c => offerPower e .resetAsserted (c.mod fun _ => u))
          = s.put n (u.take o) (s.attention ||| o.bits) := State.withStation_quiet (offerRec_eq ..)
      rw [hoffer]
      exact State.put_withStation ..
  · intro t b
    have hexec := (exec_resetHold_head h.waitingJob).trans
      (congrArg Host.Outcome.next (State.gated_executed (h.executes nofun nofun) fun e => resetHoldJob e))
    refine ⟨fun hr => hexec.trans (congrArg Host.Outcome.next ?_), fun hr => hexec.trans (congrArg Host.Outcome.next ?_)⟩
    · refine Eq.trans (State.withStation_congr ?_) (State.withStation_eventEnd h (ev := .resetAsserted) rfl
        (g := fun _ t => { t with bpu := { t.bpu with hold := true, ctl := .held, held := none } }) (by rfl)
        (by exact h.2.1) (by rfl) _)
      exact if_pos hr
    · refine State.withStation_endPut h (by rfl) ?_
      exact if_neg (Bool.eq_false_iff.mp hr)
  · intro t b
    have hexec := (exec_resetRelease_head h.waitingJob).trans
      (congrArg Host.Outcome.next (State.gated_executed (h.executes nofun nofun) fun e => resetReleaseJob e))
    refine ⟨fun hr => hexec.trans (congrArg Host.Outcome.next ?_), fun hr => hexec.trans (congrArg Host.Outcome.next ?_)⟩
    · refine Eq.trans (State.withStation_congr ?_) (State.withStation_eventEnd h (ev := .resetReleased) rfl
        (g := fun _ t => { t with bpu := { t.bpu with hold := false, ctl := .released } }) (by rfl)
        (by exact h.2.1) (by rfl) _)
      exact if_pos hr
    · refine State.withStation_endPut h (by rfl) ?_
      exact if_neg hr

end Sys2Proof.Machine
end

section
/-! Power inputs and power timers as changes of the state (R99 to R109). -/

namespace Sys2Proof.Machine

section
variable (s : State) (n : StationNo)

/-! ## Timers and inputs -/

theorem State.withStation_due {timer : PowerUnit → Option Nat} {f : Env → Ctx → Ctx}
    (h : due (timer (s.station n).bpu) s.elapsed = true) : s.withStation n (whenDue timer f) = s.withStation n f :=
  State.withStation_congr (if_pos h)

variable {s n}

/-- Work at a connector whose inputs have become `p`. -/
theorem State.atConnector_pin {c : ConnectorNo} (h : s.stationOf c = some n) (p : Connector) (f : Env → Ctx → Ctx) :
    (s.withPin c p).atConnector c f = (s.withPin c p).withStation n f := by
  refine State.atConnector_serves ?_ f
  exact h

variable (s n)

/-! ## Results and attention bits -/

theorem State.setAttn_eq_put (a : Attn) : s.setAttn a = s.put n (s.station n) (s.attention ||| a.mask) := by
  unfold State.put State.setStation State.station State.setAttn
  simp

/-- A job's end and an attention bit set after it commute. -/
theorem State.putEnd_setAttn (u : Station) (a : BitVec 11) (j : Nat) (r : Res) (x : Attn) :
    (s.putEnd n u a j r).setAttn x = (s.setAttn x).putEnd n u (a ||| x.mask) j r := by
  rw [State.setAttn_eq_put _ n, State.putEnd_station]
  unfold State.putEnd
  rw [State.recordResult_put, State.put_put]
  have hatt : ((s.put n { u with queue := u.queue.tail, head := .waiting } a).recordResult n j r).attention = a := by
    rw [State.recordResult_frame]
    rfl
  rw [hatt, State.setAttn_eq_put _ n, State.put_put]

/-! ## CU told, with no line open -/

variable {s n} {q : QJob} {qs : List QJob} {h : Head}

theorem State.putCut_nil (hl : (s.station n).cu.line = []) : s.putCut n = s := by
  unfold State.putCut
  exact if_pos hl

/-- A CONSOLE SEND at the head ends with the bytes sent (R96). -/
theorem State.putLeft_sent {total sent : Nat} (hl : (s.station n).cu.line = []) (hw : s.heads n (.consoleSend total sent) (q :: qs))
    (k : FaultKind) : s.putLeft n k = s.putEnd n { s.station n with cu := { (s.station n).cu with sendQ := [], tx := none } }
      s.attention q.jid ⟨.powerFault, false, k.code, sent⟩ := by
  rw [State.putLeft_eq, State.putCut_nil hl, hw.1]
  exact State.put_endFirst (u := { s.station n with cu := { (s.station n).cu with sendQ := [], tx := none } }) hw.2 ..

/-- Without a CONSOLE SEND at the head and a line open CU has nothing to do. -/
theorem State.putLeft_none (hl : (s.station n).cu.line = []) (hh : ∀ total sent, (s.station n).head ≠ .consoleSend total sent)
    (k : FaultKind) : s.putLeft n k = s := by
  rw [State.putLeft_eq, State.putCut_nil hl]
  unfold State.putSent
  cases hx : (s.station n).head with
  | consoleSend total sent => exact absurd hx (hh total sent)
  | _ => rfl

/-- A POWER ON or RESET PULSE at the head ends POWER FAULT. -/
theorem State.endPower_ends (hw : s.heads n h (q :: qs)) (hp : (∃ x, h = .ramp x) ∨ ∃ w k, h = .pulse w k) (k : FaultKind) :
    s.endPower n k = s.endAt n q.jid ⟨.powerFault, false, k.code, 0⟩ := by
  unfold State.endPower
  rw [hw.1]
  obtain ⟨x, rfl⟩ | ⟨w, c, rfl⟩ := hp <;> exact hw.endFirst _

variable (s n)

/-! ## Faults (R104) -/

/-- The steps of a fault of kind `k` at station n, having been `t`. -/
def State.putFault (s : State) (n : StationNo) (t : Station) (k : FaultKind) (ev : PowerEv) : State :=
  let taken := s.putPower n { t with bpu := t.bpu.faulted k (s.elapsed + t.prof.cooldownMs * 100000) } ev
  ((if t.bpu.state = .on then taken.putLeft n k else taken).setAttn .powerFault).endPower n k

theorem State.withStation_takeFault {k : FaultKind} (hk : k.event.faultOf = some k) :
    s.withStation n (fun e => takeFault e k) = s.putFault n (s.station n) k k.event := by
  have hbpu : ∀ now, { (s.station n).bpu.stopPowered with
      state := .cooldown, cooldownFault := k, held := (s.station n).bpu.heldAfter
      cooldown := some (now + (s.station n).prof.cooldownMs * Config.ticksPerMs) }
      = (s.station n).bpu.faulted k (now + (s.station n).prof.cooldownMs * 100000) := fun now => by
    rw [PowerUnit.heldAfter_eq]
    rfl
  have hsplit : s.withStation n (fun e => takeFault e k) = s.withStation n fun e c => endPowerJob k
      (powerEvent e k.event ((s.station n).bpu.state == .on) (c.mod fun t => { t with
        bpu := (s.station n).bpu.faulted k (e.now + (s.station n).prof.cooldownMs * 100000) })) := by
    refine State.withStation_congr ?_
    rw [← hbpu]
    rfl
  rw [hsplit]
  refine (State.withStation_comp (f := fun _ => endPowerJob k) (Passes.endPowerJob k) fun e c =>
    powerEvent e k.event ((s.station n).bpu.state == .on) (c.mod fun t => { t with
        bpu := (s.station n).bpu.faulted k (e.now + (s.station n).prof.cooldownMs * 100000) })).trans ?_
  rw [State.withStation_endPowerJob, State.withStation_after s n (fun e => Passes.powerEvent e _ _) fun e t => { t with
        bpu := (s.station n).bpu.faulted k (e.now + (s.station n).prof.cooldownMs * 100000) },
    State.withStation_powerEvent, State.put_station, State.putPower_put, hk]
  unfold State.putFault
  simp only [Option.getD_some, Option.isSome_some, if_true, beq_iff_eq]
  rfl

variable {s n}

/-- A fault with a head that no power work ends, no line open. -/
theorem State.putFault_waiting {t : Station} (hw : t.head = .waiting) (hl : t.bpu.state ≠ .on ∨ t.cu.line = [])
    (k : FaultKind) (ev : PowerEv) : s.putFault n t k ev = (s.putPower n
      { t with bpu := t.bpu.faulted k (s.elapsed + t.prof.cooldownMs * 100000) } ev).setAttn .powerFault := by
  obtain ⟨v, hv, hhead, -, -, hcu, -⟩ := s.putPower_station n
    { t with bpu := t.bpu.faulted k (s.elapsed + t.prof.cooldownMs * 100000) } ev
  unfold State.putFault
  dsimp only
  generalize s.putPower n { t with bpu := t.bpu.faulted k (s.elapsed + t.prof.cooldownMs * 100000) } ev = x at *
  subst hv
  have hleft : (if t.bpu.state = .on then x.putLeft n k else x) = x := by
    split_ifs with hon
    · exact State.putLeft_idle x n k ((congrArg ConsoleUnit.line hcu).trans (hl.resolve_left (not_not_intro hon))) (hhead.trans hw)
    · rfl
  rw [hleft]
  exact State.endPower_waiting _ n k (hhead.trans hw)

/-- A fault that ends a POWER ON or RESET PULSE at the head, no line open. -/
theorem State.putFault_ends {t : Station} (hq : t.queue = q :: qs) (hp : (∃ x, t.head = .ramp x) ∨ ∃ w k, t.head = .pulse w k)
    (hl : t.bpu.state ≠ .on ∨ t.cu.line = []) (k : FaultKind) (ev : PowerEv) : s.putFault n t k ev
      = ((s.putPower n { t with bpu := t.bpu.faulted k (s.elapsed + t.prof.cooldownMs * 100000) } ev).setAttn
          .powerFault).endAt n q.jid ⟨.powerFault, false, k.code, 0⟩ := by
  obtain ⟨v, hv, hhead, hqueue, -, hcu, -⟩ := s.putPower_station n
    { t with bpu := t.bpu.faulted k (s.elapsed + t.prof.cooldownMs * 100000) } ev
  unfold State.putFault
  dsimp only
  generalize s.putPower n { t with bpu := t.bpu.faulted k (s.elapsed + t.prof.cooldownMs * 100000) } ev = x at *
  subst hv
  have hno : ∀ total sent, (x.station n).head ≠ .consoleSend total sent := fun total sent hx => by
    rw [hhead] at hx
    obtain ⟨y, hy⟩ | ⟨w, c, hy⟩ := hp <;> exact absurd (hy.symm.trans hx) nofun
  have hleft : (if t.bpu.state = .on then x.putLeft n k else x) = x := by
    split_ifs with hon
    · exact State.putLeft_none ((congrArg ConsoleUnit.line hcu).trans (hl.resolve_left (not_not_intro hon))) hno k
    · rfl
  rw [hleft]
  exact State.endPower_ends (s := x.setAttn .powerFault) ⟨hhead, hqueue.trans hq⟩ hp k

/-- A fault that ends a CONSOLE SEND at the head, no line open. -/
theorem State.putFault_sent {t : Station} {total sent : Nat} (hq : t.queue = q :: qs) (hp : t.head = .consoleSend total sent)
    (hon : t.bpu.state = .on) (hl : t.cu.line = []) (k : FaultKind) (ev : PowerEv) : s.putFault n t k ev
      = (let r := (s.putPower n { t with bpu := t.bpu.faulted k (s.elapsed + t.prof.cooldownMs * 100000) } ev).setAttn .powerFault
        r.putEnd n { r.station n with cu := { t.cu with sendQ := [], tx := none } } r.attention q.jid
          ⟨.powerFault, false, k.code, sent⟩) := by
  obtain ⟨v, hv, hhead, hqueue, -, hcu, -⟩ := s.putPower_station n
    { t with bpu := t.bpu.faulted k (s.elapsed + t.prof.cooldownMs * 100000) } ev
  unfold State.putFault
  dsimp only
  generalize s.putPower n { t with bpu := t.bpu.faulted k (s.elapsed + t.prof.cooldownMs * 100000) } ev = x at *
  subst hv
  rw [if_pos hon, State.putLeft_sent (q := q) (qs := qs) ((congrArg ConsoleUnit.line hcu).trans hl)
    ⟨hhead.trans hp, hqueue.trans hq⟩ k, State.putEnd_setAttn]
  rw [State.endPower_waiting _ n k (by rw [State.putEnd_station])]
  dsimp only at hcu
  rw [hcu]
  rfl

end

end Sys2Proof.Machine
end

section
/-! The statements about faults, POWER GOOD and the power timers (R101 to R109). -/

namespace Sys2Proof.Machine

/-- Settles O48: the three faults, by the head they meet. -/
theorem faultsEnterCooldown : Obligations.FaultsEnterCooldown := by
  unfold Obligations.FaultsEnterCooldown
  intro s n t faulted fault
  have hramp : due t.bpu.ramp s.elapsed = true →
      exec (.rampTimerExpiry n) s = .next (s.putFault n t .ramp .rampFault) := fun hd =>
    congrArg Host.Outcome.next ((State.withStation_due s n (timer := PowerUnit.ramp) hd).trans
      (State.withStation_takeFault s n (k := .ramp) rfl))
  have hover : due t.bpu.overload s.elapsed = true →
      exec (.overloadFilterExpiry n) s = .next (s.putFault n t .overload .overloadFault) := fun hd =>
    congrArg Host.Outcome.next ((State.withStation_due s n (timer := PowerUnit.overload) hd).trans
      (State.withStation_takeFault s n (k := .overload) rfl))
  have hnotOn : t.bpu.state = .ramping → t.bpu.state ≠ .on := fun h => by
    rw [h]
    decide
  refine ⟨fun c hc hg => ?_, fun hd hr => ⟨fun hw => ?_, fun q qs started hq hh => ?_⟩, fun hd hr => hramp hd,
    fun hd hon hl => ?_, fun hd => ⟨fun hp => hover hd, fun hr => ⟨fun hw => ?_, fun q qs started hq hh => ?_⟩⟩⟩
  · intro s'
    have hfall : exec (.pwrGoodFall c) s = .next (s'.withStation n goodFalls) :=
      congrArg Host.Outcome.next ((if_pos hg).trans (State.atConnector_pin hc _ _))
    have hfault : t.bpu.state = .on → exec (.pwrGoodFall c) s = .next (s'.putFault n t .powerLost .powerLostFault) := fun hon => by
      refine hfall.trans (congrArg Host.Outcome.next ?_)
      refine Eq.trans (State.withStation_congr (g := fun e => takeFault e .powerLost) (if_pos hon)) ?_
      exact State.withStation_takeFault s' n (k := .powerLost) rfl
    refine ⟨fun hoff => hfall.trans (congrArg Host.Outcome.next (State.withStation_same (if_neg hoff))),
      fun hon hl hw => (hfault hon).trans (congrArg Host.Outcome.next (State.putFault_waiting hw (.inr hl) _ _)),
      fun hon => hfault hon, fun q qs hq hon hl => ⟨fun w k hp => ?_, fun total sent hp => ?_⟩⟩
    · exact (hfault hon).trans (congrArg Host.Outcome.next (State.putFault_ends hq (.inr ⟨w, k, hp⟩) (.inr hl) _ _))
    · exact (hfault hon).trans (congrArg Host.Outcome.next (State.putFault_sent hq hp hon hl _ _))
  · exact (hramp hd).trans (congrArg Host.Outcome.next (State.putFault_waiting hw (.inl (hnotOn hr)) _ _))
  · exact (hramp hd).trans (congrArg Host.Outcome.next (State.putFault_ends hq (.inl ⟨_, hh⟩) (.inl (hnotOn hr)) _ _))
  · refine ⟨fun hw => (hover hd).trans (congrArg Host.Outcome.next (State.putFault_waiting hw (.inr hl) _ _)),
      fun q qs hq => ⟨fun w k hp => ?_, fun total sent hp => ?_⟩⟩
    · exact (hover hd).trans (congrArg Host.Outcome.next (State.putFault_ends hq (.inr ⟨w, k, hp⟩) (.inr hl) _ _))
    · exact (hover hd).trans (congrArg Host.Outcome.next (State.putFault_sent hq hp hon hl _ _))
  · exact (hover hd).trans (congrArg Host.Outcome.next (State.putFault_waiting hw (.inl (hnotOn hr)) _ _))
  · exact (hover hd).trans (congrArg Host.Outcome.next (State.putFault_ends hq (.inl ⟨_, hh⟩) (.inl (hnotOn hr)) _ _))

/-! ## POWER GOOD (R103, R108) -/

section
variable {s : State} {n : StationNo} {t : Station} {q : QJob} {qs : List QJob}

/-- The power unit is ON with the reset delay running, before POWER GOOD's report and after it. -/
theorem State.putGood_bpu : ((s.putPower n (t.goodFound s.elapsed) .powerGood).station n).bpu = (t.goodFound s.elapsed).bpu :=
  State.putPower_bpu s n rfl _

/-- What POWER GOOD leaves with no POWER ON at the head. -/
theorem State.putGood_waiting (hw : t.head = .waiting) : s.putGood n t =
    if t.prof.resetDelayMs = 0 then (s.putPower n (t.goodFound s.elapsed) .powerGood).putReleased n
    else s.putPower n (t.goodFound s.elapsed) .powerGood := by
  rw [State.putGood_eq, hw]
  rfl

/-- What POWER GOOD leaves with a POWER ON at the head. -/
theorem State.putGood_ends {started : Nat} (hq : t.queue = q :: qs) (hh : t.head = .ramp started) : s.putGood n t =
    (let ended := (s.putPower n (t.goodFound s.elapsed) .powerGood).endAt n q.jid (Res.okv ((s.elapsed - started) / 100000))
      if t.prof.resetDelayMs = 0 then ended.putReleased n else ended) := by
  have hheads : (s.putPower n (t.goodFound s.elapsed) .powerGood).heads n (.ramp started) (q :: qs) :=
    State.heads_putPower (by exact hh) (by exact hq) _
  have hend : (s.putPower n (t.goodFound s.elapsed) .powerGood).putRampEnd n t.head
      = (s.putPower n (t.goodFound s.elapsed) .powerGood).endAt n q.jid (Res.okv ((s.elapsed - started) / 100000)) := by
    rw [hh]
    refine (hheads.endFirst _).trans ?_
    rw [State.putPower_elapsed]
  rw [State.putGood_eq]
  dsimp only
  rw [hend]

end

/-- Settles O47: PWR_GOOD rising, the overload filter and the inrush window. -/
theorem powerGoodAndOverload : Obligations.PowerGoodAndOverload := by
  unfold Obligations.PowerGoodAndOverload
  refine ⟨fun s c n hc => ?_, fun s c n hc => ?_, fun s n hd => ?_⟩
  · intro t s' b
    have hrise : (s.connector c).pwrGood = false → exec (.pwrGoodRise c) s = .next (s'.withStation n goodRises) := fun hg =>
      congrArg Host.Outcome.next ((if_neg (Bool.eq_false_iff.mp hg)).trans (State.atConnector_pin hc _ _))
    have hgood : (s.connector c).pwrGood = false → t.bpu.state = .ramping →
        exec (.pwrGoodRise c) s = .next (s'.putGood n t) := fun hg hr =>
      (hrise hg).trans (congrArg Host.Outcome.next ((State.withStation_congr (g := fun e => powerGood e) (if_pos hr)).trans
        (State.withStation_powerGood s' n)))
    refine ⟨fun hg => congrArg Host.Outcome.next (if_pos hg),
      fun hg hr => (hrise hg).trans (congrArg Host.Outcome.next (State.withStation_same (if_neg hr))),
      fun hg hr hd => ?_, hgood, fun hg hr hd => ?_⟩
    · intro good
      refine ⟨fun hw => (hgood hg hr).trans (congrArg Host.Outcome.next ?_), fun q qs started hq hh =>
        (hgood hg hr).trans (congrArg Host.Outcome.next ?_)⟩
      · exact (State.putGood_waiting hw).trans (if_neg hd)
      · exact (State.putGood_ends hq hh).trans (if_neg hd)
    · intro good u ends
      have hends : ∀ w : State, (w.station n).bpu.hold = t.bpu.hold →
          exec (.pwrGoodRise c) s = .next (w.putReleased n) → ends w := fun w hhold hw =>
        ⟨fun hh => hw.trans (congrArg Host.Outcome.next (if_pos (hhold.trans hh))),
          fun hh => hw.trans (congrArg Host.Outcome.next (if_neg (Bool.eq_false_iff.mp (hhold.trans hh))))⟩
      have hbpu : (good.station n).bpu = b := State.putGood_bpu
      have hhold : (good.station n).bpu.hold = t.bpu.hold := by
        rw [hbpu]
      refine ⟨fun hw => hends good hhold ((hgood hg hr).trans (congrArg Host.Outcome.next ?_)),
        fun q qs started hq hh => hends _ ?_ ((hgood hg hr).trans (congrArg Host.Outcome.next ?_))⟩
      · exact (State.putGood_waiting hw).trans (if_pos hd)
      · unfold State.endAt
        rw [State.putEnd_station]
        exact hhold
      · exact (State.putGood_ends hq hh).trans (if_pos hd)
  · intro t powered high low
    have hrise : (s.connector c).overload = false → exec (.overloadRise c) s = .next (high.withStation n overloadRises) :=
      fun ho => congrArg Host.Outcome.next ((if_neg (Bool.eq_false_iff.mp ho)).trans (State.atConnector_pin hc _ _))
    refine ⟨fun ho hp hi => (hrise ho).trans (congrArg Host.Outcome.next ?_),
      fun ho hno => (hrise ho).trans (congrArg Host.Outcome.next ?_), fun ho => ?_⟩
    · exact State.withStation_quiet (if_pos ⟨(PowerUnit.pwrEn_iff _).mpr hp, hi⟩)
    · refine State.withStation_same (if_neg ?_)
      rintro ⟨hen, hi⟩
      exact hno.elim (fun hn => hn ((PowerUnit.pwrEn_iff _).mp hen)) fun hn => hn hi
    · exact congrArg Host.Outcome.next ((if_pos ho).trans (State.atConnector_pin hc _ _))
  · intro t starts
    refine congrArg Host.Outcome.next ((State.withStation_due s n (timer := PowerUnit.inrush) hd).trans ?_)
    have hstarts : starts = true ↔ t.bpu.pwrEn = true ∧ (s.connector (s.connectorOf n)).overload = true := by
      rw [PowerUnit.pwrEn_iff]
      unfold starts
      simp
    refine State.withStation_quiet ?_
    unfold inrushCloses
    by_cases h : starts = true
    · rw [if_pos h]
      exact if_pos (hstarts.mp h)
    · rw [if_neg h]
      exact if_neg fun hx => h (hstarts.mpr hx)

/-! ## The power and reset timers (R102, R105, R108, R109) -/

section
variable (s : State) (n : StationNo)

theorem Passes.endPulseJob : Passes endPulseJob :=
  Passes.choose (F := fun t c => match t.head with
    | .pulse w clamped => Machine.endHead ⟨.ok, clamped, 0, w⟩ c
    | _ => c) fun t => by
      cases t.head with
      | pulse _ _ => exact Passes.endHead _
      | _ => exact Passes.id

theorem State.withStation_pulseExpires : s.withStation n (fun e => pulseExpires e)
    = (s.putReleased n).withStation n fun _ => endPulseJob := by
  rw [← State.withStation_endAssertion]
  exact State.withStation_comp (f := fun _ => endPulseJob) Passes.endPulseJob fun e => endAssertion e

/-- The end of a pulse no job waits for. -/
theorem State.withStation_endPulseJob_none (h : (s.station n).head.isPulse = false) :
    s.withStation n (fun _ => endPulseJob) = s := by
  refine State.withStation_same ?_
  unfold endPulseJob
  dsimp only
  cases hh : (s.station n).head with
  | pulse w c =>
    rw [hh] at h
    cases h
  | _ => rfl

/-- The end of the pulse of a RESET PULSE at the head (R113). -/
theorem State.withStation_endPulseJob {q : QJob} {qs : List QJob} {w : Nat} {clamped : Bool}
    (h : s.heads n (.pulse w clamped) (q :: qs)) :
    s.withStation n (fun _ => endPulseJob) = s.endAt n q.jid ⟨.ok, clamped, 0, w⟩ := by
  refine Eq.trans (State.withStation_congr (g := fun _ => endHead ⟨.ok, clamped, 0, w⟩) ?_)
    ((State.withStation_endHead s n _).trans (h.endFirst _))
  unfold endPulseJob
  rw [h.1]

end

/-- Settles O49: each timer's end, by what the station then does. -/
theorem powerAndResetTimersDecide : Obligations.PowerAndResetTimersDecide := by
  unfold Obligations.PowerAndResetTimersDecide
  have hauto : ∀ (s : State) (n : StationNo), due (s.station n).bpu.autoSettle s.elapsed = true →
      exec (.autoSettleExpiry n) s = .next (s.putDecided n (s.station n)) := fun s n hd =>
    congrArg Host.Outcome.next ((State.withStation_due s n (timer := PowerUnit.autoSettle) hd).trans
      (State.withStation_settleDecides s n))
  have hcool : ∀ (s : State) (n : StationNo), due (s.station n).bpu.cooldown s.elapsed = true →
      exec (.cooldownExpiry n) s = .next (s.withStation n cooldownExpires) := fun s n hd =>
    congrArg Host.Outcome.next (State.withStation_due s n (timer := PowerUnit.cooldown) hd)
  have hagain : ∀ (s : State) (n : StationNo), due (s.station n).bpu.cooldown s.elapsed = true →
      (s.station n).prof.powerMode = .auto ∧ (s.station n).bpu.retry < (s.station n).prof.retryLimit →
      exec (.cooldownExpiry n) s = .next (s.putRamp n
        { s.station n with bpu := { (s.station n).bpu with retry := (s.station n).bpu.retry + 1 } }) := fun s n hd ha => by
    refine (hcool s n hd).trans (congrArg Host.Outcome.next (Eq.trans (State.withStation_congr ?_)
      (State.withStation_rampAfter s n fun _ t => { t with bpu := { t.bpu with retry := t.bpu.retry + 1 } })))
    exact if_pos ha
  have hlatch : ∀ (s : State) (n : StationNo), due (s.station n).bpu.cooldown s.elapsed = true →
      ¬ ((s.station n).prof.powerMode = .auto ∧ (s.station n).bpu.retry < (s.station n).prof.retryLimit) →
      exec (.cooldownExpiry n) s = .next (s.putPower n { s.station n with bpu := { (s.station n).bpu with
        state := .seated, cooldown := none, latched := (s.station n).bpu.cooldownFault } } .faultLatched) := fun s n hd ha => by
    refine (hcool s n hd).trans (congrArg Host.Outcome.next (Eq.trans (State.withStation_congr ?_)
      (State.withStation_eventAfter s n (ev := .faultLatched) rfl fun _ t => { t with bpu := { t.bpu with
        state := .seated, cooldown := none, latched := t.bpu.cooldownFault } })))
    exact if_neg ha
  refine ⟨⟨fun s n hlow => ?_, fun s n => ?_⟩, fun s n => ?_⟩
  · intro t pin
    refine ⟨fun hd => ?_, fun hd => ?_⟩
    · intro allowed b
      refine ⟨fun ha => (hauto s n hd).trans (congrArg Host.Outcome.next ?_),
        fun ha => (hauto s n hd).trans (congrArg Host.Outcome.next (if_neg ha))⟩
      exact (if_pos ha).trans (State.putRamp_low s n _ hlow)
    · intro again b l
      exact ⟨fun ha => (hagain s n hd ha).trans (congrArg Host.Outcome.next (State.putRamp_low s n _ hlow)),
        fun ha => hlatch s n hd ha⟩
  · intro t held rel
    refine ⟨fun hd => ?_, fun hd => ?_⟩
    · have hdelay : exec (.resetDelayExpiry n) s = .next (s.putReleased n) :=
        congrArg Host.Outcome.next ((State.withStation_due s n (timer := PowerUnit.delay) hd).trans
          (State.withStation_endAssertion s n))
      exact ⟨fun hh => hdelay.trans (congrArg Host.Outcome.next (if_pos hh)),
        fun hh => hdelay.trans (congrArg Host.Outcome.next (if_neg (Bool.eq_false_iff.mp hh)))⟩
    · have hpulse : exec (.resetPulseExpiry n) s = .next ((s.putReleased n).withStation n fun _ => endPulseJob) :=
        congrArg Host.Outcome.next ((State.withStation_due s n (timer := PowerUnit.pulse) hd).trans
          (State.withStation_pulseExpires s n))
      have hheads : (s.putReleased n).heads n t.head t.queue := State.heads_putReleased ⟨rfl, rfl⟩
      have hnone : t.head.isPulse = false → exec (.resetPulseExpiry n) s = .next (s.putReleased n) := fun hp =>
        hpulse.trans (congrArg Host.Outcome.next (State.withStation_endPulseJob_none _ n (by rw [hheads.1]; exact hp)))
      have hheld : t.bpu.hold = true → s.putReleased n = s.put n { t with bpu := held } s.attention := fun hh => if_pos hh
      have hrel : t.bpu.hold = false → s.putReleased n = s.putPower n { t with bpu := rel } .resetReleased := fun hh =>
        if_neg (Bool.eq_false_iff.mp hh)
      refine ⟨fun hw hh => (hnone (by rw [hw]; rfl)).trans (congrArg Host.Outcome.next (hrel hh)),
        fun hp => ⟨fun hh => (hnone hp).trans (congrArg Host.Outcome.next (hheld hh)),
          fun hh => (hnone hp).trans (congrArg Host.Outcome.next (hrel hh))⟩, fun q qs w clamped hq hp => ?_⟩
      have hends : exec (.resetPulseExpiry n) s = .next ((s.putReleased n).endAt n q.jid ⟨.ok, clamped, 0, w⟩) := by
        rw [hp, hq] at hheads
        exact hpulse.trans (congrArg Host.Outcome.next (State.withStation_endPulseJob _ n hheads))
      refine ⟨fun hh => hends.trans (congrArg Host.Outcome.next ?_), fun hh => hends.trans (congrArg Host.Outcome.next ?_)⟩
      · rw [hheld hh, State.put_endAt]
      · rw [hrel hh]
  · intro t
    refine ⟨hauto s n, fun hd hm hr => hagain s n hd ⟨hm, hr⟩, fun hd hno => hlatch s n hd ?_⟩
    rintro ⟨hm, hr⟩
    exact hno.elim (fun h => h hm) fun h => Nat.not_lt.mpr h hr

end Sys2Proof.Machine
end

section
/-! Seating and removal (R99, R106). -/

namespace Sys2Proof.Machine

section
variable (s : State) (n : StationNo)

theorem Passes.seatSettles (e : Env) : Passes fun c => if c.st.prof.powerMode = .auto then Machine.startSettle e c else c :=
  Passes.choose (F := fun t c => if t.prof.powerMode = .auto then Machine.startSettle e c else c)
    fun _ => Passes.ite (Passes.startSettle e) Passes.id

theorem Passes.seat (e : Env) : Passes (seat e) :=
  (Passes.seatSettles e).comp ((Passes.powerEvent e .seated false).comp (Passes.mod fun t =>
    { t with bpu := { t.bpu with state := .seated, cls := e.pin.straps } }))

theorem presentSettled_gone {e : Env} {c : Ctx} (hs : e.pin.settled = false) (ha : c.st.bpu.state ≠ .absent)
    (hi : c.st.bpu.state ≠ .inactive) : presentSettled e c = remove e c := by
  unfold presentSettled
  cases hx : c.st.bpu.state with
  | absent => exact absurd hx ha
  | inactive => exact absurd hx hi
  | _ => exact if_neg (Bool.eq_false_iff.mp hs)

/-- A board is seated at station n, having been `t` (R99, R102). -/
def State.putSeated (s : State) (n : StationNo) (t : Station) : State :=
  let seated := s.putPower n { t with bpu := { t.bpu with
    state := .seated, cls := (s.connector (s.connectorOf n)).straps } } .seated
  if t.prof.powerMode = .auto then seated.putSettle n (seated.station n) else seated

theorem State.withStation_seat : s.withStation n (fun e => seat e) = s.putSeated n (s.station n) := by
  have hseated := State.withStation_eventAfter s n (ev := .seated) rfl fun e t =>
    { t with bpu := { t.bpu with state := .seated, cls := e.pin.straps } }
  refine (State.withStation_comp (f := fun e c => if c.st.prof.powerMode = .auto then startSettle e c else c)
    (Passes.seatSettles _) fun e c => powerEvent e .seated false (c.modBpu fun b =>
      { b with state := .seated, cls := e.pin.straps })).trans ?_
  refine (congrArg (fun w : State => w.withStation n fun e c =>
    if c.st.prof.powerMode = .auto then startSettle e c else c) hseated).trans ?_
  unfold State.putSeated
  dsimp only
  obtain ⟨v, hv, -, -, hprof, -⟩ := s.putPower_station n { s.station n with bpu := { (s.station n).bpu with
    state := .seated, cls := (s.connector (s.connectorOf n)).straps } } .seated
  have hmode : v.prof.powerMode = (s.station n).prof.powerMode :=
    congrArg Profile.powerMode (congrArg (Option.getD · Profile.default) hprof)
  change State.withStation (s.putPower n { s.station n with bpu := { (s.station n).bpu with
    state := .seated, cls := (s.connector (s.connectorOf n)).straps } } .seated) n _ = _
  generalize s.putPower n { s.station n with bpu := { (s.station n).bpu with
    state := .seated, cls := (s.connector (s.connectorOf n)).straps } } .seated = w at *
  subst hv
  by_cases hm : (s.station n).prof.powerMode = .auto
  · rw [if_pos hm, ← State.withStation_startSettle]
    exact State.withStation_congr (if_pos (hmode.trans hm))
  · rw [if_neg hm]
    exact State.withStation_same (if_neg fun h => hm (hmode.symm.trans h))

theorem State.putSeated_put (u t : Station) : (s.put n u s.attention).putSeated n t = s.putSeated n t := by
  unfold State.putSeated
  dsimp only
  rw [show (s.put n u s.attention).connectorOf n = s.connectorOf n from rfl,
    show (s.put n u s.attention).connector (s.connectorOf n) = s.connector (s.connectorOf n) from rfl, State.putPower_put]

/-- The board of station n, having been `t`, is gone (R106). -/
def State.putGone (s : State) (n : StationNo) (t : Station) : State :=
  let gone := s.putPower n { t with bpu := t.bpu.removed } .removed
  (if t.bpu.state = .on then gone.putLeft n .none else gone).endPower n .none

theorem State.withStation_remove : s.withStation n (fun e => remove e) = s.putGone n (s.station n) := by
  have hbpu : { (s.station n).bpu.stopAll with
      state := .absent, latched := .none, retry := 0, held := (s.station n).bpu.heldAfter } = (s.station n).bpu.removed := by
    rw [PowerUnit.heldAfter_eq]
    rfl
  have hsplit : s.withStation n (fun e => remove e) = s.withStation n fun e c => endPowerJob .none
      (powerEvent e .removed ((s.station n).bpu.state == .on) (c.mod fun t => { t with bpu := (s.station n).bpu.removed })) := by
    refine State.withStation_congr ?_
    rw [← hbpu]
    rfl
  rw [hsplit]
  refine (State.withStation_comp (f := fun _ => endPowerJob .none) (Passes.endPowerJob .none) fun e c =>
    powerEvent e .removed ((s.station n).bpu.state == .on) (c.mod fun t => { t with bpu := (s.station n).bpu.removed })).trans ?_
  rw [State.withStation_endPowerJob, State.withStation_after s n (fun e => Passes.powerEvent e _ _) fun _ t => { t with
        bpu := (s.station n).bpu.removed }, State.withStation_powerEvent, State.put_station, State.putPower_put]
  unfold State.putGone
  have hno : PowerEv.faultOf .removed = none := rfl
  simp only [hno, Option.isSome_none, Option.getD_none, Bool.false_eq_true, if_false, beq_iff_eq]

variable {s n} {q : QJob} {qs : List QJob} {t : Station}

theorem State.putGone_waiting (hw : t.head = .waiting) (hl : t.bpu.state ≠ .on ∨ t.cu.line = []) :
    s.putGone n t = s.putPower n { t with bpu := t.bpu.removed } .removed := by
  obtain ⟨v, hv, hhead, -, -, hcu, -⟩ := s.putPower_station n { t with bpu := t.bpu.removed } .removed
  unfold State.putGone
  dsimp only
  generalize s.putPower n { t with bpu := t.bpu.removed } .removed = x at *
  subst hv
  have hleft : (if t.bpu.state = .on then x.putLeft n .none else x) = x := by
    split_ifs with hon
    · exact State.putLeft_idle x n _ ((congrArg ConsoleUnit.line hcu).trans (hl.resolve_left (not_not_intro hon))) (hhead.trans hw)
    · rfl
  rw [hleft]
  exact State.endPower_waiting _ n _ (hhead.trans hw)

theorem State.putGone_ends (hq : t.queue = q :: qs) (hp : (∃ x, t.head = .ramp x) ∨ ∃ w k, t.head = .pulse w k)
    (hl : t.bpu.state ≠ .on ∨ t.cu.line = []) : s.putGone n t
      = (s.putPower n { t with bpu := t.bpu.removed } .removed).endAt n q.jid ⟨.powerFault, false, 0, 0⟩ := by
  obtain ⟨v, hv, hhead, hqueue, -, hcu, -⟩ := s.putPower_station n { t with bpu := t.bpu.removed } .removed
  unfold State.putGone
  dsimp only
  generalize s.putPower n { t with bpu := t.bpu.removed } .removed = x at *
  subst hv
  have hno : ∀ total sent, (x.station n).head ≠ .consoleSend total sent := fun total sent hx => by
    rw [hhead] at hx
    obtain ⟨y, hy⟩ | ⟨w, c, hy⟩ := hp <;> exact absurd (hy.symm.trans hx) nofun
  have hleft : (if t.bpu.state = .on then x.putLeft n .none else x) = x := by
    split_ifs with hon
    · exact State.putLeft_none ((congrArg ConsoleUnit.line hcu).trans (hl.resolve_left (not_not_intro hon))) hno _
    · rfl
  rw [hleft]
  exact State.endPower_ends (s := x) ⟨hhead, hqueue.trans hq⟩ hp .none

theorem State.putGone_sent {total sent : Nat} (hq : t.queue = q :: qs) (hp : t.head = .consoleSend total sent)
    (hon : t.bpu.state = .on) (hl : t.cu.line = []) : s.putGone n t
      = (let gone := s.putPower n { t with bpu := t.bpu.removed } .removed
        gone.putEnd n { gone.station n with cu := { t.cu with sendQ := [], tx := none } } gone.attention q.jid
          ⟨.powerFault, false, 0, sent⟩) := by
  obtain ⟨v, hv, hhead, hqueue, -, hcu, -⟩ := s.putPower_station n { t with bpu := t.bpu.removed } .removed
  unfold State.putGone
  dsimp only
  generalize s.putPower n { t with bpu := t.bpu.removed } .removed = x at *
  subst hv
  rw [if_pos hon, State.putLeft_sent (q := q) (qs := qs) ((congrArg ConsoleUnit.line hcu).trans hl)
    ⟨hhead.trans hp, hqueue.trans hq⟩ .none]
  rw [State.endPower_waiting _ n _ (by rw [State.putEnd_station])]
  dsimp only at hcu
  rw [hcu]
  rfl

end

/-- Settles O46: the settle filter, and the settled level by the power state it meets. -/
theorem presentSettlesAndSeats : Obligations.PresentSettlesAndSeats := by
  unfold Obligations.PresentSettlesAndSeats
  refine ⟨fun s c level straps => rfl, fun s c n hd hc => ?_⟩
  intro t p s' seated b settles gone allowed
  have hexec : exec (.presentSettleExpiry c) s = .next (s'.withStation n presentSettled) :=
    congrArg Host.Outcome.next ((if_pos hd).trans (State.atConnector_pin hc _ _))
  have hpin : s'.connector (s'.connectorOf n) = { p with settled := p.present, settle := none } := by
    have hcn : s'.connectorOf n = c := State.connectorOf_stationOf hc
    rw [hcn]
    exact Vector.getElem_set_self ..
  have hsettled : (s'.env n).pin.settled = p.present := congrArg Connector.settled hpin
  have hgone : p.present = false → t.bpu.state ≠ .absent → t.bpu.state ≠ .inactive →
      exec (.presentSettleExpiry c) s = .next (s'.putGone n t) := fun hp hna hni =>
    hexec.trans (congrArg Host.Outcome.next (Eq.trans (State.withStation_congr (g := fun e => remove e)
      (presentSettled_gone (hsettled.trans hp) hna hni)) (State.withStation_remove s' n)))
  refine ⟨fun hp ha => ?_, fun hp hst => ⟨fun hw => ?_, fun q qs hq => ⟨fun hh => ?_, fun total sent hh hon => ?_⟩⟩,
    fun hp hst => ?_, fun hp hon => ?_, fun hst => ?_⟩
  · have hseat : exec (.presentSettleExpiry c) s = .next (s'.putSeated n t) := by
      refine hexec.trans (congrArg Host.Outcome.next (Eq.trans (State.withStation_congr (g := fun e => seat e) ?_)
        (State.withStation_seat s' n)))
      unfold presentSettled
      rw [show (s'.station n).bpu.state = .absent from ha]
      exact if_pos (hsettled.trans hp)
    have hput : s'.putSeated n t = if t.prof.powerMode = .auto then seated.putSettle n (seated.station n) else seated := by
      unfold State.putSeated
      rw [hpin]
    have hbpu : (seated.station n).bpu = { t.bpu with state := .seated, cls := p.straps } := State.putPower_bpu s' n rfl _
    have hprof : (seated.station n).prof = t.prof := by
      obtain ⟨v, hv, -, -, hprof, -⟩ := s'.putPower_station n { t with bpu := { t.bpu with state := .seated, cls := p.straps } } .seated
      rw [hv]
      exact congrArg (Option.getD · Profile.default) hprof
    have helapsed : seated.elapsed = s.elapsed := State.putPower_elapsed ..
    have hgood : (seated.connector (seated.connectorOf n)) = { p with settled := p.present, settle := none } :=
      (State.putPower_pin ..).trans hpin
    have hmode : t.prof.powerMode = .auto → exec (.presentSettleExpiry c) s
        = .next (seated.putSettle n (seated.station n)) := fun hm =>
      hseat.trans (congrArg Host.Outcome.next (hput.trans (if_pos hm)))
    have hnow : t.prof.autoSettleMs = 0 → seated.putSettle n (seated.station n)
        = seated.putDecided n (seated.station n) := fun hz => if_pos (by rw [hprof]; exact hz)
    have hallowed : ((seated.station n).prof.classMask.getLsbD (seated.station n).bpu.cls.toNat = true
        ∧ (seated.station n).bpu.latched = .none) ↔ allowed := by
      rw [hprof, hbpu]
    refine ⟨fun hm => hseat.trans (congrArg Host.Outcome.next (hput.trans (if_neg hm))),
      fun hm hz => (hmode hm).trans (congrArg Host.Outcome.next ?_),
      fun hm hz => ⟨fun hno => (hmode hm).trans (congrArg Host.Outcome.next ((hnow hz).trans ?_)),
        fun hyes hlow => (hmode hm).trans (congrArg Host.Outcome.next ((hnow hz).trans ?_))⟩, hmode⟩
    · refine (if_neg (by rw [hprof]; exact hz)).trans ?_
      rw [hprof, helapsed]
    · exact if_neg fun h => hno (hallowed.mp h)
    · refine (if_pos (hallowed.mpr hyes)).trans ((State.putRamp_low _ n _ ?_).trans ?_)
      · rw [hgood]
        exact hlow
      · rw [hgood, hprof, helapsed]
        rfl
  · have hne : t.bpu.state ≠ .absent ∧ t.bpu.state ≠ .inactive ∧ (t.bpu.state ≠ .on ∨ t.cu.line = []) := by
      obtain h | h | h | ⟨h, hl⟩ := hst <;> simp [h]
      exact hl
    exact (hgone hp hne.1 hne.2.1).trans (congrArg Host.Outcome.next (State.putGone_waiting hw hne.2.2))
  · have hne : t.bpu.state ≠ .absent ∧ t.bpu.state ≠ .inactive ∧ (t.bpu.state ≠ .on ∨ t.cu.line = []) := by
      obtain h | h | h | ⟨h, hl⟩ := hst <;> simp [h]
      exact hl
    exact (hgone hp hne.1 hne.2.1).trans (congrArg Host.Outcome.next (State.putGone_ends hq hh hne.2.2))
  · have hl : t.cu.line = [] := by
      obtain h | h | h | ⟨-, hl⟩ := hst
      · rw [h] at hon; cases hon
      · rw [h] at hon; cases hon
      · rw [h] at hon; cases hon
      · exact hl
    exact (hgone hp (by rw [hon]; decide) (by rw [hon]; decide)).trans
      (congrArg Host.Outcome.next (State.putGone_sent hq hh hon hl))
  · have hne : t.bpu.state ≠ .absent ∧ t.bpu.state ≠ .inactive ∧ t.bpu.state ≠ .on := by
      obtain h | h | h := hst <;> simp [h]
    refine (hgone hp hne.1 hne.2.1).trans (congrArg Host.Outcome.next ?_)
    exact congrArg (State.endPower · n .none) (if_neg hne.2.2)
  · refine (hgone hp (by rw [hon]; decide) (by rw [hon]; decide)).trans (congrArg Host.Outcome.next ?_)
    exact congrArg (State.endPower · n .none) (if_pos hon)
  · refine hexec.trans (congrArg Host.Outcome.next (State.withStation_same ?_))
    unfold presentSettled
    obtain hi | ⟨hp, ha⟩ := hst
    · rw [show (s'.station n).bpu.state = .inactive from hi]
    · have hyes := hsettled.trans hp
      cases hx : t.bpu.state with
      | absent => exact absurd hx ha
      | inactive => rw [show (s'.station n).bpu.state = .inactive from hx]
      | _ =>
        rw [show (s'.station n).bpu.state = _ from hx]
        simp only [hyes, if_true]

end Sys2Proof.Machine
end

section
/-! The link receiver turned off where no record is kept and no job waits, PARK and UNPARK (R32, R34, R45). -/

namespace Sys2Proof.Machine

/-! ## A link loss nobody hears of (R44, R82) -/

/-- With the link DOWN no request is issued. -/
theorem offerEntries_down {t : Station} (h : t.lp.up = false) (e : Env) : offerEntries e t = t := by
  have hholder : issueHolder e t = t := by
    unfold issueHolder
    simp [h]
  have hnext : issueNext e t = t := by
    unfold issueNext
    split
    · split
      · simp [h]
      · rfl
    · rfl
  unfold offerEntries
  rw [hholder, hnext, hnext, hnext, hnext]

/-- Capture is STOPPED, the sequencer not ARMED and no access job begun. -/
def Station.silent (t : Station) : Prop := t.cap.state = .stopped ∧ t.unarmed ∧ ∀ a, t.head ≠ .access a

section
variable {e : Env} {c : Ctx}

theorem toOwner_silent (h : ∀ a, c.st.head ≠ .access a) (x : Entry) (o : AccessOutcome) (ws : List Word32) :
    toOwner e x o ws c = c := by
  unfold toOwner
  split
  · next h1 h2 h3 => exact absurd h2 (h _)
  · rfl

theorem loseWaiting_silent (h : ∀ a, c.st.head ≠ .access a) : loseWaiting c = c := by
  unfold loseWaiting
  split
  · next h1 => exact absurd h1 (h _)
  · rfl

/-- A completion LINK DOWN at a silent station leaves no trace. -/
theorem complete_silent (hs : c.st.silent) (hup : c.st.lp.up = false) (x : Entry) : complete e x .linkDown [] false c = c := by
  obtain ⟨hcap, hts, hhead⟩ := hs
  have hcontrol : controlDone x .linkDown c = c := by
    unfold controlDone
    exact if_neg fun h => absurd h.2 nofun
  unfold complete
  dsimp only
  rw [hcontrol, offerRec_stopped hcap, ite_self, if_neg nofun, report_unarmed e _ hts, toOwner_silent hhead]
  exact congrArg (fun t => Ctx.mk t c.att c.effs) (offerEntries_down hup e)

/-- The entries with the tags of a list leave the table, and their requests the transmit list. -/
def Station.freed (t : Station) (l : List Entry) : Station :=
  { t with
    au := { t.au with entries := t.au.entries.filter fun x => l.all fun y => x.tag != y.tag }
    lp := { t.lp with txList := t.lp.txList.filter fun r => l.all fun y => r.tag != y.tag } }

theorem Station.freed_nil (t : Station) : t.freed [] = t := by
  have htrue : ∀ {α : Type} (l : List α), l.filter (fun _ => true) = l := fun l => List.filter_eq_self.mpr fun _ _ => rfl
  unfold Station.freed
  simp only [List.all_nil, htrue]

theorem Station.freed_cons (t : Station) (x : Entry) (l : List Entry) :
    ({ t with au := t.au.freeTag x.tag, lp := t.lp.dropTag x.tag } : Station).freed l = t.freed (x :: l) := by
  unfold Station.freed AccessUnit.freeTag LinkPort.dropTag
  simp only [List.filter_filter, List.all_cons, Bool.and_comm]

theorem completeDown_silent (hs : c.st.silent) (hup : c.st.lp.up = false) (l : List Entry) :
    completeDown e c l = c.mod (·.freed l) := by
  induction l generalizing c with
  | nil =>
    show c = ⟨c.st.freed [], c.att, c.effs⟩
    rw [Station.freed_nil]
  | cons x xs ih =>
    have hx : (c.freeEntry x.tag).st.silent ∧ (c.freeEntry x.tag).st.lp.up = false := ⟨hs, hup⟩
    unfold completeDown
    rw [complete_silent hx.1 hx.2, ih hx.1 hx.2]
    exact congrArg (fun t => Ctx.mk t c.att c.effs) (Station.freed_cons ..)

theorem Station.freed_all (t : Station) : (t.freed t.au.entries).au.entries = [] := by
  unfold Station.freed
  refine List.filter_eq_nil_iff.mpr fun x hx h => ?_
  have hself := List.all_eq_true.mp h x hx
  simp at hself

/-- The link receiver of a silent station turned off: LP is off, and where the link was UP the table is
empty and LINK CHANGE set (R45, R82). -/
theorem linkOff_silent (hs : c.st.silent) : ∃ lp au,
    linkOff e c = ⟨{ c.st with lp := lp, au := au }, if c.st.lp.up then c.att ||| Attn.linkChange.mask else c.att, c.effs⟩
    ∧ lp.rxOn = false ∧ lp.up = false ∧ lp.packet = none ∧ lp.quiet = none
    ∧ (c.st.lp.up = true → lp.txList = [] ∧ lp.sending = none
        ∧ au = ⟨[], [], false, c.st.au.nextTag, .unknown⟩)
    ∧ (c.st.lp.up = false → au = c.st.au ∧ lp.txList = c.st.lp.txList ∧ lp.sending = c.st.lp.sending) := by
  cases hup : c.st.lp.up with
  | false =>
    have hdown : signalDown e c = c := by
      unfold signalDown
      rw [hup]
      rfl
    unfold linkOff
    rw [hdown]
    exact ⟨_, c.st.au, rfl, rfl, hup, rfl, rfl, nofun, fun _ => ⟨rfl, rfl, rfl⟩⟩
  | true =>
    have hdrop : ∀ c : Ctx, ∃ lp, dropPacket e c = ⟨{ c.st with lp := lp }, c.att, c.effs⟩ ∧ lp.up = c.st.lp.up := by
      intro c
      unfold dropPacket
      split
      · unfold restartQuiet Ctx.modLp Ctx.mod
        dsimp only
        split_ifs <;> exact ⟨_, rfl, rfl⟩
      · exact ⟨_, rfl, rfl⟩
    obtain ⟨lp, hlp, hlpup⟩ := hdrop (c.modLp fun l => { l with up := false })
    have hloss : ∀ d : Ctx, d.st.silent → d.st.lp.up = false →
        auLinkLoss e d = (d.mod (·.freed d.st.au.entries)).modAu fun a =>
          { a with retired := [], holder := false, boardRun := .unknown } := by
      intro d hd hdup
      unfold auLinkLoss
      rw [completeDown_silent hd hdup, loseWaiting_silent]
      exact hd.2.2
    have hdown : signalDown e c = (auLinkLoss e ((dropPacket e (c.modLp fun l => { l with up := false })).modLp fun l =>
        { l with txList := [], sending := none })).setAttn .linkChange := by
      unfold signalDown
      exact if_pos hup
    unfold linkOff
    rw [hdown, hlp, hloss _ (by exact hs) (by exact hlpup)]
    refine ⟨{ lp with rxOn := false, packet := none, quiet := none, txList := [], sending := none },
      ⟨[], [], false, c.st.au.nextTag, .unknown⟩, ?_, rfl, ?_, rfl, rfl, fun _ => ⟨rfl, rfl, rfl⟩, nofun⟩
    · have hfreed := Station.freed_all { c.st with lp := { lp with txList := [], sending := none } }
      exact congrArg (fun es => Ctx.mk { c.st with
        lp := { lp with rxOn := false, packet := none, quiet := none, txList := [], sending := none }
        au := ⟨es, [], false, c.st.au.nextTag, .unknown⟩ } (c.att ||| Attn.linkChange.mask) c.effs) hfreed
    · exact hlpup

/-- A line cut where no record is kept. -/
theorem cutLine_stopped (h : c.st.cap.state = .stopped) : ∃ line idle,
    cutLine e c = ⟨{ c.st with cu := { c.st.cu with line := line, idle := idle } }, c.att, c.effs⟩ ∧ line = [] := by
  unfold cutLine
  split_ifs with hl
  · exact ⟨c.st.cu.line, c.st.cu.idle, rfl, List.isEmpty_iff.mp hl⟩
  · refine ⟨[], none, ?_, rfl⟩
    unfold closeLine
    rw [offerRec_stopped h]
    rfl

end

end Sys2Proof.Machine
end

section
/-! PARK and UNPARK (R32, R34). -/

namespace Sys2Proof.Machine

section
variable {s : State} {n : StationNo} {q : QJob} {qs : List QJob}

/-- Work that ends the job at the head with a change of the station alone. -/
theorem State.withStation_endsWith {f : Env → Ctx → Ctx} {u : Station} {a : BitVec 11} {r : Res} (hu : u.queue = q :: qs)
    (hf : f (s.env n) ⟨s.station n, s.attention, []⟩ = endHead r ⟨u, a, []⟩) :
    s.withStation n f = s.putEnd n u a q.jid r := by
  refine (State.withStation_ends (hf.trans (endHead_cons (c := ⟨u, a, []⟩) r hu))).trans ?_
  unfold State.putEnd
  rw [hu]
  rfl

/-! ## PARK -/

/-- PARK's part of the station once it may park (R32). -/
theorem endPark_silent {e : Env} {t : Station} {a : BitVec 11} (hm : t.mayPark = true) (hh : t.head = .parkWait) :
    ∃ u : Station, endPark e ⟨t, a, []⟩ = endHead (Res.okv 0) ⟨u, if t.lp.up then a ||| Attn.linkChange.mask else a, []⟩
      ∧ u = { t with state := .parked, lp := u.lp, au := u.au, cu := u.cu, bpu := t.bpu.inactivate }
      ∧ u.lp.rxOn = false ∧ u.lp.up = false ∧ u.lp.packet = none ∧ u.lp.quiet = none
      ∧ u.cu.rx = .off ∧ u.cu.line = []
      ∧ (t.lp.up = true → u.au = ⟨[], [], false, t.au.nextTag, .unknown⟩) ∧ (t.lp.up = false → u.au = t.au) := by
  have hready : t.cap.state = .stopped ∧ t.ts.state = .disarmed := by
    unfold Station.mayPark at hm
    simp only [Bool.and_eq_true, beq_iff_eq] at hm
    exact ⟨hm.1.1.2, hm.1.2⟩
  have hsilent : ({ t with bpu := t.bpu.inactivate } : Station).silent := by
    refine ⟨hready.1, ?_, fun x hx => ?_⟩
    · unfold Station.unarmed Sequencer.current
      rw [show ({ t with bpu := t.bpu.inactivate } : Station).ts.state = .disarmed from hready.2]
    · rw [show ({ t with bpu := t.bpu.inactivate } : Station).head = .parkWait from hh] at hx
      cases hx
  obtain ⟨lp, au, hoff, hrx, hup, hpacket, hquiet, hlost, hkept⟩ := linkOff_silent (e := e)
    (c := ⟨{ t with bpu := t.bpu.inactivate }, a, []⟩) hsilent
  obtain ⟨line, idle, hcut, hline⟩ := cutLine_stopped (e := e) (c := ⟨{ t with bpu := t.bpu.inactivate, lp := lp, au := au },
    if t.lp.up then a ||| Attn.linkChange.mask else a, []⟩) hready.1
  refine ⟨{ t with state := .parked, lp := lp, au := au, bpu := t.bpu.inactivate
                   cu := { t.cu with line := line, idle := idle, rx := .off } }, ?_, rfl, hrx, hup, hpacket, hquiet, rfl,
    hline, fun h => (hlost h).2.2, fun h => (hkept h).1⟩
  unfold endPark
  rw [if_pos hm]
  have hfirst : linkOff e (Ctx.modBpu ⟨t, a, []⟩ (·.inactivate)) = ⟨{ t with bpu := t.bpu.inactivate, lp := lp, au := au },
    if t.lp.up then a ||| Attn.linkChange.mask else a, []⟩ := hoff
  dsimp only
  rw [hfirst, hcut]
  rfl

/-! ## The end of a wake interval -/

theorem findBoard_absent {e : Env} (h : e.pin.settled = false) (c : Ctx) :
    findBoard e c = c.modBpu fun b => { b with state := .absent } := if_neg (Bool.eq_false_iff.mp h)

theorem findBoard_seat {e : Env} (h : e.pin.settled = true) (c : Ctx) : findBoard e c = seat e c := if_pos h

/-- The quiet timer of a woken station runs from its full interval (R34). -/
def Station.quietAgain (t : Station) (now : Nat) : Station :=
  { t with lp := { t.lp with quiet := some (now + t.prof.healthMs * 100000) } }

theorem modLp_quietAgain (e : Env) (c : Ctx) : (c.modLp fun l =>
    { l with quiet := some (e.now + c.st.prof.healthMs * Config.ticksPerMs) }) = c.mod (·.quietAgain e.now) := by
  unfold Ctx.modLp Ctx.mod Station.quietAgain Config.ticksPerMs
  rfl

/-- At the end of a wake interval with no board the station is READY and ABSENT. -/
theorem exec_wakeIntervalEnd_absent {d : Nat} (hh : (s.station n).head = .wakeInterval d) (hd : d ≤ s.elapsed)
    (hq : (s.station n).queue = q :: qs) (hp : (s.connector (s.connectorOf n)).settled = false) :
    exec (.wakeIntervalEnd n) s = .next (s.putEnd n { s.station n with
      state := .ready
      lp := { (s.station n).lp with quiet := some (s.elapsed + (s.station n).prof.healthMs * 100000) }
      bpu := { (s.station n).bpu with state := .absent } } s.attention q.jid (Res.okv 0)) := by
  refine congrArg Host.Outcome.next (State.withStation_endsWith hq ?_)
  unfold wakeEnds
  rw [hh]
  dsimp only
  rw [if_pos (show due (some d) (s.env n).now = true from decide_eq_true hd)]
  rw [findBoard_absent (e := s.env n) hp]
  rfl

theorem State.heads_putSeated {t : Station} {h : Head} (ha : h.apart = true) (hh : t.head = h) (hq : t.queue = q :: qs) :
    (s.putSeated n t).heads n h (q :: qs) := by
  have hpower := State.heads_putPower (s := s) (n := n) (h := h) (qs := q :: qs) (u := { t with
    bpu := { t.bpu with state := .seated, cls := (s.connector (s.connectorOf n)).straps } }) hh hq .seated
  unfold State.putSeated
  dsimp only
  split_ifs
  · exact State.heads_putSettle ha (by exact hpower.1) (by exact hpower.2)
  · exact hpower

/-- The work at the end of a wake interval with a board. -/
theorem State.withStation_wakes : s.withStation n (fun e c =>
    (seat e (c.mod (·.quietAgain e.now))).mod fun t => { t with state := .ready })
      = (let w := s.putSeated n ((s.station n).quietAgain s.elapsed)
        w.put n { w.station n with state := .ready } w.attention) := by
  have hseated : s.withStation n (fun e c => seat e (c.mod (·.quietAgain e.now)))
      = s.putSeated n ((s.station n).quietAgain s.elapsed) := by
    rw [State.withStation_after s n (fun e => Passes.seat e) fun e t => t.quietAgain e.now, State.withStation_seat,
      State.put_station, State.putSeated_put]
    rfl
  dsimp only
  rw [← hseated, ← State.withStation_mod _ _ fun t => { t with state := .ready }]
  exact State.withStation_comp (f := fun _ c => c.mod fun t => { t with state := .ready }) (Passes.mod _) _

/-- At the end of a wake interval with a board it is seated, and the station READY. -/
theorem exec_wakeIntervalEnd_seated {d : Nat} {w : State} (hh : (s.station n).head = .wakeInterval d) (hd : d ≤ s.elapsed)
    (hq : (s.station n).queue = q :: qs) (hp : (s.connector (s.connectorOf n)).settled = true)
    (hw : s.putSeated n ((s.station n).quietAgain s.elapsed) = w) :
    exec (.wakeIntervalEnd n) s
      = .next (w.putEnd n { w.station n with state := .ready } w.attention q.jid (Res.okv 0)) := by
  have hdoes : s.withStation n wakeEnds = s.withStation n fun e c => endHead (Res.okv 0)
      ((seat e (c.mod (·.quietAgain e.now))).mod fun t => { t with state := .ready }) := by
    refine State.withStation_congr ?_
    unfold wakeEnds
    rw [hh]
    dsimp only
    rw [if_pos (show due (some d) (s.env n).now = true from decide_eq_true hd)]
    rw [findBoard_seat (e := s.env n) hp, modLp_quietAgain (s.env n) ⟨s.station n, s.attention, []⟩]
  have hheads : w.heads n (.wakeInterval d) (q :: qs) := hw ▸ State.heads_putSeated rfl (by exact hh) (by exact hq)
  have hwakes := State.withStation_wakes (s := s) (n := n)
  rw [hw] at hwakes
  refine congrArg Host.Outcome.next (hdoes.trans ((State.withStation_thenEnd s n (fun e c =>
    (seat e (c.mod (·.quietAgain e.now))).mod fun t => { t with state := .ready }) _).trans ?_))
  rw [hwakes]
  exact State.put_endFirst (u := { w.station n with state := .ready }) hheads.2 _ _

end

/-- Settles O31: PARK's wait and its two ends, UNPARK, and the end of the wake interval. -/
theorem parkAndUnpark : Obligations.ParkAndUnpark := by
  unfold Obligations.ParkAndUnpark
  refine ⟨⟨fun s n q h hready => ?_, fun s n q qs hs hh hq hj => ?_, fun s n q qs d hh hd hq hun hms => ?_⟩,
    fun s n q qs d hh hd hq hp => ?_⟩
  · intro t busy may
    obtain ⟨-, -, -, qs, hq⟩ := id h
    have hexec : exec (.park n) s = .next (s.withStation n fun e => parkJob e) := by
      refine (exec_park_head h.waitingJob).trans (congrArg Host.Outcome.next (State.gated_executed ?_ fun e => parkJob e))
      unfold Station.headRefusal
      rw [hready]
      rfl
    have hidle : ¬ busy → t.au.entries = [] ∧ t.au.holder = false := fun hb => by
      unfold busy at hb
      simpa using hb
    have hends : ¬ busy → parkJob (s.env n) ⟨t, s.attention, []⟩
        = endPark (s.env n) ⟨{ t with head := .parkWait }, s.attention, []⟩ := fun hb => if_pos ⟨rfl, hidle hb⟩
    have hmay : ({ t with head := .parkWait } : Station).mayPark = true ↔ may := by
      unfold Station.mayPark may
      rw [show ({ t with head := .parkWait } : Station).state = .ready from hready]
      simp [and_assoc]
    refine ⟨fun hb => hexec.trans (congrArg Host.Outcome.next (State.withStation_quiet (if_neg ?_))),
      fun hb hm => hexec.trans (congrArg Host.Outcome.next ?_), fun hb hm => ?_⟩
    · rintro ⟨-, he, hholder⟩
      exact hb.elim (fun h => h he) fun h => nomatch hholder.symm.trans h
    · refine (State.withStation_endsWith (u := { t with head := .parkWait }) hq ((hends hb).trans ?_)).trans rfl
      exact if_neg fun h => hm (hmay.mp h)
    · obtain ⟨u, hu, hsame, hrx, hup, hpacket, hquiet, hcrx, hline, hlost, hkept⟩ :=
        endPark_silent (e := s.env n) (a := s.attention) (hmay.mpr hm) rfl
      have hbpu : u.bpu = t.bpu.inactivate := congrArg Station.bpu hsame
      refine ⟨u, hexec.trans (congrArg Host.Outcome.next (State.withStation_endsWith ((congrArg Station.queue hsame).trans hq)
        ((hends hb).trans hu))), ?_, ?_⟩
      · rw [hsame]
      · rw [hbpu]
        refine ⟨rfl, rfl, rfl, rfl, rfl, hrx, hup, hpacket, hquiet, hcrx, hline, ?_⟩
        obtain ⟨he, hholder⟩ := hidle hb
        cases hlp : t.lp.up with
        | true =>
          refine (hlost hlp).trans ?_
          show AccessUnit.mk [] [] false t.au.nextTag .unknown = ⟨t.au.entries, [], t.au.holder, t.au.nextTag, .unknown⟩
          rw [he, hholder]
        | false => exact hkept hlp
  · refine (exec_unpark_head (by rw [Station.waitingJob_of hh hq, hj])).trans (congrArg Host.Outcome.next ?_)
    refine (State.gated_executed ?_ fun e => unparkJob e).trans (State.withStation_quiet ?_)
    · unfold Station.headRefusal
      rw [hs]
      rfl
    · unfold unparkJob Ctx.modLp Ctx.mod consoleOn
      dsimp only
      split_ifs <;> first | rfl | (rename_i h1 h2; exact absurd h1 h2) | (rename_i h1 h2; exact absurd h2 h1)
  · intro t pin lp b
    refine ⟨fun hp => exec_wakeIntervalEnd_absent hh hd hq hp, fun hp => ?_⟩
    have hun' : ({ t with lp := lp, bpu := b } : Station).unarmed := hun
    have hpower : s.putPower n { t with lp := lp, bpu := b } .seated = s.put n
        (({ t with lp := lp, bpu := b } : Station).take (({ t with lp := lp, bpu := b } : Station).offer s.tb (s.powerRec .seated b)))
        (s.attention ||| (({ t with lp := lp, bpu := b } : Station).offer s.tb (s.powerRec .seated b)).bits) :=
      State.putPower_unarmed hun' .seated
    have hbpu := Station.take_bpu { t with lp := lp, bpu := b }
      (({ t with lp := lp, bpu := b } : Station).offer s.tb (s.powerRec .seated b))
    have hprof := Station.take_prof { t with lp := lp, bpu := b }
      (({ t with lp := lp, bpu := b } : Station).offer s.tb (s.powerRec .seated b))
    generalize ({ t with lp := lp, bpu := b } : Station).offer s.tb (s.powerRec .seated b) = o at *
    generalize ({ t with lp := lp, bpu := b } : Station).take o = v at *
    have hend : ∀ u a, (s.put n u a).putEnd n { u with state := .ready } a q.jid (Res.okv 0)
        = s.putEnd n { u with state := .ready } a q.jid (Res.okv 0) := fun u a => by
      unfold State.putEnd
      rw [State.put_put]
    by_cases hm : t.prof.powerMode = .auto
    · have hw : s.putSeated n { t with lp := lp } = s.put n { v with bpu := { v.bpu with
          autoSettle := some (s.elapsed + v.prof.autoSettleMs * 100000) } } (s.attention ||| o.bits) := by
        unfold State.putSeated
        dsimp only
        refine (if_pos hm).trans ?_
        change State.putSettle (s.putPower n { t with lp := lp, bpu := b } .seated) n
          ((s.putPower n { t with lp := lp, bpu := b } .seated).station n) = _
        rw [hpower, State.put_station]
        unfold State.putSettle
        rw [if_neg (by rw [hprof]; exact hms), State.put_put]
        rfl
      rw [if_pos hm]
      refine ⟨_, (exec_wakeIntervalEnd_seated hh hd hq hp hw).trans (congrArg Host.Outcome.next ?_), rfl⟩
      rw [State.put_station, State.put_attention, hend, hbpu, hprof]
      rfl
    · have hw : s.putSeated n { t with lp := lp } = s.put n v (s.attention ||| o.bits) := by
        unfold State.putSeated
        dsimp only
        exact (if_neg hm).trans hpower
      rw [if_neg hm]
      refine ⟨_, (exec_wakeIntervalEnd_seated hh hd hq hp hw).trans (congrArg Host.Outcome.next ?_), rfl⟩
      rw [State.put_station, State.put_attention, hend]
      exact congrArg (fun x => s.putEnd n { v with state := .ready, bpu := x } (s.attention ||| o.bits) q.jid (Res.okv 0)) hbpu
  · intro t seated woken
    exact ⟨fun hm => exec_wakeIntervalEnd_seated hh hd hq hp (if_neg hm),
      fun hm => exec_wakeIntervalEnd_seated hh hd hq hp (if_pos hm)⟩

end Sys2Proof.Machine
end

section
/-! QUIESCE and the end of its drain (R36). -/

namespace Sys2Proof.Machine

/-- Steps 1 and 2 of QUIESCE at a station (R36). -/
theorem quiesceJob_eq {e : Env} {t : Station} {a : BitVec 11} :
    ∃ u : Station, quiesceJob e ⟨t, a, []⟩ = ⟨u, if t.lp.up then a ||| Attn.linkChange.mask else a, []⟩
      ∧ u = { t with head := .quiesceDrain, cap := t.cap.cut, ts := ⟨.disarmed, none, Vector.replicate 4 none⟩
                     bpu := t.bpu.inactivate, lp := u.lp, au := u.au, cu := u.cu }
      ∧ u.lp.rxOn = false ∧ u.lp.up = false ∧ (t.lp.up = true → u.au = ⟨[], [], false, t.au.nextTag, .unknown⟩)
      ∧ u.cu.rx = .off ∧ u.cu.line = [] := by
  have hleft : ∀ c : Ctx, c.st.cap.state = .stopped → c.st.head = .quiesceDrain → ∃ cu,
      powerLeft e .none c = ⟨{ c.st with cu := cu }, c.att, c.effs⟩ := by
    intro c hc hh
    obtain ⟨line, idle, hcut, -⟩ := cutLine_stopped (e := e) hc
    unfold powerLeft endSend
    rw [hcut]
    dsimp only
    rw [hh]
    exact ⟨_, rfl⟩
  have hfirst : ∃ cu, (if t.bpu.state == .on then powerLeft e .none ⟨{ t with
        head := .quiesceDrain, cap := t.cap.cut, ts := ⟨.disarmed, none, Vector.replicate 4 none⟩
        cu := { t.cu with patterns := [] }, bpu := t.bpu.inactivate }, a, []⟩
      else ⟨{ t with
        head := .quiesceDrain, cap := t.cap.cut, ts := ⟨.disarmed, none, Vector.replicate 4 none⟩
        cu := { t.cu with patterns := [] }, bpu := t.bpu.inactivate }, a, []⟩)
      = (⟨{ t with head := .quiesceDrain, cap := t.cap.cut, ts := ⟨.disarmed, none, Vector.replicate 4 none⟩
                   cu := cu, bpu := t.bpu.inactivate }, a, []⟩ : Ctx) := by
    split_ifs
    · exact hleft _ rfl rfl
    · exact ⟨_, rfl⟩
  obtain ⟨cu, hcu⟩ := hfirst
  obtain ⟨lp, au, hoff, hrx, hup, -, -, hlost, -⟩ := linkOff_silent (e := e) (c := ⟨{ t with
    head := .quiesceDrain, cap := t.cap.cut, ts := ⟨.disarmed, none, Vector.replicate 4 none⟩, cu := cu
    bpu := t.bpu.inactivate }, a, []⟩) ⟨rfl, rfl, nofun⟩
  obtain ⟨line, idle, hcut, hline⟩ := cutLine_stopped (e := e) (c := ⟨{ t with
    head := .quiesceDrain, cap := t.cap.cut, ts := ⟨.disarmed, none, Vector.replicate 4 none⟩, cu := cu
    bpu := t.bpu.inactivate, lp := lp, au := au }, if t.lp.up then a ||| Attn.linkChange.mask else a, []⟩) rfl
  refine ⟨{ t with
    head := .quiesceDrain, cap := t.cap.cut, ts := ⟨.disarmed, none, Vector.replicate 4 none⟩
    cu := { cu with line := line, idle := idle, rx := .off }
    bpu := t.bpu.inactivate, lp := lp, au := au }, ?_, rfl, hrx, hup, fun h => (hlost h).2.2, rfl, hline⟩
  have hdoes : quiesceJob e ⟨t, a, []⟩ = (cutLine e (linkOff e (if t.bpu.state == .on then powerLeft e .none ⟨{ t with
        head := .quiesceDrain, cap := t.cap.cut, ts := ⟨.disarmed, none, Vector.replicate 4 none⟩
        cu := { t.cu with patterns := [] }, bpu := t.bpu.inactivate }, a, []⟩
      else ⟨{ t with
        head := .quiesceDrain, cap := t.cap.cut, ts := ⟨.disarmed, none, Vector.replicate 4 none⟩
        cu := { t.cu with patterns := [] }, bpu := t.bpu.inactivate }, a, []⟩))).mod consoleOff := rfl
  have hoff' : linkOff e ⟨{ t with
    head := .quiesceDrain, cap := t.cap.cut, ts := ⟨.disarmed, none, Vector.replicate 4 none⟩, cu := cu
    bpu := t.bpu.inactivate }, a, []⟩ = ⟨{ t with
    head := .quiesceDrain, cap := t.cap.cut, ts := ⟨.disarmed, none, Vector.replicate 4 none⟩, cu := cu
    bpu := t.bpu.inactivate, lp := lp, au := au }, if t.lp.up then a ||| Attn.linkChange.mask else a, []⟩ := hoff
  rw [hdoes, hcu, hoff', hcut]
  rfl

section
variable {s : State} {n : StationNo} {q : QJob} {qs : List QJob}

/-- The end of a drain at a station just put (R36 step 4). -/
theorem State.put_finishQuiesce {u : Station} (hq : u.queue = q :: qs) (a : BitVec 11) (k : Nat) :
    (s.put n u a).withStation n (fun _ => finishQuiesce k) = s.putEnd n (offAfterQuiesce u) a q.jid (Res.okv k) := by
  have hends : finishQuiesce k ⟨u, a, []⟩
      = ⟨{ offAfterQuiesce u with queue := (offAfterQuiesce u).queue.tail, head := .waiting }, a, [.jobEnd q.jid (Res.okv k)]⟩ := by
    unfold finishQuiesce
    rw [endHead_cons (c := ⟨u, a, []⟩) _ hq]
    show Ctx.mk (offAfterQuiesce { u with queue := qs, head := .waiting }) a _
      = Ctx.mk { offAfterQuiesce u with queue := u.queue.tail, head := .waiting } a _
    rw [hq]
    rfl
  refine (State.put_withStation ..).trans ((State.withStation_ends hends).trans ?_)
  rfl

theorem Station.drained_iff {u : Station} (h : u.head = .quiesceDrain) :
    u.drained = true ↔ u.cap.staging = [] ∧ u.pg.page = none := by
  unfold Station.drained
  rw [h]
  simp

/-- QUIESCE's check at a station just put. -/
theorem State.put_quiesceCheck (u : Station) (a : BitVec 11) : (s.put n u a).quiesceCheck n
    = if s.draining && u.drained then (s.put n u a).withStation n fun _ => finishQuiesce 0 else s.put n u a := by
  unfold State.quiesceCheck
  rw [State.put_station]
  rfl

/-- The issue of the FULL write of an open page outside a halt and a resumption. -/
theorem exec_accessGrant_sealFull {addr : Word64} {d : List Byte} (hhalt : s.halting = false)
    (hres : s.resuming = false) (hg : s.nextGrant = some (Access.writeOf .page (some n) addr d (.sealFull false))) :
    exec .accessGrant s = .next ((s.issuing (Access.writeOf .page (some n) addr d (.sealFull false))).pageSealed n) := by
  refine (exec_accessGrant hg).trans (congrArg Host.Outcome.next ?_)
  change State.settleSeals (State.pageSealed _ n) = _
  have hframe := (s.issuing (Access.writeOf .page (some n) addr d (.sealFull false))).issueEffect_seal n addr d
    (w := .sealFull false) rfl
  obtain ⟨stations, held, jobQ, hframe⟩ := hframe
  change State.pageSealed _ n = _ at hframe
  rw [State.settleSeals_none]
  · rw [hframe]
    exact hhalt
  · rw [hframe]
    exact hres

end

/-- Settles O32: QUIESCE's two steps, then its drain's ends at a FULL write. -/
theorem quiesceCutsThenDrains : Obligations.QuiesceCutsThenDrains := by
  unfold Obligations.QuiesceCutsThenDrains
  refine ⟨fun s n q h => ?_, fun s n q qs addr d p => ?_⟩
  · intro t a waits cut
    obtain ⟨-, -, -, qs, hq⟩ := id h
    obtain ⟨u, hu, hsame, hrx, hup, hlost, hcrx, hline⟩ := quiesceJob_eq (e := s.env n) (t := t) (a := s.attention)
    have hcap : u.cap = t.cap.cut := by rw [hsame]
    have hpg : u.pg = t.pg := by rw [hsame]
    have hts : u.ts = ⟨.disarmed, none, Vector.replicate 4 none⟩ := by rw [hsame]
    have hbpu : u.bpu = t.bpu.inactivate := by rw [hsame]
    have hqueue : u.queue = t.queue := by rw [hsame]
    have hhead : u.head = .quiesceDrain := by rw [hsame]
    have hstate : u.state = t.state := by rw [hsame]
    have hpageQ : u.pageQ = t.pageQ := by rw [hsame]
    have hexec : exec (.quiesce n) s = .next ((s.put n u a).quiesceCheck n) := by
      refine (exec_quiesce_head h.waitingJob).trans (congrArg (fun w => Host.Outcome.next (State.quiesceCheck w n)) ?_)
      exact (State.gated_executed (h.executes nofun nofun) fun e => quiesceJob e).trans (State.withStation_quiet hu)
    rw [State.put_quiesceCheck] at hexec
    have hdrained : (s.draining && u.drained) = true ↔ ¬ waits := by
      rw [Bool.and_eq_true, Station.drained_iff hhead, hcap, hpg]
      unfold waits State.draining Capture.cut
      simp only [Bool.and_eq_true, beq_iff_eq, Bool.not_eq_true', not_or, ne_eq, not_not, Bool.not_eq_true]
      tauto
    have hcut : ∀ v : Station, v.cap.history = [] → v.cap.state = .stopped → v.cap.staging = t.cap.staging → v.ts = u.ts →
        v.bpu = u.bpu → v.lp = u.lp → v.au = u.au → v.cu = u.cu → v.pg.page = u.pg.page → cut v := by
      intro v h1 h2 h3 h4 h5 h6 h7 h8 h9
      unfold cut
      rw [h4, h5, h6, h7, h8, h9, hts, hbpu, hpg]
      refine ⟨h1, h2, h3, rfl, rfl, rfl, hrx, hup, fun hx => ?_, hcrx, hline, rfl⟩
      rw [hlost hx]
      exact ⟨rfl, rfl, rfl⟩
    refine ⟨fun hw => ⟨u, hexec.trans (congrArg Host.Outcome.next (if_neg fun hx => hdrained.mp hx hw)), ?_, hhead, hqueue,
      hstate, hpg, hpageQ, ?_⟩, fun hw => ⟨offAfterQuiesce u, hexec.trans (congrArg Host.Outcome.next
        ((if_pos (hdrained.mpr hw)).trans (State.put_finishQuiesce (hqueue.trans hq) a 0))), ?_, rfl, rfl, rfl, rfl⟩⟩
    · refine hcut u ?_ ?_ ?_ rfl rfl rfl rfl rfl rfl <;> rw [hcap] <;> rfl
    · rw [hcap]
      exact ⟨rfl, rfl, rfl⟩
    · have hstaging : t.cap.staging = [] := by
        by_contra hne
        exact hw (.inl hne)
      exact hcut (offAfterQuiesce u) rfl rfl hstaging.symm rfl rfl rfl rfl rfl rfl
  · intro a hrun hhalt hres hg hq hh hp t g att u off
    have hexec := exec_accessGrant_sealFull hhalt hres hg
    have hstation : (s.issuing a).station n = { t with pageQ := t.pageQ.erase a } := Vector.getElem_set_self ..
    have hput : ((s.issuing a).modPage n fun g =>
        { g with page := none, sealing := none, inHand := none
                 mark := g.mark.filter fun m => m.count != 0 }).setAttn .pageSealed = g.put n u att := by
      have hpage : ∀ f, ((s.issuing a).modPage n f).setAttn .pageSealed
          = (s.issuing a).put n { (s.issuing a).station n with pg := f ((s.issuing a).station n).pg } att := fun f => rfl
      rw [hpage, hstation]
      rfl
    have hsealing : ((s.issuing a).station n).pg = t.pg := by rw [hstation]
    have hsealed : (s.issuing a).pageSealed n = if t.pg.sealing = some .quiesce then
        (g.put n u att).withStation n (fun _ => finishQuiesce p.serial) else (g.put n u att).quiesceCheck n := by
      unfold State.pageSealed
      dsimp only
      rw [hput, hsealing, hp]
      rfl
    have hdrains : g.draining = true := (State.draining_iff (s := g)).mpr ⟨hrun, hhalt⟩
    refine ⟨fun hs => hexec.trans (congrArg Host.Outcome.next (hsealed.trans ((if_pos hs).trans ?_))),
      fun hs hst => hexec.trans (congrArg Host.Outcome.next (hsealed.trans ((if_neg hs).trans ?_))),
      fun hs hst => hexec.trans (congrArg Host.Outcome.next (hsealed.trans ((if_neg hs).trans ?_)))⟩
    · exact State.put_finishQuiesce (s := g) (u := u) (q := q) (qs := qs) hq att p.serial
    · rw [State.put_quiesceCheck, if_pos]
      · exact State.put_finishQuiesce (s := g) (u := u) (q := q) (qs := qs) hq att 0
      · rw [hdrains, (Station.drained_iff (u := u) hh).mpr ⟨hst, rfl⟩]
        rfl
    · rw [State.put_quiesceCheck, if_neg]
      rw [hdrains, Bool.true_and]
      exact fun hx => hst ((Station.drained_iff (u := u) hh).mp hx).1

end Sys2Proof.Machine
end

section
/-! CONFIGURE: the profile record's checks, and the profile put in force (R30, R31, R107). -/

namespace Sys2Proof.Machine

/-! ## The profile record (Tables 2-3, 12-13) -/

/-- The fields of a profile record as read. -/
def rawProfile (d : List Byte) : Profile :=
  { timeShift := field d 1 1, historySize := field d 2 2, flushMs := field d 4 2, channelMask := byteAt d 6
    payloadLimit := field d 8 2, responseTimeout := field d 10 2, requestWords := field d 12 1
    accessLogging := field d 7 1 == 1, healthMs := field d 16 2, consoleEnable := field d 13 1 == 1
    divisor := field d 20 2, lineLimit := field d 14 2, idleCloseMs := field d 18 2
    powerMode := (powerModeOf (field d 22 1)).getD .off, classMask := byteAt d 23
    autoSettleMs := field d 24 2, rampMs := field d 26 2, inrushMs := field d 28 1, overloadUs := field d 30 2
    cooldownMs := field d 32 2, retryLimit := field d 29 1, resetDelayMs := field d 34 2 }

/-- A profile brought into its ranges (Table 2-3). -/
def Profile.inRange (p : Profile) : Profile :=
  { p with
    timeShift := clamp 0 8 p.timeShift, flushMs := clamp 1 10000 p.flushMs
    payloadLimit := clamp 16 1024 p.payloadLimit, responseTimeout := clamp 1 65535 p.responseTimeout
    requestWords := clamp 1 64 p.requestWords, healthMs := clamp 1 1000 p.healthMs
    divisor := clamp 20 65535 p.divisor, lineLimit := clamp 16 512 p.lineLimit
    idleCloseMs := clamp 1 1000 p.idleCloseMs, autoSettleMs := clamp 0 10000 p.autoSettleMs
    rampMs := clamp 1 2000 p.rampMs, inrushMs := clamp 0 100 p.inrushMs
    overloadUs := clamp 10 65535 p.overloadUs, cooldownMs := clamp 100 60000 p.cooldownMs
    retryLimit := clamp 0 7 p.retryLimit, resetDelayMs := clamp 0 10000 p.resetDelayMs }

theorem clamp_eq_self_iff {lo hi : Nat} (h : lo ≤ hi) (v : Nat) : clamp lo hi v = v ↔ lo ≤ v ∧ v ≤ hi := by
  unfold clamp
  omega

theorem profileOf_eq (d : List Byte) : profileOf d =
    if field d 0 1 = 1 ∧ field d 2 2 ∈ [0, 2048, 4096, 8192] ∧ field d 7 1 ≤ 1 ∧ field d 13 1 ≤ 1 ∧ field d 22 1 ≤ 2 then
      some ((rawProfile d).inRange, decide ((rawProfile d).inRange ≠ rawProfile d))
    else none := rfl

/-- A profile is in its ranges exactly when each field is (Table 2-3). -/
theorem Profile.inRange_eq_iff (p : Profile) : p.inRange = p ↔
    p.timeShift ≤ 8 ∧ (1 ≤ p.flushMs ∧ p.flushMs ≤ 10000) ∧ (16 ≤ p.payloadLimit ∧ p.payloadLimit ≤ 1024)
      ∧ (1 ≤ p.responseTimeout ∧ p.responseTimeout ≤ 65535) ∧ (1 ≤ p.requestWords ∧ p.requestWords ≤ 64)
      ∧ (1 ≤ p.healthMs ∧ p.healthMs ≤ 1000) ∧ (20 ≤ p.divisor ∧ p.divisor ≤ 65535)
      ∧ (16 ≤ p.lineLimit ∧ p.lineLimit ≤ 512) ∧ (1 ≤ p.idleCloseMs ∧ p.idleCloseMs ≤ 1000)
      ∧ p.autoSettleMs ≤ 10000 ∧ (1 ≤ p.rampMs ∧ p.rampMs ≤ 2000) ∧ p.inrushMs ≤ 100
      ∧ (10 ≤ p.overloadUs ∧ p.overloadUs ≤ 65535) ∧ (100 ≤ p.cooldownMs ∧ p.cooldownMs ≤ 60000)
      ∧ p.retryLimit ≤ 7 ∧ p.resetDelayMs ≤ 10000 := by
  obtain ⟨⟩ := p
  unfold Profile.inRange
  simp [clamp_eq_self_iff]

theorem powerModeOf_code {k : Nat} (h : k ≤ 2) :
    k = match (powerModeOf k).getD .off with | .off => 0 | .manual => 1 | .auto => 2 := by
  interval_cases k <;> rfl

theorem field_word_lt (d : List Byte) (o : Nat) : field d o 2 < 65536 := leNat_take_lt ..

/-! ## A profile put in force (R31) -/

/-- A station with capture STOPPED and profile `p` in force, before a change of its power mode. -/
def Station.configured (t : Station) (p : Profile) : Station :=
  { t with
    profile := some p
    cap := if p.timeShift = t.prof.timeShift then t.cap
      else { t.cap with ref := { t.cap.ref with valid := false, reason := .enable } }
    cu := if t.prof.consoleEnable = true ∧ p.consoleEnable = false then
        { t.cu with rx := .off, line := [], idle := if t.cu.line = [] then t.cu.idle else none }
      else if t.prof.consoleEnable = false ∧ p.consoleEnable = true then { t.cu with rx := .idle }
      else t.cu }

/-- A line cut where no record is kept, its idle timer stopped. -/
theorem cutLine_discards {e : Env} {c : Ctx} (h : c.st.cap.state = .stopped) : cutLine e c = c.mod fun t =>
    { t with cu := { t.cu with line := [], idle := if t.cu.line = [] then t.cu.idle else none } } := by
  unfold cutLine
  by_cases hl : c.st.cu.line = []
  · rw [if_pos (List.isEmpty_iff.mpr hl)]
    unfold Ctx.mod
    dsimp only
    rw [if_pos hl]
    exact congrArg (fun l => Ctx.mk { c.st with cu := { c.st.cu with line := l } } c.att c.effs) hl
  · rw [if_neg (fun h => hl (List.isEmpty_iff.mp h))]
    unfold closeLine Ctx.mod
    dsimp only
    rw [offerRec_stopped h, if_neg hl]
    rfl

/-- What a profile does at a station with capture STOPPED, but for a change of mode. -/
theorem applyProfile_stopped {e : Env} {t : Station} (h : t.cap.state = .stopped) (a : BitVec 11) (p : Profile) :
    applyProfile e p ⟨t, a, []⟩ = if t.prof.powerMode = p.powerMode then ⟨t.configured p, a, []⟩
      else changeMode e t.prof.powerMode p.powerMode ⟨t.configured p, a, []⟩ := by
  have hcap : (if p.timeShift = t.prof.timeShift then t.cap
      else { t.cap with ref := { t.cap.ref with valid := false, reason := .enable } })
      = if t.prof.timeShift = p.timeShift then t.cap else t.cap.invalidate .enable := by
    by_cases hs : t.prof.timeShift = p.timeShift
    · rw [if_pos hs.symm, if_pos hs]
    · rw [if_neg (Ne.symm hs), if_neg hs]
      rfl
  have hstopped : (if t.prof.timeShift = p.timeShift then t.cap else t.cap.invalidate .enable).state = .stopped := by
    split_ifs <;> exact h
  have hconsole : consoleChange e t.prof.consoleEnable p.consoleEnable
      ⟨{ t with profile := some p, cap := if t.prof.timeShift = p.timeShift then t.cap else t.cap.invalidate .enable }, a, []⟩
      = ⟨t.configured p, a, []⟩ := by
    unfold Station.configured
    rw [hcap]
    cases ho : t.prof.consoleEnable <;> cases hn : p.consoleEnable
    · rfl
    · unfold consoleChange consoleOn Station.prof Ctx.mod
      dsimp only [Option.getD_some]
      rw [if_pos hn]
      rfl
    · unfold consoleChange
      dsimp only
      rw [cutLine_discards hstopped]
      rfl
    · rfl
  unfold applyProfile
  dsimp only
  exact (congrArg (fun c => if t.prof.powerMode = p.powerMode then c else changeMode e t.prof.powerMode p.powerMode c) hconsole)

section
variable {s : State} {n : StationNo} {q : QJob} {qs : List QJob} {id : Nat} {d : List Byte} {addr : Word64}

/-- The profile record arrives for the CONFIGURE that waits for it. -/
theorem exec_profileReadDone (hd : d.length = 64) (ha : s.awaits id ⟨.job, some n, addr, 64, none, .profileRead q.jid n⟩)
    (hq : (s.station n).queue = q :: qs) (hh : (s.station n).head = .profileRead) :
    exec (.profileReadDone id d) s = .next ((s.endRead id).withStation n fun e c => profileArrives e d c) := by
  refine congrArg Host.Outcome.next ((State.completeRead_awaited ha hd.symm nofun).trans ?_)
  have hjid : ((s.endRead id).station n).headJid = some q.jid := by
    show ((s.station n).queue.head?.map QJob.jid) = some q.jid
    rw [hq]
    rfl
  show State.payloadArrives (s.endRead id) q.jid n _ = _
  unfold State.payloadArrives
  rw [if_pos hjid]
  exact State.withStation_congr (if_pos hh)

end

/-- Settles O30: CONFIGURE's read, its end by the record, and the record's checks. -/
theorem configureTakesProfile : Obligations.ConfigureTakesProfile := by
  unfold Obligations.ConfigureTakesProfile
  refine ⟨fun s n q addr h => ?_, fun s id d n q qs addr hd ha hq hh hc => ?_, fun d => ?_⟩
  · obtain ⟨-, -, -, qs, hq⟩ := id h
    have hexec := (exec_configure_head h.waitingJob).trans
      (congrArg Host.Outcome.next (State.gated_executed (h.executes nofun nofun) fun e => configureJob e addr))
    refine ⟨fun hok => hexec.trans (congrArg Host.Outcome.next ?_), fun hno => hexec.trans (congrArg Host.Outcome.next ?_)⟩
    · have hjid : (s.station n).jidD = q.jid := by
        unfold Station.jidD Station.headJid
        rw [hq]
        rfl
      refine State.withStation_presents ?_
      refine (if_pos hok).trans ?_
      show (Ctx.mk _ _ [.present (Access.readOf .job (some n) addr 64 (.profileRead (s.station n).jidD n))]) = _
      rw [hjid]
      rfl
    · exact State.withStation_endsWith (u := s.station n) hq (if_neg hno)
  · intro t
    have hexec := exec_profileReadDone hd ha hq hh
    refine ⟨fun hnone => hexec.trans (congrArg Host.Outcome.next ?_), fun p clamped hsome => ?_⟩
    · refine State.withStation_endsWith (s := s.endRead id) (u := t) hq ?_
      unfold profileArrives
      rw [hnone]
      rfl
    · intro conf
      have happly := fun e => applyProfile_stopped (e := e) hc s.attention p
      refine ⟨fun hm => hexec.trans (congrArg Host.Outcome.next ?_), fun hm => hexec.trans (congrArg Host.Outcome.next ?_)⟩
      · refine State.withStation_endsWith (s := s.endRead id) (u := conf) hq ?_
        unfold profileArrives
        rw [hsome]
        exact congrArg (endHead ⟨.ok, clamped, 0, 0⟩) ((happly _).trans (if_pos hm.symm))
      · have hchange : (s.endRead id).withStation n (fun e c => changeMode e t.prof.powerMode p.powerMode (c.mod fun _ => conf))
            = (s.endRead id).putMode n conf t.prof.powerMode p.powerMode := by
          rw [State.withStation_after (s.endRead id) n (fun e => Passes.changeMode e _ _) fun _ _ => conf,
            State.withStation_changeMode, State.put_station, State.putMode_put]
        have hheads : ((s.endRead id).putMode n conf t.prof.powerMode p.powerMode).heads n .profileRead (q :: qs) :=
          State.heads_putMode rfl (by exact hh) (by exact hq) _ _
        refine Eq.trans (State.withStation_congr (g := fun e c => endHead ⟨.ok, clamped, 0, 0⟩
          (changeMode e t.prof.powerMode p.powerMode (c.mod fun _ => conf))) ?_)
          ((State.withStation_thenEnd _ n (fun e c => changeMode e t.prof.powerMode p.powerMode (c.mod fun _ => conf)) _).trans
            ((congrArg (State.endFirst · n ⟨.ok, clamped, 0, 0⟩) hchange).trans (hheads.endFirst _)))
        unfold profileArrives
        rw [hsome]
        exact congrArg (endHead ⟨.ok, clamped, 0, 0⟩) ((happly _).trans (if_neg (Ne.symm hm)))
  · intro f
    have hb := fun o => field_byte_lt d o
    have hw := fun o => field_word_lt d o
    rw [profileOf_eq]
    refine ⟨?_, fun p clamped hp => ?_⟩
    · rw [ite_eq_right_iff]
      simp only [reduceCtorEq, imp_false, not_and_or, not_le, f, ne_eq]
    · obtain ⟨⟨-, hsize, -, -, hmode⟩, hsome⟩ := (Option.ite_none_right_eq_some ..).mp hp
      obtain ⟨rfl, rfl⟩ := Prod.mk.inj (Option.some.inj hsome)
      have hcode := powerModeOf_code hmode
      have hlow : ∀ hi v, clamp 0 hi v = min hi v := fun hi v => Nat.zero_max ..
      have hrange := Profile.inRange_eq_iff (rawProfile d)
      refine ⟨hlow .., rfl, rfl, beq_iff_eq, beq_iff_eq, rfl, hcode, rfl, rfl, rfl, rfl, rfl, rfl, rfl, rfl, hlow .., rfl,
        hlow .., rfl, rfl, hlow .., hlow .., ?_⟩
      rw [decide_eq_true_iff, ne_eq, hrange]
      have h10 := hw 10
      have h20 := hw 20
      have h30 := hw 30
      simp only [rawProfile, f]
      omega

end Sys2Proof.Machine
end

section
/-! Access jobs issue their requests (R66, R67, R76 to R80). -/

namespace Sys2Proof.Machine

/-! ## The transmitter keeps the link state -/

theorem LinkPort.kick_up (l : LinkPort) : l.kick.up = l.up := by
  unfold LinkPort.kick
  split
  · split_ifs <;> rfl
  · rfl

theorem LinkPort.enqueue_up (l : LinkPort) (r : TxReq) (front : Bool) : (l.enqueue r front).up = l.up := LinkPort.kick_up _

/-! ## Requests issued one after the other -/

section
variable (t : Station) (now : Nat) (o : Owner)

theorem Station.issued_au (l : List ReqSpec) : (t.issued now o l).au.retired = t.au.retired
    ∧ (t.issued now o l).au.holder = t.au.holder
    ∧ ∃ added, (t.issued now o l).au.entries = t.au.entries ++ added ∧ added.length = l.length
      ∧ added.map (fun x => (x.op, x.addr, x.count, x.offset, x.issuedAt))
        = l.map fun r => (r.op, r.addr, r.count, r.offset, now) := by
  induction l generalizing t with
  | nil => exact ⟨rfl, rfl, [], (List.append_nil _).symm, rfl, rfl⟩
  | cons r rest ih =>
    obtain ⟨hretired, hholder, added, hentries, hlen, hmap⟩ := ih (t.issued now o [r])
    refine ⟨hretired, hholder, r.entry t.au.pickTag now t.prof.responseTimeout o :: added, ?_, ?_, ?_⟩
    · refine hentries.trans ?_
      show (t.au.entries ++ [_]) ++ added = _
      rw [List.append_assoc]
      rfl
    · rw [List.length_cons, List.length_cons, hlen]
    · rw [List.map_cons, List.map_cons, hmap]
      rfl

end

/-! ## The executing job's next requests (R67, R80) -/

section
variable {e : Env} {t : Station} {q : QJob} {qs : List QJob} {oks : List (Nat × Nat)} {ticks : Nat}

theorem issueNext_cons {r : ReqSpec} {rest : List ReqSpec} {fl : Nat} (hh : t.head = .access ⟨r :: rest, fl, none, oks, ticks⟩)
    (hq : t.queue = q :: qs) (hcan : (t.lp.up && t.au.hasFree && !t.au.holder && (none : Option AccessOutcome).isNone) = true) :
    issueNext e t = issueReq e r (.job q.jid q.hostRef) false { t with head := .access ⟨rest, fl + 1, none, oks, ticks⟩ } := by
  unfold issueNext
  rw [hh, hq]
  exact if_pos hcan

/-- The executing job issues its next request into a free entry. -/
theorem issueNext_issues {r : ReqSpec} {rest : List ReqSpec} {fl : Nat} (hq : t.queue = q :: qs) (hup : t.lp.up = true)
    (hholder : t.au.holder = false) (hfree : t.au.entries.length < 4) :
    issueNext e { t with head := .access ⟨r :: rest, fl, none, oks, ticks⟩ }
      = { t.issued e.now (.job q.jid q.hostRef) [r] with head := .access ⟨rest, fl + 1, none, oks, ticks⟩ } := by
  have hcan : (t.lp.up && t.au.hasFree && !t.au.holder && (none : Option AccessOutcome).isNone) = true := by
    unfold AccessUnit.hasFree
    rw [hup, hholder, decide_eq_true (show t.au.entries.length < Config.maxEntries from hfree)]
    rfl
  exact issueNext_cons (t := { t with head := .access ⟨r :: rest, fl, none, oks, ticks⟩ }) rfl hq hcan

/-- With no request left, or no entry free, nothing is issued. -/
theorem issueNext_waits {reqs : List ReqSpec} {fl : Nat} (h : reqs = [] ∨ 4 ≤ t.au.entries.length) :
    issueNext e { t with head := .access ⟨reqs, fl, none, oks, ticks⟩ }
      = { t with head := .access ⟨reqs, fl, none, oks, ticks⟩ } := by
  unfold issueNext
  dsimp only
  split
  · next h1 h2 =>
    obtain rfl := Head.access.inj h1
    dsimp only
    cases reqs with
    | nil => rfl
    | cons r rest =>
      have hfull : 4 ≤ t.au.entries.length := h.resolve_left nofun
      have hno : ¬ (t.lp.up && t.au.hasFree && !t.au.holder && (none : Option AccessOutcome).isNone) = true := by
        unfold AccessUnit.hasFree
        rw [decide_eq_false (show ¬ t.au.entries.length < Config.maxEntries from Nat.not_lt.mpr hfull)]
        simp
      exact if_neg hno
  · rfl

/-- A number of offers of free entries to the executing job. -/
def issueTimes (e : Env) : Nat → Station → Station
  | 0, t => t
  | m + 1, t => issueTimes e m (issueNext e t)

/-- As many requests are issued, in order, as there are free entries. -/
theorem issueTimes_eq (m : Nat) (hq : t.queue = q :: qs) (hup : t.lp.up = true) (hholder : t.au.holder = false)
    (reqs : List ReqSpec) (fl : Nat) :
    issueTimes e m { t with head := .access ⟨reqs, fl, none, oks, ticks⟩ }
      = { t.issued e.now (.job q.jid q.hostRef) (reqs.take (min m (4 - t.au.entries.length))) with
          head := .access ⟨reqs.drop (min m (4 - t.au.entries.length)),
            fl + min (min m (4 - t.au.entries.length)) reqs.length, none, oks, ticks⟩ } := by
  induction m generalizing t reqs fl with
  | zero =>
    rw [Nat.zero_min, Nat.zero_min]
    rfl
  | succ m ih =>
    unfold issueTimes
    by_cases hfree : t.au.entries.length < 4
    · cases reqs with
      | nil =>
        rw [issueNext_waits (.inl rfl), ih hq hup hholder]
        simp
      | cons r rest =>
        have hnext := issueNext_issues (e := e) (oks := oks) (ticks := ticks) (r := r) (rest := rest) (fl := fl) hq hup hholder hfree
        rw [hnext]
        have hlen : (t.issued e.now (.job q.jid q.hostRef) [r]).au.entries.length = t.au.entries.length + 1 :=
          List.length_append
        have hk : min (m + 1) (4 - t.au.entries.length) = min m (4 - (t.au.entries.length + 1)) + 1 := by omega
        rw [ih (t := t.issued e.now (.job q.jid q.hostRef) [r]) hq ((LinkPort.enqueue_up ..).trans hup) hholder, hlen, hk]
        have hfly : fl + 1 + min (min m (4 - (t.au.entries.length + 1))) rest.length
            = fl + min (min m (4 - (t.au.entries.length + 1)) + 1) (rest.length + 1) := by omega
        rw [hfly]
        rfl
    · have hfull : 4 ≤ t.au.entries.length := Nat.not_lt.mp hfree
      rw [issueNext_waits (.inr hfull), ih hq hup hholder, Nat.sub_eq_zero_of_le hfull]
      simp

/-- The free entries go to the executing job, the holder being empty. -/
theorem offerEntries_eq (hq : t.queue = q :: qs) (hup : t.lp.up = true) (hholder : t.au.holder = false)
    (reqs : List ReqSpec) (fl : Nat) :
    offerEntries e { t with head := .access ⟨reqs, fl, none, oks, ticks⟩ }
      = { t.issued e.now (.job q.jid q.hostRef) (reqs.take (4 - t.au.entries.length)) with
          head := .access ⟨reqs.drop (4 - t.au.entries.length),
            fl + min (4 - t.au.entries.length) reqs.length, none, oks, ticks⟩ } := by
  have hnone : issueHolder e { t with head := .access ⟨reqs, fl, none, oks, ticks⟩ }
      = { t with head := .access ⟨reqs, fl, none, oks, ticks⟩ } := by
    unfold issueHolder
    simp [hholder]
  have htimes := issueTimes_eq (e := e) (oks := oks) (ticks := ticks) 4 hq hup hholder reqs fl
  rw [show min 4 (4 - t.au.entries.length) = 4 - t.au.entries.length from by omega] at htimes
  unfold offerEntries
  rw [hnone]
  exact htimes

/-- With no entry free nothing is issued, whoever waits. -/
theorem offerEntries_full (hfull : 4 ≤ t.au.entries.length) (reqs : List ReqSpec) (fl : Nat) :
    offerEntries e { t with head := .access ⟨reqs, fl, none, oks, ticks⟩ }
      = { t with head := .access ⟨reqs, fl, none, oks, ticks⟩ } := by
  have hnone : issueHolder e { t with head := .access ⟨reqs, fl, none, oks, ticks⟩ }
      = { t with head := .access ⟨reqs, fl, none, oks, ticks⟩ } := by
    unfold issueHolder AccessUnit.hasFree
    simp [Nat.not_lt.mpr hfull]
  unfold offerEntries
  rw [hnone, issueNext_waits (.inr hfull), issueNext_waits (.inr hfull), issueNext_waits (.inr hfull),
    issueNext_waits (.inr hfull)]

end

/-! ## The rows of the access jobs -/

section
variable {s : State} {n : StationNo} {q : QJob} {c : Instr}

/-- With the link DOWN an access job ends LINK DOWN (R76). -/
theorem startAccess_down {e : Env} {c : Ctx} (h : c.st.lp.up = false) (reqs : List ReqSpec) :
    startAccess e reqs c = endHead (Res.ended .linkDown) c := if_neg (Bool.eq_false_iff.mp h)

theorem startAccess_up {e : Env} {c : Ctx} (h : c.st.lp.up = true) (reqs : List ReqSpec) :
    startAccess e reqs c = (c.setHead (.access ⟨reqs, 0, none, [], 0⟩)).mod (offerEntries e) := if_pos h

/-- The row of an access job with the link DOWN. -/
theorem exec_access_down (h : (s.station n).atHead q q.job) (ha : q.job.isAccess = true) (hc : q.job.headRow n = some c)
    (hdown : (s.station n).lp.up = false) :
    exec c s = .next (s.putEnd n (s.station n) s.attention q.jid (Res.ended .linkDown)) := by
  obtain ⟨-, -, -, qs, hq⟩ := id h
  have hw := h.waitingJob
  have hends : ∀ {f : Env → Ctx → Ctx}, (s.station n).headRefusal q.job = none →
      f (s.env n) ⟨s.station n, s.attention, []⟩ = endHead (Res.ended .linkDown) ⟨s.station n, s.attention, []⟩ →
      (.next (s.withStation n fun e => gated q.job (f e)) : Answer)
        = .next (s.putEnd n (s.station n) s.attention q.jid (Res.ended .linkDown)) := fun hr hf =>
    congrArg Host.Outcome.next ((State.gated_executed hr _).trans (State.withStation_endsWith hq hf))
  have hexecutes : q.job ≠ .park → q.job ≠ .unpark → (s.station n).headRefusal q.job = none := h.executes
  generalize q.job = j at *
  cases j with
  | read a k b => cases hc; exact (exec_read_head hw).trans (hends (hexecutes nofun nofun) (startAccess_down hdown _))
  | writeInline a k ws =>
    cases hc; exact (exec_writeInline_head hw).trans (hends (hexecutes nofun nofun) (startAccess_down hdown _))
  | writeBuffer a k b =>
    cases hc
    exact (exec_writeBuffer_head hw).trans (hends (hexecutes nofun nofun) (if_neg (Bool.eq_false_iff.mp hdown)))
  | blockRead a k b =>
    cases hc
    refine (exec_blockRead_head hw).trans (hends (f := fun e c => startAccess e (blockRequests a (s.station n).prof.requestWords k) c)
      (hexecutes nofun nofun) (startAccess_down hdown _))
  | boardControl k =>
    cases hc; exact (exec_boardControl_head hw).trans (hends (hexecutes nofun nofun) (startAccess_down hdown _))
  | ping => cases hc; exact (exec_ping_head hw).trans (hends (hexecutes nofun nofun) (startAccess_down hdown _))
  | _ => cases ha

/-- The row of a job with one request. -/
theorem exec_onlyRequest {r : ReqSpec} (h : (s.station n).atHead q q.job) (hc : q.job.headRow n = some c)
    (hr : q.job.onlyRequest = some r) : exec c s = .next (s.withStation n fun e => startAccess e [r]) := by
  have hw := h.waitingJob
  have hexecutes : q.job ≠ .park → q.job ≠ .unpark → (s.station n).headRefusal q.job = none := h.executes
  generalize q.job = j at *
  cases j with
  | read a k b =>
    cases hc; cases hr
    exact (exec_read_head hw).trans (congrArg Host.Outcome.next (State.gated_executed (hexecutes nofun nofun) _))
  | writeInline a k ws =>
    cases hc; cases hr
    exact (exec_writeInline_head hw).trans (congrArg Host.Outcome.next (State.gated_executed (hexecutes nofun nofun) _))
  | boardControl k =>
    cases hc; cases hr
    exact (exec_boardControl_head hw).trans (congrArg Host.Outcome.next (State.gated_executed (hexecutes nofun nofun) _))
  | ping =>
    cases hc; cases hr
    exact (exec_ping_head hw).trans (congrArg Host.Outcome.next (State.gated_executed (hexecutes nofun nofun) _))
  | _ => cases hr

end

/-- Settles O33: an access job by the link state, its one request by the table, and the tag's choice. -/
theorem accessJobIssuesItsRequest : Obligations.AccessJobIssuesItsRequest := by
  unfold Obligations.AccessJobIssuesItsRequest
  refine ⟨fun s n q c h ha hc hdown => exec_access_down h ha hc hdown, fun s n q c r h hc hr hup => ?_, fun a ha => ?_⟩
  · obtain ⟨-, -, -, qs, hq⟩ := id h
    intro t tag
    have hexec := exec_onlyRequest h hc hr
    refine ⟨fun hfree hholder => hexec.trans (congrArg Host.Outcome.next (State.withStation_quiet ?_)),
      fun hfull => hexec.trans (congrArg Host.Outcome.next (State.withStation_quiet ?_))⟩
    · rw [startAccess_up (c := ⟨s.station n, s.attention, []⟩) hup]
      have hoffer := offerEntries_eq (e := s.env n) (oks := []) (ticks := 0) hq hup hholder [r] 0
      obtain ⟨m, hm⟩ : ∃ m, 4 - t.au.entries.length = m + 1 := ⟨3 - t.au.entries.length, by omega⟩
      rw [hm] at hoffer
      refine (congrArg (fun u => Ctx.mk u s.attention []) hoffer).trans ?_
      have hfly : 0 + min (m + 1) [r].length = 1 := by simp
      rw [hfly, List.take_succ_cons, List.take_nil, List.drop_succ_cons, List.drop_nil]
      rfl
    · rw [startAccess_up (c := ⟨s.station n, s.attention, []⟩) hup]
      exact congrArg (fun u => Ctx.mk u s.attention []) (offerEntries_full hfull [r] 0)
  · obtain ⟨g, hg⟩ := exists_tag_free ha
    unfold AccessUnit.pickTag
    cases hf : ((List.range 64).map (tagAt a.nextTag.val)).find? fun t => !a.tagBusy t with
    | none => exact absurd (List.find?_eq_none.mp hf g (mem_tagAt _ g)) (by simp [hg])
    | some t =>
      obtain ⟨hfree, as, bs, hsplit, hbusy⟩ := List.find?_eq_some_iff_append.mp hf
      have hlen : as.length + (bs.length + 1) = 64 := by
        have := congrArg List.length hsplit
        simpa using this.symm
      have hat : ∀ i (hi : i < 64), (as ++ t :: bs)[i]'(by simp; omega) = tagAt a.nextTag.val i := fun i hi => by
        simp only [← hsplit, List.getElem_map, List.getElem_range]
      refine ⟨as.length, by omega, ?_, by simpa using hfree, fun i hi => ?_⟩
      · have hk := hat as.length (by omega)
        simpa using hk
      · have hk := hat i (by omega)
        rw [List.getElem_append_left hi] at hk
        rw [← hk]
        simpa using hbusy _ (List.getElem_mem hi)

end Sys2Proof.Machine
end

section
/-! BLOCK READ's requests, and WRITE from a buffer (R78, R80). -/

namespace Sys2Proof.Machine

/-- The requests of `left` words from word `off` on, with fuel enough. -/
theorem readRequests_spec (addr : Word64) {r : Nat} (hr : 0 < r) (fuel off left : Nat) (hf : left ≤ fuel) :
    (readRequests addr r fuel off left).length = (left + r - 1) / r
      ∧ ∀ (i : Nat) (x : ReqSpec), (readRequests addr r fuel off left)[i]? = some x →
        x = ⟨.read, addr + BitVec.ofNat 64 (4 * (off + i * r)), [], min r (left - i * r), off + i * r⟩ := by
  induction fuel generalizing off left with
  | zero =>
    obtain rfl := Nat.le_zero.mp hf
    refine ⟨(Nat.div_eq_of_lt (by omega)).symm, fun i x hx => ?_⟩
    simp [readRequests] at hx
  | succ fuel ih =>
    unfold readRequests
    by_cases hl : left = 0
    · rw [if_pos hl, hl]
      exact ⟨(Nat.div_eq_of_lt (by omega)).symm, fun i x hx => by simp at hx⟩
    · rw [if_neg hl]
      obtain ⟨hlen, hget⟩ := ih (off + r) (left - r) (by omega)
      refine ⟨?_, fun i x hx => ?_⟩
      · rw [List.length_cons, hlen]
        by_cases hle : r ≤ left
        · have hsum : left + r - 1 = (left - r + r - 1) + r := by omega
          rw [hsum, Nat.add_div_right _ hr]
        · have hnone : left - r = 0 := by omega
          rw [hnone, Nat.div_eq_of_lt (by omega)]
          exact (Nat.div_eq_of_lt_le (by omega) (by omega)).symm
      · cases i with
        | zero =>
          obtain rfl := Option.some.inj hx
          simp
        | succ i =>
          rw [hget i x hx]
          have hoff : off + r + i * r = off + (i + 1) * r := by rw [Nat.succ_mul]; omega
          have hleft : left - r - i * r = left - (i + 1) * r := by rw [Nat.succ_mul]; omega
          rw [hoff, hleft]

section
variable {s : State} {n : StationNo} {q : QJob} {qs : List QJob} {id k : Nat} {addr buf : Word64} {d : List Byte}

/-- The words of a WRITE arrive for the job that waits for them. -/
theorem exec_writeDataReadDone (hd : d.length = 4 * k) (ha : s.awaits id ⟨.job, some n, buf, 4 * k, none, .writeData q.jid n⟩)
    (hq : (s.station n).queue = q :: qs) (hj : q.job = .writeBuffer addr k buf) (hh : (s.station n).head = .writeDataRead) :
    exec (.writeDataReadDone id d) s
      = .next ((s.endRead id).withStation n fun e c => startAccess e [⟨.write, addr, wordsOf d k, k, 0⟩] c) := by
  refine congrArg Host.Outcome.next ((State.completeRead_awaited ha hd.symm nofun).trans ?_)
  have hjid : ((s.endRead id).station n).headJid = some q.jid := by
    show ((s.station n).queue.head?.map QJob.jid) = some q.jid
    rw [hq]
    rfl
  show State.payloadArrives (s.endRead id) q.jid n _ = _
  unfold State.payloadArrives
  rw [if_pos hjid]
  refine State.withStation_congr ((if_pos hh).trans ?_)
  obtain ⟨jid, host, job⟩ := q
  subst hj
  show (match (s.station n).queue with
    | ⟨_, _, .writeBuffer addr count _⟩ :: _ =>
      startAccess ((s.endRead id).env n) [⟨.write, addr, wordsOf d count, count, 0⟩] ⟨s.station n, s.attention, []⟩
    | _ => ⟨s.station n, s.attention, []⟩) = _
  rw [hq]
  rfl

/-- One request issued at once into a free entry. -/
theorem startAccess_one {e : Env} {t : Station} (hq : t.queue = q :: qs) (hup : t.lp.up = true) (hfree : t.au.entries.length < 4)
    (hholder : t.au.holder = false) (a : BitVec 11) (r : ReqSpec) :
    startAccess e [r] ⟨t, a, []⟩ = ⟨{ t with
      head := .access ⟨[], 1, none, [], 0⟩
      au := { t.au with
        entries := t.au.entries ++ [r.entry t.au.pickTag e.now t.prof.responseTimeout (.job q.jid q.hostRef)]
        nextTag := tagAt t.au.pickTag.val 1 }
      lp := t.lp.enqueue ⟨t.au.pickTag, r⟩ false }, a, []⟩ := by
  rw [startAccess_up (c := ⟨t, a, []⟩) hup]
  have hoffer := offerEntries_eq (e := e) (oks := []) (ticks := 0) hq hup hholder [r] 0
  obtain ⟨m, hm⟩ : ∃ m, 4 - t.au.entries.length = m + 1 := ⟨3 - t.au.entries.length, by omega⟩
  rw [hm] at hoffer
  refine (congrArg (fun u => Ctx.mk u a []) hoffer).trans ?_
  have hfly : 0 + min (m + 1) [r].length = 1 := by simp
  rw [hfly, List.take_succ_cons, List.take_nil, List.drop_succ_cons, List.drop_nil]
  rfl

end

/-- Settles O34: BLOCK READ's requests and their issue, and WRITE from a buffer. -/
theorem blockAndBufferJobsIssueRequests : Obligations.BlockAndBufferJobsIssueRequests := by
  unfold Obligations.BlockAndBufferJobsIssueRequests
  refine ⟨⟨fun addr r w hr => ?_, fun s n q addr buf w h hup hholder hfull hw hr => ?_⟩,
    fun s n q addr buf k h hup => ?_, fun s id d n q qs addr buf k hd ha hq hj hh => ?_⟩
  · obtain ⟨hlen, hget⟩ := readRequests_spec addr hr w 0 w (Nat.le_refl _)
    refine ⟨hlen, fun i x hx => ?_⟩
    have hx' := hget i x hx
    rwa [Nat.zero_add] at hx'
  · intro t reqs k
    obtain ⟨-, -, -, qs, hq⟩ := id h
    have hoffer := offerEntries_eq (e := s.env n) (oks := []) (ticks := 0) hq hup hholder reqs 0
    have htake : reqs.take (4 - t.au.entries.length) = reqs.take k := List.take_eq_take_min
    have hdrop : reqs.drop (4 - t.au.entries.length) = reqs.drop k := List.drop_eq_drop_min
    rw [htake, hdrop, Nat.zero_add] at hoffer
    obtain ⟨hretired, -, added, hentries, hlen, hmap⟩ := t.issued_au s.elapsed (.job q.jid q.hostRef) (reqs.take k)
    have hframe := t.issued_frame s.elapsed (.job q.jid q.hostRef) (reqs.take k)
    refine ⟨{ t.issued s.elapsed (.job q.jid q.hostRef) (reqs.take k) with head := .access ⟨reqs.drop k, k, none, [], 0⟩ },
      ?_, ?_, rfl, rfl, hretired, ?_, ?_⟩
    · refine (exec_blockRead_head h.waitingJob).trans (congrArg Host.Outcome.next ((State.gated_executed
        (h.executes nofun nofun) fun e c => startAccess e reqs c).trans (State.withStation_quiet ?_)))
      exact (startAccess_up (c := ⟨t, s.attention, []⟩) hup reqs).trans (congrArg (fun u => Ctx.mk u s.attention []) hoffer)
    · exact congrArg (fun u : Station => { u with head := .access ⟨reqs.drop k, k, none, [], 0⟩ }) hframe
    · show (t.issued s.elapsed (.job q.jid q.hostRef) (reqs.take k)).au.entries.take _ = _
      rw [hentries, List.take_left]
    · show ((t.issued s.elapsed (.job q.jid q.hostRef) (reqs.take k)).au.entries.drop _).map _ = _
      rw [hentries, List.drop_left, hmap]
      refine List.map_congr_left fun x hx => ?_
      obtain ⟨i, hi, rfl⟩ := List.mem_iff_getElem.mp (List.mem_of_mem_take hx)
      have hspec := (readRequests_spec addr hr w 0 w (Nat.le_refl _)).2 i reqs[i] (List.getElem?_eq_getElem hi)
      rw [hspec]
  · obtain ⟨-, -, -, qs, hq⟩ := id h
    have hjid : (s.station n).jidD = q.jid := by
      unfold Station.jidD Station.headJid
      rw [hq]
      rfl
    refine (exec_writeBuffer_head h.waitingJob).trans (congrArg Host.Outcome.next ((State.gated_executed
      (h.executes nofun nofun) fun e => writeBufferJob e k buf).trans (State.withStation_presents ((if_pos hup).trans ?_))))
    show (Ctx.mk _ _ [.present (Access.readOf .job (some n) buf (4 * k) (.writeData (s.station n).jidD n))]) = _
    rw [hjid]
    rfl
  · intro t r tag
    have hexec := exec_writeDataReadDone hd ha hq hj hh
    refine ⟨fun hup hfree hholder => hexec.trans (congrArg Host.Outcome.next (State.withStation_quiet ?_)),
      fun hdown => hexec.trans (congrArg Host.Outcome.next ?_)⟩
    · exact startAccess_one hq hup hfree hholder s.attention r
    · exact State.withStation_endsWith (s := s.endRead id) (u := t) hq
        (startAccess_down (c := ⟨s.station n, s.attention, []⟩) hdown _)

end Sys2Proof.Machine
end

section
/-! ARM's program record: its checks and what it holds (R115, R116, Tables 7-2, 7-3, 7-5). -/

namespace Sys2Proof.Machine

/-! ## Optional values over a range -/

/-- A list of optional values, all there. -/
theorem mapM_some {α β : Type} {f : α → Option β} {l : List α} {m : List β} (h : l.mapM f = some m) :
    m.length = l.length ∧ ∀ (i : Nat) (x : β), m[i]? = some x → ∃ a, l[i]? = some a ∧ f a = some x := by
  induction l generalizing m with
  | nil =>
    obtain rfl := Option.some.inj h
    exact ⟨rfl, fun i x hx => by simp at hx⟩
  | cons a as ih =>
    rw [List.mapM_cons] at h
    obtain ⟨b, hb, hrest⟩ := Option.bind_eq_some_iff.mp h
    obtain ⟨bs, hbs, hm⟩ := Option.bind_eq_some_iff.mp hrest
    obtain rfl := Option.some.inj hm
    obtain ⟨hlen, hget⟩ := ih hbs
    refine ⟨congrArg (· + 1) hlen, fun i x hx => ?_⟩
    cases i with
    | zero => exact ⟨a, rfl, hb.trans hx⟩
    | succ i => exact hget i x hx

/-- A list of optional values, one missing. -/
theorem mapM_none_iff {α β : Type} {f : α → Option β} {l : List α} : l.mapM f = none ↔ ∃ a ∈ l, f a = none := by
  induction l with
  | nil => exact ⟨nofun, fun ⟨a, ha, _⟩ => nomatch ha⟩
  | cons a as ih =>
    rw [List.mapM_cons, List.exists_mem_cons_iff, ← ih]
    cases ha : f a with
    | none => simp
    | some b =>
      cases has : as.mapM f with
      | none => simp
      | some bs => simp

/-- A range of optional values, all there. -/
theorem mapM_range_some {β : Type} {f : Nat → Option β} {k : Nat} {m : List β} (h : (List.range k).mapM f = some m) :
    m.length = k ∧ ∀ (i : Nat) (x : β), m[i]? = some x → f i = some x := by
  obtain ⟨hlen, hget⟩ := mapM_some h
  rw [List.length_range] at hlen
  refine ⟨hlen, fun i x hx => ?_⟩
  obtain ⟨a, ha, hf⟩ := hget i x hx
  obtain ⟨hi, rfl⟩ := List.getElem?_eq_some_iff.mp ha
  rwa [List.getElem_range] at hf

theorem mapM_range_none_iff {β : Type} {f : Nat → Option β} {k : Nat} :
    (List.range k).mapM f = none ↔ ∃ i < k, f i = none := by
  simp only [mapM_none_iff, List.mem_range]

/-! ## Targets, events, conditions -/

theorem byteAt_toNat (d : List Byte) (o : Nat) : (byteAt d o).toNat = field d o 1 := by
  unfold byteAt
  rw [BitVec.toNat_ofNat, Nat.mod_eq_of_lt (field_byte_lt d o)]


theorem targetOf_none_iff {steps : Nat} (h : steps ≤ 4) (b : Nat) : targetOf steps b = none ↔ ¬ (b = 255 ∨ b < steps) := by
  unfold targetOf
  split_ifs with h1 h2 h3
  · simp [h1]
  · simp [h1, h3]
  · simp [h1, h3]
  · simp [h1]
    omega

/-- A target byte names this target (R116). -/
def Target.isAt (b : Nat) : Target → Prop
  | .done => b = 255
  | .step j => b = j.val

theorem targetOf_some {steps b : Nat} {t : Target} (h : targetOf steps b = some t) :
    t.isAt b ∧ ∀ i, t = .step i → i.val < steps := by
  unfold targetOf at h
  split_ifs at h with h1 h2 h3
  · obtain rfl := Option.some.inj h
    exact ⟨h1, nofun⟩
  · obtain rfl := Option.some.inj h
    exact ⟨rfl, fun i hi => by cases hi; exact h3⟩

theorem powerEvOf_some {k : Nat} {ev : PowerEv} (h : powerEvOf k = some ev) : ev.code = k := by
  unfold powerEvOf at h
  split at h <;> first | (obtain rfl := Option.some.inj h; rfl) | cases h

theorem powerEvOf_none_iff (k : Nat) : powerEvOf k = none ↔ k = 0 ∨ 11 < k := by
  unfold powerEvOf
  split <;> simp_all
  omega

/-- What Table 7-5 refuses of a step's condition. -/
theorem condOf_none_iff (pats : Nat) (d : List Byte) : condOf pats d = none ↔
    field d 0 1 = 0 ∨ 8 < field d 0 1 ∨ (field d 0 1 = 1 ∧ field d 16 4 < field d 12 4)
      ∨ (field d 0 1 = 2 ∧ pats ≤ field d 12 1) ∨ (field d 0 1 = 3 ∧ 7 < field d 12 1)
      ∨ (field d 0 1 = 5 ∧ (field d 12 1 = 0 ∨ 11 < field d 12 1)) ∨ (field d 0 1 = 6 ∧ 3 < field d 12 1) := by
  unfold condOf
  dsimp only
  split <;> simp_all [powerEvOf_none_iff]
  omega

/-- The kind and parameters a step record has for a condition (Table 7-5). -/
def StepCond.isIn (d : List Byte) : StepCond → Prop
  | .progress lo hi => field d 0 1 = 1 ∧ lo = field d 12 4 ∧ hi = field d 16 4
  | .pattern q => field d 0 1 = 2 ∧ q = field d 12 1
  | .trace ch value mask => field d 0 1 = 3 ∧ ch = field d 12 1 ∧ value.toNat = field d 13 1 ∧ mask.toNat = field d 14 1
  | .notice code => field d 0 1 = 4 ∧ code.toNat = field d 12 1
  | .power ev => field d 0 1 = 5 ∧ ev.code = field d 12 1
  | .benchLine l => field d 0 1 = 6 ∧ l = field d 12 1
  | .accessError => field d 0 1 = 7
  | .elapsed => field d 0 1 = 8

theorem condOf_some {pats : Nat} {d : List Byte} {c : StepCond} (h : condOf pats d = some c) : c.isIn d := by
  unfold condOf at h
  dsimp only at h
  split at h
  case h_1 hk =>
    split_ifs at h
    obtain rfl := Option.some.inj h
    exact ⟨hk, rfl, rfl⟩
  case h_2 hk =>
    split_ifs at h
    obtain rfl := Option.some.inj h
    exact ⟨hk, rfl⟩
  case h_3 hk =>
    split_ifs at h
    obtain rfl := Option.some.inj h
    exact ⟨hk, rfl, byteAt_toNat d 13, byteAt_toNat d 14⟩
  case h_4 hk =>
    obtain rfl := Option.some.inj h
    exact ⟨hk, byteAt_toNat d 12⟩
  case h_5 hk =>
    obtain ⟨ev, hev, rfl⟩ := Option.map_eq_some_iff.mp h
    exact ⟨hk, powerEvOf_some hev⟩
  case h_6 hk =>
    split_ifs at h
    obtain rfl := Option.some.inj h
    exact ⟨hk, rfl⟩
  case h_7 hk =>
    obtain rfl := Option.some.inj h
    exact hk
  case h_8 hk =>
    obtain rfl := Option.some.inj h
    exact hk
  case h_9 => cases h

theorem condOf_elapsed_iff {pats : Nat} {d : List Byte} {c : StepCond} (h : condOf pats d = some c) :
    c = .elapsed ↔ field d 0 1 = 8 := by
  have hc := condOf_some h
  cases c <;> simp_all [StepCond.isIn]

/-! ## Steps, patterns, the program -/

/-- What Table 12-14 and R116 refuse of a step record. -/
def refusedStep (steps pats : Nat) (d : List Byte) : Prop :=
  field d 1 1 = 0 ∨ ¬ (field d 2 1 = 255 ∨ field d 2 1 < steps)
    ∨ (field d 8 2 ≠ 0 ∧ ¬ (field d 3 1 = 255 ∨ field d 3 1 < steps)) ∨ field d 0 1 = 0 ∨ 8 < field d 0 1
    ∨ (field d 0 1 = 1 ∧ field d 16 4 < field d 12 4) ∨ (field d 0 1 = 2 ∧ pats ≤ field d 12 1)
    ∨ (field d 0 1 = 3 ∧ 7 < field d 12 1) ∨ (field d 0 1 = 5 ∧ (field d 12 1 = 0 ∨ 11 < field d 12 1))
    ∨ (field d 0 1 = 6 ∧ 3 < field d 12 1) ∨ (field d 0 1 = 8 ∧ field d 8 2 = 0)

theorem stepOf_none_iff {steps : Nat} (h : steps ≤ 4) (pats : Nat) (d : List Byte) :
    stepOf steps pats d = none ↔ refusedStep steps pats d := by
  have hcond := condOf_none_iff pats d
  have hnext := targetOf_none_iff h (field d 2 1)
  have hlate := targetOf_none_iff h (field d 3 1)
  have hform : refusedStep steps pats d ↔ field d 1 1 = 0 ∨ targetOf steps (field d 2 1) = none
      ∨ (field d 8 2 ≠ 0 ∧ targetOf steps (field d 3 1) = none) ∨ condOf pats d = none
      ∨ (field d 0 1 = 8 ∧ field d 8 2 = 0) := by
    rw [hnext, hlate, hcond]
    simp only [refusedStep, or_assoc]
  rw [hform]
  unfold stepOf
  dsimp only
  cases hc : condOf pats d with
  | none => simp
  | some cond =>
    cases ht : targetOf steps (field d 2 1) with
    | none => simp
    | some next =>
      simp only [ite_eq_left_iff, reduceCtorEq, imp_false, not_not, condOf_elapsed_iff hc, false_or]

/-- The step a step record holds (Table 12-14, R117 step 2). -/
theorem stepOf_some {steps pats : Nat} {d : List Byte} {x : Step} (h : stepOf steps pats d = some x) :
    condOf pats d = some x.cond ∧ targetOf steps (field d 2 1) = some x.next
      ∧ (field d 8 2 ≠ 0 → targetOf steps (field d 3 1) = some x.timeoutNext)
      ∧ x.count = field d 1 1 ∧ x.count ≠ 0 ∧ (x.cond = .elapsed → field d 8 2 ≠ 0) ∧ x.timeoutMs = field d 8 2
      ∧ x.line.val = field d 6 1 % 4 ∧ x.matchActs = byteAt d 4
      ∧ x.timeoutActs = byteAt d 5 ||| (if field d 8 2 ≠ 0 ∧ field d 0 1 ≠ 8 then 2 else 0) := by
  unfold stepOf at h
  dsimp only at h
  split at h
  case h_2 => cases h
  case h_1 cond next hc ht =>
    obtain ⟨hok, hx⟩ := (Option.ite_none_left_eq_some ..).mp h
    obtain rfl := Option.some.inj hx
    rw [not_or, not_or] at hok
    obtain ⟨hcount, hlate, hel⟩ := hok
    refine ⟨hc, ht, fun hne => ?_, rfl, hcount, fun he h0 => hel ⟨he, h0⟩, rfl, rfl, rfl, ?_⟩
    · obtain ⟨t, ht'⟩ := Option.ne_none_iff_exists'.mp fun hnone => hlate ⟨hne, hnone⟩
      show _ = some ((targetOf steps (field d 3 1)).getD .done)
      rw [ht']
      rfl
    · have hiff := condOf_elapsed_iff hc
      show (if field d 8 2 ≠ 0 ∧ cond ≠ .elapsed then byteAt d 5 ||| 2#8 else byteAt d 5) = _
      by_cases ha : field d 8 2 ≠ 0 ∧ cond ≠ .elapsed
      · rw [if_pos ha, if_pos ⟨ha.1, (not_congr hiff).mp ha.2⟩]
        rfl
      · rw [if_neg ha, if_neg fun hb => ha ⟨hb.1, (not_congr hiff).mpr hb.2⟩]
        exact BitVec.or_zero.symm

theorem patternOf_none_iff (d : List Byte) : patternOf d = none ↔ field d 0 1 = 0 ∨ 16 < field d 0 1 := by
  unfold patternOf
  dsimp only
  rw [ite_eq_left_iff, imp_iff_not_or, not_not]
  simp only [reduceCtorEq, or_false]

theorem patternOf_some {d : List Byte} {x : List PatPos} (h : patternOf d = some x) :
    x.length = field d 0 1 ∧ 1 ≤ x.length ∧ x.length ≤ 16
      ∧ ∀ (j : Nat) (y : PatPos), x[j]? = some y → y = ⟨byteAt d (8 + j), byteAt d (24 + j)⟩ := by
  unfold patternOf at h
  obtain ⟨hok, hx⟩ := (Option.ite_none_left_eq_some ..).mp h
  obtain rfl := Option.some.inj hx
  simp only [List.length_map, List.length_range]
  refine ⟨trivial, by omega, by omega, fun j y hy => ?_⟩
  rw [List.getElem?_map] at hy
  obtain ⟨k, hk, rfl⟩ := Option.map_eq_some_iff.mp hy
  obtain ⟨hj, rfl⟩ := List.getElem?_eq_some_iff.mp hk
  rw [List.getElem_range]

theorem programOf_none_iff (d : List Byte) : programOf d = none ↔
    field d 0 1 ≠ 1 ∨ field d 1 1 = 0 ∨ 4 < field d 1 1 ∨ 4 < field d 2 1
      ∨ (∃ p < field d 2 1, patternOf (d.drop (32 + 40 * p)) = none)
      ∨ ∃ i < field d 1 1, stepOf (field d 1 1) (field d 2 1) (d.drop (192 + 32 * i)) = none := by
  have hpats := mapM_range_none_iff (f := fun p => patternOf (d.drop (32 + 40 * p))) (k := field d 2 1)
  have hsteps := mapM_range_none_iff (f := fun s => stepOf (field d 1 1) (field d 2 1) (d.drop (192 + 32 * s))) (k := field d 1 1)
  rw [← hpats, ← hsteps]
  unfold programOf
  dsimp only
  by_cases hhead : field d 0 1 ≠ 1 ∨ field d 1 1 = 0 ∨ 4 < field d 1 1 ∨ 4 < field d 2 1
  · rw [if_pos hhead]
    simp only [true_iff]
    tauto
  · rw [if_neg hhead]
    rw [not_or, not_or, not_or] at hhead
    obtain ⟨h1, h2, h3, h4⟩ := hhead
    simp only [h1, h2, h3, h4, false_or]
    cases (List.range (field d 2 1)).mapM fun p => patternOf (d.drop (32 + 40 * p)) with
    | none => simp
    | some ps =>
      cases (List.range (field d 1 1)).mapM fun s => stepOf (field d 1 1) (field d 2 1) (d.drop (192 + 32 * s)) with
      | none => simp
      | some ss => simp

theorem programOf_some {d : List Byte} {p : Program} {clamped : Bool} (h : programOf d = some (p, clamped)) :
    (field d 0 1 = 1 ∧ field d 1 1 ≠ 0 ∧ field d 1 1 ≤ 4 ∧ field d 2 1 ≤ 4)
      ∧ (p.postCount = field d 4 2 ∧ p.pulseWidth = max 1 (field d 6 2) ∧ p.driveUs = max 1 (field d 8 2)
        ∧ p.marker = BitVec.ofNat 32 (field d 12 4))
      ∧ (clamped = true ↔ field d 6 2 = 0 ∨ field d 8 2 = 0)
      ∧ (p.patterns.length = field d 2 1
        ∧ ∀ (k : Nat) (x : List PatPos), p.patterns[k]? = some x → patternOf (d.drop (32 + 40 * k)) = some x)
      ∧ p.steps.length = field d 1 1
      ∧ ∀ (i : Nat) (x : Step), p.steps[i]? = some x → stepOf (field d 1 1) (field d 2 1) (d.drop (192 + 32 * i)) = some x := by
  unfold programOf at h
  obtain ⟨hok, hx⟩ := (Option.ite_none_left_eq_some ..).mp h
  split at hx
  case h_2 => cases hx
  case h_1 ps ss hps hss =>
    obtain ⟨rfl, rfl⟩ := Prod.mk.inj (Option.some.inj hx)
    rw [not_or, not_or, not_or] at hok
    obtain ⟨h1, h2, h3, h4⟩ := hok
    exact ⟨⟨not_not.mp h1, h2, Nat.le_of_not_lt h3, Nat.le_of_not_lt h4⟩, ⟨rfl, rfl, rfl, rfl⟩, decide_eq_true_iff,
      mapM_range_some hps, mapM_range_some hss⟩

end Sys2Proof.Machine
end

section
/-! ARM: the two reads of its program record, its refusal and its loading (R115 to R117). -/

namespace Sys2Proof.Machine

section
variable {s : State} {n : StationNo} {q : QJob} {qs : List QJob} {id : Nat} {d : List Byte} {addr : Word64}

/-- ARM at the head with the sequencer not ARMED presents the reads of both parts. -/
theorem armJob_reads {e : Env} {c : Ctx} (h : c.st.ts.state.code ≠ 1) :
    armJob e addr c = ((c.setHead (.programRead none none)).emit
      (.present (Access.readOf .job (some e.n) addr 256 (.programRead c.st.jidD e.n 0)))).emit
      (.present (Access.readOf .job (some e.n) (addr + 256) 64 (.programRead c.st.jidD e.n 1))) := by
  unfold armJob
  cases hs : c.st.ts.state with
  | armed i k t => exact absurd (congrArg SeqState.code hs) h
  | disarmed => rfl
  | done => rfl

theorem armJob_armed {e : Env} {c : Ctx} (h : c.st.ts.state.code = 1) : armJob e addr c = endHead (Res.ended .state) c := by
  unfold armJob
  cases hs : c.st.ts.state with
  | armed i k t => rfl
  | disarmed => rw [hs] at h; cases h
  | done => rw [hs] at h; cases h

/-- A part of the program record arrives for the ARM at the head. -/
theorem exec_programReadDone {len part : Nat} (hd : d.length = len) (ha : s.awaits id ⟨.job, some n, addr, len, none, .programRead q.jid n part⟩)
    (hq : (s.station n).queue = q :: qs) :
    exec (.programReadDone id d) s = .next ((s.endRead id).withStation n fun e => programPart e part d) := by
  refine congrArg Host.Outcome.next ((State.completeRead_awaited ha hd.symm nofun).trans ?_)
  have hjid : ((s.endRead id).station n).headJid = some q.jid := by
    show ((s.station n).queue.head?.map QJob.jid) = some q.jid
    rw [hq]
    rfl
  exact if_pos hjid

/-- The first part is kept until the second comes. -/
theorem programPart_first {e : Env} {c : Ctx} (h : c.st.head = .programRead none none) :
    programPart e 0 d c = c.setHead (.programRead (some d) none) := by
  unfold programPart
  rw [h]
  rfl

/-- The second part completes the record. -/
theorem programPart_second {e : Env} {c : Ctx} {x : List Byte} (h : c.st.head = .programRead (some x) none) :
    programPart e 1 d c = programArrives e (x ++ d) c := by
  unfold programPart
  rw [h]
  rfl

end

/-- What R116 refuses of the step record at its place in the program record. -/
theorem refusedStep_drop (steps pats m : Nat) (d : List Byte) : refusedStep steps pats (d.drop m) ↔
    field d (m + 1) 1 = 0 ∨ ¬ (field d (m + 2) 1 = 255 ∨ field d (m + 2) 1 < steps)
      ∨ (field d (m + 8) 2 ≠ 0 ∧ ¬ (field d (m + 3) 1 = 255 ∨ field d (m + 3) 1 < steps))
      ∨ field d (m + 0) 1 = 0 ∨ 8 < field d (m + 0) 1
      ∨ (field d (m + 0) 1 = 1 ∧ field d (m + 16) 4 < field d (m + 12) 4)
      ∨ (field d (m + 0) 1 = 2 ∧ pats ≤ field d (m + 12) 1)
      ∨ (field d (m + 0) 1 = 3 ∧ 7 < field d (m + 12) 1)
      ∨ (field d (m + 0) 1 = 5 ∧ (field d (m + 12) 1 = 0 ∨ 11 < field d (m + 12) 1))
      ∨ (field d (m + 0) 1 = 6 ∧ 3 < field d (m + 12) 1) ∨ (field d (m + 0) 1 = 8 ∧ field d (m + 8) 2 = 0) := by
  simp only [refusedStep, field_drop]

/-- Settles O35: ARM's reads, its refusals and what it loads. -/
theorem armLoadsProgram : Obligations.ArmLoadsProgram := by
  unfold Obligations.ArmLoadsProgram
  refine ⟨⟨⟨fun s n q addr h => ⟨fun ha => ?_, fun ha => ?_⟩, fun s id n q qs addr x y hx hy hq => ?_⟩,
    fun d p clamped h => ?_⟩, fun d => ?_⟩
  · obtain ⟨-, -, -, qs, hq⟩ := id h
    exact (exec_arm_head h.waitingJob).trans (congrArg Host.Outcome.next ((State.gated_executed
      (h.executes nofun nofun) fun e => armJob e addr).trans
        (State.withStation_endsWith (u := s.station n) hq (armJob_armed ha))))
  · obtain ⟨-, -, -, qs, hq⟩ := id h
    have hjid : (s.station n).jidD = q.jid := by
      unfold Station.jidD Station.headJid
      rw [hq]
      rfl
    refine (exec_arm_head h.waitingJob).trans (congrArg Host.Outcome.next ((State.gated_executed
      (h.executes nofun nofun) fun e => armJob e addr).trans (Eq.trans (State.withStation_congr
        (g := fun e c => ((c.setHead (.programRead none none)).emit
          (.present (Access.readOf .job (some e.n) addr 256 (.programRead c.st.jidD e.n 0)))).emit
          (.present (Access.readOf .job (some e.n) (addr + 256) 64 (.programRead c.st.jidD e.n 1))))
        (armJob_reads (c := ⟨s.station n, s.attention, []⟩) ha)) ?_)))
    rw [← hjid]
    rfl
  · intro t
    refine ⟨fun ha hh => ?_, fun ha hh => ⟨fun hnone => ?_, fun p clamped hsome => ?_⟩⟩
    · exact (exec_programReadDone hx ha hq).trans (congrArg Host.Outcome.next
        (State.withStation_quiet (programPart_first (c := ⟨s.station n, s.attention, []⟩) hh)))
    · refine (exec_programReadDone hy ha hq).trans (congrArg Host.Outcome.next
        (State.withStation_endsWith (s := s.endRead id) (u := t) hq ?_))
      refine (programPart_second (c := ⟨s.station n, s.attention, []⟩) hh).trans ?_
      unfold programArrives
      rw [hnone]
    · refine (exec_programReadDone hy ha hq).trans (congrArg Host.Outcome.next
        (State.withStation_endsWith (s := s.endRead id) (u := loadProgram (s.env n) p t) hq ?_))
      refine (programPart_second (c := ⟨s.station n, s.attention, []⟩) hh).trans ?_
      unfold programArrives
      rw [hsome]
      rfl
  · obtain ⟨⟨hf, hs0, hs4, hp4⟩, ⟨-, hwidth, hdrive, -⟩, hcl, ⟨hplen, hpats⟩, hslen, hsteps⟩ := programOf_some h
    refine ⟨hf, by omega, by omega, by omega, fun x hx => ?_, by omega, by omega, hcl, fun x hx => ?_⟩
    · obtain ⟨k, hk⟩ := List.mem_iff_getElem?.mp hx
      obtain ⟨-, h1, h16, -⟩ := patternOf_some (hpats k x hk)
      exact ⟨h1, h16⟩
    · obtain ⟨i, hi⟩ := List.mem_iff_getElem?.mp hx
      obtain ⟨hcond, hnext, hlate, -, hcount, hel, htmo, -, -, hacts⟩ := stepOf_some (hsteps i x hi)
      rw [hslen]
      refine ⟨Nat.pos_of_ne_zero hcount, fun he => by rw [htmo]; exact Nat.pos_of_ne_zero (hel he),
        (targetOf_some hnext).2, fun j hne hj => (targetOf_some (hlate (htmo ▸ hne))).2 j hj, fun hne hne8 => ?_⟩
      rw [hacts, if_pos ⟨htmo ▸ hne, (not_congr (condOf_elapsed_iff hcond)).mp hne8⟩]
      unfold hasAct
      rw [BitVec.getLsbD_or, Bool.or_eq_true]
      exact Or.inr rfl
  · intro steps pats g target badPattern badStep evCode
    refine ⟨?_, fun p clamped h => ?_⟩
    · rw [programOf_none_iff]
      have hbadPattern : ∀ k, patternOf (d.drop (32 + 40 * k)) = none ↔ badPattern k := fun k => by
        rw [patternOf_none_iff, field_drop]
        rfl
      by_cases h4 : field d 1 1 ≤ 4
      · have hbadStep : ∀ i, stepOf (field d 1 1) (field d 2 1) (d.drop (192 + 32 * i)) = none ↔ badStep i := fun i =>
          (stepOf_none_iff h4 _ _).trans (refusedStep_drop ..)
        simp only [hbadPattern, hbadStep, steps, pats]
      · have : 4 < field d 1 1 := Nat.lt_of_not_le h4
        simp only [steps, this, true_or, or_true]
    · obtain ⟨-, ⟨hpost, hwidth, hdrive, hmarker⟩, -, ⟨hplen, hpats⟩, hslen, hsteps⟩ := programOf_some h
      refine ⟨hpost, hwidth, hdrive, ?_, hplen, hslen, fun k x hk => ?_, fun i x hi => ?_⟩
      · rw [hmarker, BitVec.toNat_ofNat, Nat.mod_eq_of_lt]
        exact leNat_take_lt ..
      · obtain ⟨hlen, -, -, hpos⟩ := patternOf_some (hpats k x hk)
        refine ⟨by rw [hlen, field_drop]; rfl, fun j y hy => ?_⟩
        rw [hpos j y hy]
        refine ⟨(byteAt_toNat _ _).trans ?_, (byteAt_toNat _ _).trans ?_⟩
        · rw [field_drop, ← Nat.add_assoc]
        · rw [field_drop, ← Nat.add_assoc]
      · obtain ⟨hcond, hnext, hlate, hcount, -, -, htmo, hline, hacts, hlacts⟩ := stepOf_some (hsteps i x hi)
        have hc := condOf_some hcond
        simp only [field_drop] at hnext hlate hcount htmo hline hlacts
        refine ⟨hcount, htmo, hline, ?_, ?_, ?_, fun hne => ?_, ?_⟩
        · rw [hacts, byteAt_toNat, field_drop]
        · rw [hlacts]
          unfold byteAt
          rw [field_drop]
        · have hat := (targetOf_some hnext).1
          cases hx : x.next <;> rw [hx] at hat <;> exact hat
        · have hat := (targetOf_some (hlate hne)).1
          cases hx : x.timeoutNext <;> rw [hx] at hat <;> exact hat
        · cases hx : x.cond <;> rw [hx] at hc <;> simp only [StepCond.isIn, field_drop] at hc <;> exact hc

end Sys2Proof.Machine
end

section
/-! The header check byte and the bytes of a request packet (R49, R62, Table 12-11). -/

namespace Sys2Proof.Machine

/-! ## Sums of bits -/

/-- An odd number of a list's members have the property. -/
def oddly {α : Type} (p : α → Bool) (l : List α) : Bool := (l.filter p).length % 2 == 1

theorem oddly_nil {α : Type} (p : α → Bool) : oddly p [] = false := rfl

theorem oddly_cons {α : Type} (p : α → Bool) (a : α) (l : List α) : oddly p (a :: l) = (p a ^^ oddly p l) := by
  unfold oddly
  cases ha : p a with
  | false => rw [List.filter_cons_of_neg (by simp [ha]), Bool.false_xor]
  | true =>
    rw [List.filter_cons_of_pos ha, List.length_cons, Bool.true_xor]
    rcases Nat.mod_two_eq_zero_or_one (l.filter p).length with h | h <;> simp [Nat.add_mod, h]

theorem oddly_congr {α : Type} {p q : α → Bool} {l : List α} (h : ∀ a ∈ l, p a = q a) : oddly p l = oddly q l := by
  unfold oddly
  rw [List.filter_congr h]

theorem foldl_xor_oddly {α : Type} (p : α → Bool) (l : List α) (a : Bool) :
    l.foldl (fun acc i => acc ^^ p i) a = (a ^^ oddly p l) := by
  induction l generalizing a with
  | nil => simp [oddly_nil]
  | cons x l ih => rw [List.foldl_cons, ih, oddly_cons, Bool.xor_assoc]

/-- The parity of a vector counts its ones. -/
theorem parity_eq {w : Nat} (v : BitVec w) : parity v = oddly v.getLsbD (List.range w) := by
  unfold parity
  rw [foldl_xor_oddly, Bool.false_xor]

/-- A bit of an exclusive OR of numbers over a list counts the members whose number has it. -/
theorem foldl_codes_bit {w : Nat} (p : Nat → Bool) (code : Nat → Nat) (l : List Nat) (a : BitVec w) {j : Nat} (hj : j < w) :
    (l.foldl (fun acc i => if p i then acc ^^^ BitVec.ofNat w (code i) else acc) a).getLsbD j
      = (a.getLsbD j ^^ oddly (fun i => p i && (code i).testBit j) l) := by
  induction l generalizing a with
  | nil => simp [oddly_nil]
  | cons x l ih =>
    rw [List.foldl_cons, ih, oddly_cons]
    cases hp : p x with
    | false => simp
    | true =>
      rw [if_pos rfl, BitVec.getLsbD_xor, BitVec.getLsbD_ofNat, decide_eq_true hj, Bool.true_and, Bool.xor_assoc]

theorem checkBits_bit (v : BitVec 32) {j : Nat} (hj : j < 6) :
    (checkBits v).getLsbD j = oddly (fun i => v.getLsbD i && (codeNumber i).testBit j) (List.range 32) := by
  unfold checkBits
  rw [foldl_codes_bit v.getLsbD codeNumber _ _ hj, show (0 : BitVec 6).getLsbD j = false from BitVec.getLsbD_zero, Bool.false_xor]

/-! ## The check byte (R49) -/

theorem checkByte_bit (v : BitVec 32) (j : Nat) : (checkByte v).getLsbD j
    = if j < 6 then (checkBits v).getLsbD j else decide (j = 6) && (parity v ^^ parity (checkBits v)) := by
  unfold checkByte
  rw [BitVec.getLsbD_ofNat, Nat.add_comm, show 64 = 2 ^ 6 from rfl, Nat.testBit_two_pow_mul_add _ (checkBits v).isLt]
  by_cases hj : j < 6
  · rw [if_pos hj, if_pos hj, decide_eq_true (by omega), Bool.true_and]
    rfl
  · rw [if_neg hj, if_neg hj]
    obtain ⟨k, rfl⟩ : ∃ k, j = 6 + k := ⟨j - 6, by omega⟩
    rw [Nat.add_sub_cancel_left]
    cases parity v ^^ parity (checkBits v) with
    | false => simp [bit]
    | true =>
      cases k with
      | zero => rfl
      | succ k => simp [bit, Nat.testBit_succ]

/-- The code numbers of the info bits, in order (R49). -/
theorem codes_eq : ((List.range 39).filter fun m => decide (3 ≤ m) && !([4, 8, 16, 32].contains m))
    = (List.range 32).map codeNumber := by decide

theorem oddly_add {α β : Type} (p : α → Bool) (q : β → Bool) (l : List α) (m : List β) :
    (((l.filter p).length + (m.filter q).length) % 2 == 1) = (oddly p l ^^ oddly q m) := by
  unfold oddly
  rcases Nat.mod_two_eq_zero_or_one (l.filter p).length with h | h <;>
    rcases Nat.mod_two_eq_zero_or_one (m.filter q).length with h' | h' <;> simp [Nat.add_mod, h, h']

/-! ## Request packets -/

theorem leNat_append (a b : List Byte) : leNat (a ++ b) = leNat a + 256 ^ a.length * leNat b := by
  induction a with
  | nil => simp [leNat]
  | cons x a ih =>
    rw [List.cons_append, leNat, leNat, ih, List.length_cons, Nat.pow_succ']
    rw [Nat.mul_add, Nat.mul_assoc, Nat.add_assoc]

theorem packed_append (ps qs : List (Nat × Nat)) : packed (ps ++ qs) = packed ps ++ packed qs := List.flatMap_append

/-- The fields of a request's payload (R62). -/
def ReqSpec.fields (r : ReqSpec) : List (Nat × Nat) :=
  match r.op with
  | .read => [(8, r.addr.toNat), (1, r.count)]
  | .write => (8, r.addr.toNat) :: r.words.map fun w => (4, w.toNat)
  | .control => [(1, r.addr.toNat)]
  | .ping => []

theorem ReqSpec.payload_eq (r : ReqSpec) : r.payload = packed r.fields := by
  unfold ReqSpec.payload ReqSpec.fields
  cases r.op with
  | read => exact congrArg (leBytes 8 r.addr.toNat ++ ·) (List.append_nil _).symm
  | write =>
    refine congrArg (leBytes 8 r.addr.toNat ++ ·) ?_
    show r.words.flatMap _ = (r.words.map fun w => (4, w.toNat)).flatMap _
    rw [List.flatMap_map]
  | control => exact (List.append_nil _).symm
  | ping => rfl

/-- The length of a request's payload (R62). -/
def ReqSpec.len (r : ReqSpec) : Nat :=
  match r.op with | .read => 9 | .write => 8 + 4 * r.words.length | .control => 1 | .ping => 0

theorem ReqSpec.payload_length (r : ReqSpec) : r.payload.length = r.len := by
  rw [r.payload_eq, packed_length]
  unfold ReqSpec.fields ReqSpec.len
  cases r.op with
  | write =>
    have hfours : (r.words.map fun _ => 4).sum = 4 * r.words.length := by
      rw [List.map_const', List.sum_replicate, smul_eq_mul, Nat.mul_comm]
    rw [List.map_cons, List.sum_cons, List.map_map]
    exact congrArg (8 + ·) hfours
  | _ => rfl

/-- The CRC fields: none without a payload, else high byte first (R52). -/
def crcFields (payload : List Byte) : List (Nat × Nat) :=
  if payload.length = 0 then [] else [(1, (crc16 payload).toNat / 256), (1, (crc16 payload).toNat % 256)]

/-- The header fields: kind, tag, length and the check byte of the three (R49). -/
def headerFields (kind tag len : Nat) : List (Nat × Nat) :=
  [(1, kind), (1, tag), (2, len), (1, (checkByte (BitVec.ofNat 32 (kind + 256 * tag + 65536 * len))).toNat)]

theorem leBytes_mod_one (v : Nat) : leBytes 1 (v % 256) = [BitVec.ofNat 8 v] := by
  refine congrArg (fun x => [x]) (BitVec.eq_of_toNat_eq ?_)
  rw [BitVec.toNat_ofNat, BitVec.toNat_ofNat, Nat.mod_mod]

theorem packetBytes_eq {kind tag : Nat} {payload : List Byte} (hk : kind < 256) (ht : tag < 256) (hl : payload.length < 65536) :
    packetBytes kind 0 tag payload
      = packed (headerFields kind tag payload.length) ++ (payload ++ packed (crcFields payload)) := by
  have hinfo : leNat (infoBytes kind 0 tag payload.length) = kind + 256 * tag + 65536 * payload.length := by
    unfold infoBytes
    rw [leNat_append, leNat_append, leNat_leBytes, leNat_leBytes, leNat_leBytes, List.length_append, leBytes_length, leBytes_length,
      Nat.mod_eq_of_lt (by omega), Nat.mod_eq_of_lt (by omega), Nat.mod_eq_of_lt (by omega)]
    omega
  have hcrc : packed (crcFields payload)
      = if payload.isEmpty then [] else [BitVec.ofNat 8 ((crc16 payload).toNat / 256), BitVec.ofNat 8 (crc16 payload).toNat] := by
    cases payload with
    | nil => rfl
    | cons x xs =>
      unfold crcFields
      rw [if_neg (by simp), if_neg (by simp), packed_cons, packed_cons, packed_nil, leBytes_mod_one]
      rfl
  unfold packetBytes
  rw [hcrc]
  dsimp only
  rw [hinfo, List.append_assoc]
  refine congrArg (· ++ _) ?_
  unfold headerFields infoBytes
  rw [packed_cons, packed_cons, packed_cons, packed_cons, packed_nil, leBytes_one]
  simp

end Sys2Proof.Machine
end

section
/-! The transmitters: the link's list, the console's send queue, packets and frames (R62, R63, R94, R95). -/

namespace Sys2Proof.Machine

/-! ## The link transmitter (R63) -/

theorem LinkPort.kick_waits {l : LinkPort} (h : l.sending ≠ none ∨ l.up = false) : l.kick = l := by
  unfold LinkPort.kick
  split
  case h_1 hs _ => rw [if_neg fun hup => h.elim (fun ha => ha hs) fun ha => by rw [ha] at hup; cases hup]
  case h_2 => rfl

theorem LinkPort.kick_begins {l : LinkPort} {r : TxReq} {rest : List TxReq} (hs : l.sending = none) (hup : l.up = true)
    (hl : l.txList = r :: rest) : l.kick = { l with txList := rest, sending := some r.packet } := by
  unfold LinkPort.kick
  rw [hs, hl]
  exact if_pos hup

theorem LinkPort.kick_empty {l : LinkPort} (hl : l.txList = []) : l.kick = l := by
  unfold LinkPort.kick
  rw [hl]
  cases l.sending <;> rfl

theorem modLp_transmitted {c : Ctx} {p : List Byte} (hs : c.st.lp.sending = some p) :
    transmitted c = c.modLp fun _ => ({ c.st.lp with sending := none }).kick := by
  unfold transmitted Ctx.modLp Ctx.mod
  dsimp only
  rw [hs]

/-! ## The console transmitter (R94, R95) -/

theorem beginTx_idle {e : Env} {t : Station} (h : t.cu.sendQ = []) : beginTx e t = t := by
  unfold beginTx
  rw [h]
  cases t.cu.tx <;> rfl

theorem beginTx_begins {e : Env} {t : Station} {b : Byte} {bs : List Byte} (htx : t.cu.tx = none) (hq : t.cu.sendQ = b :: bs) :
    beginTx e t = { t with cu := { t.cu with sendQ := bs, tx := some ⟨b, t.prof.divisor, e.now⟩ } } := by
  unfold beginTx
  rw [htx, hq]

/-- With nothing queued the end of a job is all there is. -/
theorem endHead_beginTx {e : Env} {c : Ctx} {q : QJob} {qs : List QJob} (r : Res) (hq : c.st.queue = q :: qs)
    (h : c.st.cu.sendQ = []) : (endHead r c).mod (beginTx e) = endHead r c := by
  rw [endHead_cons r hq]
  exact congrArg (fun u => Ctx.mk u c.att _) (beginTx_idle h)

theorem countSent_last {c : Ctx} {total sent : Nat} (hh : c.st.head = .consoleSend total sent) (h : total ≤ sent + 1) :
    countSent c = endHead (Res.okv total) c := by
  unfold countSent
  rw [hh]
  exact if_pos h

theorem countSent_more {c : Ctx} {total sent : Nat} (hh : c.st.head = .consoleSend total sent) (h : sent + 1 < total) :
    countSent c = c.mod fun t => { t with head := .consoleSend total (sent + 1) } := by
  unfold countSent
  rw [hh]
  exact if_neg (by omega)

theorem byteSent_due {e : Env} {c : Ctx} {x : TxByte} (htx : c.st.cu.tx = some x) (hdue : x.begins + 10 * x.divisor ≤ e.now) :
    byteSent e c = (countSent (c.modCu fun u => { u with tx := none })).mod (beginTx e) := by
  unfold byteSent
  rw [htx]
  exact if_pos (decide_eq_true hdue)

/-! ## A frame on the TX line (R94) -/

theorem ConsoleUnit.txLine_at {u : ConsoleUnit} {x : TxByte} {now i : Nat} (hx : u.tx = some x)
    (hlo : x.begins + i * x.divisor ≤ now) (hhi : now < x.begins + (i + 1) * x.divisor) :
    u.txLine now = (frameBits x.val).getD i true := by
  rw [Nat.succ_mul] at hhi
  obtain ⟨t, rfl⟩ := Nat.exists_eq_add_of_le hlo
  rw [Nat.add_assoc]
  exact ConsoleUnit.txLine_bit hx (by omega)

theorem ConsoleUnit.txLine_high {u : ConsoleUnit} {x : TxByte} {now : Nat} (hx : u.tx = some x) (hd : 0 < x.divisor)
    (h : x.begins + 9 * x.divisor ≤ now) : u.txLine now = true := by
  have hbit : 9 ≤ (now - x.begins) / x.divisor := (Nat.le_div_iff_mul_le hd).mpr (by omega)
  unfold ConsoleUnit.txLine
  rw [hx]
  show (frameBits x.val).getD _ true = true
  rcases Nat.eq_or_lt_of_le hbit with h9 | h10
  · rw [← h9]
    rfl
  · exact List.getD_eq_default _ _ h10

theorem frameBits_data (b : Byte) {i : Nat} (hi : i < 8) : (frameBits b).getD (i + 1) true = b.getLsbD i := by
  unfold frameBits
  rw [List.cons_append, List.getD_cons_succ, List.getD_append _ _ _ _ (by simpa using hi), List.getD_eq_getElem _ _ (by simpa using hi),
    List.getElem_map, List.getElem_range]

/-! ## The fields of a request packet -/

/-- All fields of a request's packet in order (Table 12-11). -/
def TxReq.fields (r : TxReq) : List (Nat × Nat) :=
  headerFields r.spec.op.packetKind r.tag.val r.spec.len ++ (r.spec.fields ++ crcFields r.spec.payload)

theorem packetKind_lt (op : AccessOp) : op.packetKind < 256 := by cases op <;> decide

theorem ReqSpec.len_lt {r : ReqSpec} (h : r.words.length ≤ 64) : r.len < 65536 := by
  unfold ReqSpec.len
  cases r.op <;> dsimp only <;> omega

theorem TxReq.packet_eq {r : TxReq} (h : r.spec.words.length ≤ 64) : r.packet
    = packed (headerFields r.spec.op.packetKind r.tag.val r.spec.len) ++ (r.spec.payload ++ packed (crcFields r.spec.payload)) := by
  have hlen := r.spec.payload_length
  have hlt := r.spec.len_lt h
  refine (packetBytes_eq (packetKind_lt _) (by omega) (by omega)).trans ?_
  rw [hlen]

theorem TxReq.packet_packed {r : TxReq} (h : r.spec.words.length ≤ 64) : r.packet = packed r.fields := by
  unfold TxReq.fields
  rw [r.packet_eq h, packed_append, packed_append, r.spec.payload_eq]

theorem headerFields_length (kind tag len : Nat) : (packed (headerFields kind tag len)).length = 5 := packed_length _

/-- A field behind the header. -/
theorem TxReq.field_behind {r : TxReq} (h : r.spec.words.length ≤ 64) (o k : Nat) :
    field r.packet (5 + o) k = field (r.spec.payload ++ packed (crcFields r.spec.payload)) o k := by
  rw [r.packet_eq h, field_append_skip (by rw [headerFields_length]; omega), headerFields_length, Nat.add_sub_cancel_left]

/-- A field of the payload. -/
theorem TxReq.field_payload {r : TxReq} (h : r.spec.words.length ≤ 64) {i o k v : Nat} (hi : r.spec.fields[i]? = some (k, v))
    (ho : ((r.spec.fields.take i).map Prod.fst).sum = o) (hv : v < 256 ^ k) (hle : o + k ≤ r.spec.len) :
    field r.packet (5 + o) k = v := by
  rw [TxReq.field_behind h, field_append_front (by rw [r.spec.payload_length]; exact hle), r.spec.payload_eq]
  exact field_packed_of_lt hi ho hv

theorem crcFields_some {p : List Byte} (h : 0 < p.length) :
    crcFields p = [(1, (crc16 p).toNat / 256), (1, (crc16 p).toNat % 256)] := if_neg (by omega)

/-- The CRC behind the payload, high byte first. -/
theorem TxReq.field_crc {r : TxReq} (h : r.spec.words.length ≤ 64) (hlen : 0 < r.spec.len) :
    field r.packet (5 + r.spec.len) 1 = (crc16 r.spec.payload).toNat / 256
      ∧ field r.packet (6 + r.spec.len) 1 = (crc16 r.spec.payload).toNat % 256 := by
  have hcrc := crcFields_some (p := r.spec.payload) (by rw [r.spec.payload_length]; exact hlen)
  have hlt := (crc16 r.spec.payload).isLt
  have hskip : ∀ o, field r.packet (5 + (r.spec.len + o)) 1 = field (packed (crcFields r.spec.payload)) o 1 := fun o => by
    rw [TxReq.field_behind h, field_append_skip (by rw [r.spec.payload_length]; omega), r.spec.payload_length, Nat.add_sub_cancel_left]
  rw [hcrc] at hskip
  refine ⟨(hskip 0).trans (field_packed_of_lt (i := 0) rfl rfl (by omega)), ?_⟩
  rw [show 6 + r.spec.len = 5 + (r.spec.len + 1) by omega]
  exact (hskip 1).trans (field_packed_of_lt (i := 1) rfl rfl (Nat.mod_lt _ (by decide)))

theorem TxReq.packet_length {r : TxReq} (h : r.spec.words.length ≤ 64) :
    r.packet.length = 5 + r.spec.len + (if r.spec.len = 0 then 0 else 2) := by
  rw [r.packet_eq h, List.length_append, List.length_append, headerFields_length, r.spec.payload_length, packed_length, ← Nat.add_assoc]
  refine congrArg (5 + r.spec.len + ·) ?_
  unfold crcFields
  rw [r.spec.payload_length]
  split_ifs <;> rfl

/-- The payload read back from the packet. -/
theorem TxReq.packet_payload {r : TxReq} (h : r.spec.words.length ≤ 64) : (r.packet.drop 5).take r.spec.len = r.spec.payload := by
  rw [r.packet_eq h, List.drop_left' (headerFields_length ..), List.take_left' r.spec.payload_length]

end Sys2Proof.Machine
end

section
/-! The transmitters serve their queues (R62, R63, R94, R95). -/

namespace Sys2Proof.Machine

/-- Settles O44: the link's list, the console's send queue, request packets, check bytes and TX frames. -/
theorem transmittersServeTheirQueues : Obligations.TransmittersServeTheirQueues := by
  unfold Obligations.TransmittersServeTheirQueues
  refine ⟨⟨⟨fun l r front h => LinkPort.kick_waits h, fun l r front hs hup hl => ?_, fun s n p hs hl => ?_,
    fun s n p r rest hs hl hup => ?_⟩, fun s n q k b bs h => ⟨fun hoff => ?_, fun hon hq htx => ?_⟩,
    fun s n q qs k sent x hh hq htx hdue => ⟨fun hk hempty => ?_, fun b bs hlt hb => ?_⟩⟩,
    fun tag r hw hc => ?_, fun v => ?_, fun u now => ⟨fun h => ConsoleUnit.txLine_rest h now, fun x hx hd hb => ⟨fun hlt => ?_,
      fun i hi hlo hhi => ?_, fun h9 => ConsoleUnit.txLine_high hx hd h9⟩⟩⟩
  · have hone : (if front = true then r :: l.txList else l.txList ++ [r]) = [r] := by
      rw [hl]
      cases front <;> rfl
    refine (LinkPort.kick_begins
      (l := { l with txList := if front = true then r :: l.txList else l.txList ++ [r] }) hs hup hone).trans ?_
    rw [← hl]
  · refine congrArg Host.Outcome.next (State.withStation_quiet ((modLp_transmitted hs).trans ?_))
    rw [LinkPort.kick_empty (by exact hl)]
    rfl
  · refine congrArg Host.Outcome.next (State.withStation_quiet ((modLp_transmitted hs).trans ?_))
    rw [LinkPort.kick_begins rfl (by exact hup) (by exact hl)]
    rfl
  · obtain ⟨-, -, -, qs, hq⟩ := id h
    exact (exec_consoleSend_head h.waitingJob).trans (congrArg Host.Outcome.next ((State.gated_executed
      (h.executes nofun nofun) fun e => sendConsole e k (b :: bs)).trans
        (State.withStation_endsWith (u := s.station n) hq (if_neg hoff))))
  · refine (exec_consoleSend_head h.waitingJob).trans (congrArg Host.Outcome.next ((State.gated_executed
      (h.executes nofun nofun) fun e => sendConsole e k (b :: bs)).trans (State.withStation_quiet ((if_pos hon).trans ?_))))
    refine congrArg (fun u => Ctx.mk u s.attention []) ((beginTx_begins (e := s.env n)
      (t := { s.station n with
        head := .consoleSend k 0, cu := { (s.station n).cu with sendQ := (s.station n).cu.sendQ ++ b :: bs } })
      htx ?_).trans rfl)
    show (s.station n).cu.sendQ ++ b :: bs = _
    rw [hq]
    rfl
  · refine congrArg Host.Outcome.next (State.withStation_endsWith
      (u := { s.station n with cu := { (s.station n).cu with tx := none } }) hq ((byteSent_due htx hdue).trans ?_))
    refine Eq.trans ?_ (endHead_beginTx (e := s.env n)
      (c := ⟨{ s.station n with cu := { (s.station n).cu with tx := none } }, s.attention, []⟩) _ hq hempty)
    exact congrArg (Ctx.mod · (beginTx (s.env n))) (countSent_last (by exact hh) (by omega))
  · refine congrArg Host.Outcome.next (State.withStation_quiet ((byteSent_due htx hdue).trans ?_))
    refine (congrArg (Ctx.mod · (beginTx (s.env n))) (countSent_more (by exact hh) (by omega))).trans ?_
    exact congrArg (fun u => Ctx.mk u s.attention []) ((beginTx_begins (e := s.env n)
      (t := { s.station n with head := .consoleSend k (sent + 1), cu := { (s.station n).cu with tx := none } })
      rfl hb).trans rfl)
  · have hw' : (TxReq.mk tag r).spec.words.length ≤ 64 := hw
    have htag := tag.isLt
    have hkind := packetKind_lt r.op
    have hlt := r.len_lt hw
    intro d kind len crc
    have hk : kind = r.op.packetKind := by
      simp only [kind]
      cases r.op <;> rfl
    have hl : len = r.len := by
      simp only [len]
      unfold ReqSpec.len
      cases r.op <;> rfl
    have hcrc : crc = (crc16 r.payload).toNat := by
      show (crc16 ((d.drop 5).take len)).toNat = _
      rw [hl]
      exact congrArg (fun x => (crc16 x).toNat) (TxReq.packet_payload hw')
    clear_value crc kind len
    subst hk hl hcrc
    have hpacked : d = packed (TxReq.mk tag r).fields := TxReq.packet_packed hw'
    have hhead : ∀ {i k v off : Nat}, (TxReq.mk tag r).fields[i]? = some (k, v) →
        (((TxReq.mk tag r).fields.take i).map Prod.fst).sum = off → v < 256 ^ k → field d off k = v := fun hi ho hv =>
      hpacked ▸ field_packed_of_lt hi ho hv
    refine ⟨TxReq.packet_length hw', hhead (i := 0) rfl rfl hkind, hhead (i := 1) rfl rfl (by omega), hhead (i := 2) rfl rfl hlt,
      ?_, fun hop => ?_, fun hop => ?_, fun hop i w hi => ?_, fun hop hle => ?_, fun hpos => TxReq.field_crc hw' hpos⟩
    · unfold byteAt
      rw [hhead (i := 3) (k := 1) (off := 4) rfl rfl (BitVec.isLt _), BitVec.ofNat_toNat, BitVec.setWidth_eq]
    · refine TxReq.field_payload hw' (i := 0) (o := 0) ?_ rfl r.addr.isLt ?_
      · unfold ReqSpec.fields
        rcases hop with hop | hop <;> rw [show (TxReq.mk tag r).spec.op = _ from hop] <;> rfl
      · unfold ReqSpec.len
        rcases hop with hop | hop <;> rw [show (TxReq.mk tag r).spec.op = _ from hop] <;> dsimp only <;> omega
    · have hf : r.fields = [(8, r.addr.toNat), (1, r.count)] := by
        unfold ReqSpec.fields
        rw [hop]
      have hlen : r.len = 9 := by
        unfold ReqSpec.len
        rw [hop]
      refine TxReq.field_payload hw' (i := 1) (o := 8) ?_ ?_ (by omega) (by rw [show (TxReq.mk tag r).spec.len = 9 from hlen])
      · exact congrArg (·[1]?) hf
      · exact congrArg (fun l => ((l.take 1).map Prod.fst).sum) hf
    · have hf : r.fields = (8, r.addr.toNat) :: r.words.map fun w => (4, w.toNat) := by
        unfold ReqSpec.fields
        rw [hop]
      have hlen : r.len = 8 + 4 * r.words.length := by
        unfold ReqSpec.len
        rw [hop]
      obtain ⟨hilt, -⟩ := List.getElem?_eq_some_iff.mp hi
      rw [show 13 + 4 * i = 5 + (8 + 4 * i) by omega]
      refine TxReq.field_payload hw' (i := i + 1) ?_ ?_ w.isLt (by rw [show (TxReq.mk tag r).spec.len = _ from hlen]; omega)
      · refine (congrArg (·[i + 1]?) hf).trans ?_
        rw [List.getElem?_cons_succ, List.getElem?_map, hi]
        rfl
      · refine (congrArg (fun l => ((l.take (i + 1)).map Prod.fst).sum) hf).trans ?_
        have hfours : ((r.words.take i).map fun _ => 4).sum = 4 * i := by
          rw [List.map_const', List.sum_replicate, smul_eq_mul, Nat.mul_comm, List.length_take, Nat.min_eq_left (by omega)]
        rw [List.take_succ_cons, List.map_cons, List.sum_cons, ← List.map_take, List.map_map]
        exact congrArg (8 + ·) hfours
    · have hf : r.fields = [(1, r.addr.toNat)] := by
        unfold ReqSpec.fields
        rw [hop]
      have hlen : r.len = 1 := by
        unfold ReqSpec.len
        rw [hop]
      exact TxReq.field_payload hw' (i := 0) (o := 0) (congrArg (·[0]?) hf) rfl (by omega)
        (by rw [show (TxReq.mk tag r).spec.len = 1 from hlen])
  · intro codes ones
    have hcodes : codes = (List.range 32).map codeNumber := codes_eq
    have hlow : ∀ j ∈ List.range 6, (checkByte v).getLsbD j = (checkBits v).getLsbD j := fun j hj =>
      (checkByte_bit v j).trans (if_pos (List.mem_range.mp hj))
    refine ⟨fun j hj => ?_, ?_, checkByte_bit v 7⟩
    · refine (hlow j (List.mem_range.mpr hj)).trans ((checkBits_bit v hj).trans (oddly_congr fun i hi => ?_))
      rw [hcodes, List.getD_eq_getElem _ _ (by simpa using hi), List.getElem_map, List.getElem_range]
    · rw [checkByte_bit]
      show (parity v ^^ parity (checkBits v)) = _
      rw [oddly_add, parity_eq v, parity_eq (checkBits v), oddly_congr hlow]
  · exact ConsoleUnit.txLine_at (i := 0) hx (by omega) (by omega)
  · refine (ConsoleUnit.txLine_at (i := i + 1) hx hlo hhi).trans (frameBits_data _ hi)

end Sys2Proof.Machine
end

section
/-! Ends of packets: what LP and CAP make of a packet received (R46, R50, R54, R55, R57, R60). -/

namespace Sys2Proof.Machine

/-! ## The quiet timer and the packet's end (R46, R60) -/

theorem endPacket_eq (e : Env) (corrected : Bool) (c : Ctx) :
    endPacket e corrected c = c.mod fun t => { t with lp := t.packetEnds corrected e.now } := by
  unfold endPacket Ctx.modLp Ctx.mod
  dsimp only
  rw [restartQuiet_eq]
  rfl

/-- The verdict on the packet in progress. -/
theorem LinkPort.verdict_of {l : LinkPort} {p : PacketBuf} (hup : l.up = true) (hp : l.packet = some p) :
    l.verdict = some (packetVerdict p) := by
  unfold LinkPort.verdict
  rw [if_pos hup, hp]
  rfl

/-! ## Accepted packets (R54, R55, R57) -/

section
variable {e : Env} {c : Ctx} {corrected : Bool}

/-- The packet in progress has this verdict. -/
def Ctx.judged (c : Ctx) (v : PacketVerdict) : Prop := c.st.lp.verdict = some v

theorem endTrace_judged {ch : BitVec 3} {pay : List Byte} (h : c.judged ⟨corrected, .inr (.trace ch pay)⟩) :
    endTrace e c = acceptTrace e corrected ch pay (endPacket e corrected c) := by
  unfold endTrace
  rw [show c.st.lp.verdict = _ from h]

theorem endProgress_judged {pay : List Byte} (h : c.judged ⟨corrected, .inr (.progress pay)⟩) :
    endProgress e c = acceptProgress e corrected pay (endPacket e corrected c) := by
  unfold endProgress
  rw [show c.st.lp.verdict = _ from h]

theorem endResponse_judged {tag : Nat} {status : Byte} {ws : List Word32} (h : c.judged ⟨corrected, .inr (.response tag status ws)⟩) :
    endResponse e c = takeResponse e tag status ws corrected (endPacket e corrected c) := by
  unfold endResponse
  rw [show c.st.lp.verdict = _ from h]

theorem endNotice_judged {code : Byte} {rest : List Byte} (h : c.judged ⟨corrected, .inr (.notice code rest)⟩) :
    endNotice e c = acceptNotice e corrected code rest (endPacket e corrected c) := by
  unfold endNotice
  rw [show c.st.lp.verdict = _ from h]

theorem endDiscarded_judged {f : DiscardFlag} (h : c.judged ⟨corrected, .inl f⟩) :
    endDiscarded e c = (endPacket e corrected c).modLp fun l => { l with health := l.health.discard f.num } := by
  unfold endDiscarded
  rw [show c.st.lp.verdict = _ from h]

end

theorem BoardRun.afterNotice_eq (b : BoardRun) (code : Byte) :
    b.afterNotice code = if code = 1 then .halted else if code = 2 then .running else if code = 3 then .unknown else b := by
  unfold BoardRun.afterNotice
  split_ifs <;> rfl

/-- Station n becomes `u`, offers a record and reports a condition. -/
theorem State.withStation_told {s : State} {n : StationNo} {f : Env → Ctx → Ctx} {u : Station} {r : SrcRec} {x : Cond}
    (h : f (s.env n) ⟨s.station n, s.attention, []⟩ = report (s.env n) x (offerRec (s.env n) r ⟨u, s.attention, []⟩)) :
    s.withStation n f = s.putReport n (u.take (u.offer s.tb r)) (s.attention ||| (u.offer s.tb r).bits) x :=
  State.withStation_congr (h.trans (congrArg (report (s.env n) x) (offerRec_eq ..)))

/-- Settles O42: accepted TRACE, PROGRESS and NOTICE packets. -/
theorem packetsOfferAndReport : Obligations.PacketsOfferAndReport := by
  unfold Obligations.PacketsOfferAndReport
  intro s c n p corrected hc hup hp t l rec' told
  have hverdict : ∀ v, packetVerdict p = v → Ctx.judged ⟨s.station n, s.attention, []⟩ v := fun v hv =>
    (LinkPort.verdict_of hup hp).trans (congrArg some hv)
  have hend : endPacket (s.env n) corrected ⟨s.station n, s.attention, []⟩ = ⟨{ t with lp := l }, s.attention, []⟩ := endPacket_eq ..
  refine ⟨fun ch pay hv => ⟨fun hon => ?_, fun hoff => ?_⟩, fun pay hv => ?_, fun code rest hv => ?_⟩
  · refine congrArg Host.Outcome.next ((State.atConnector_serves hc _).trans (State.withStation_told ?_))
    rw [endTrace_judged (hverdict _ hv), hend]
    exact if_pos hon
  · refine congrArg Host.Outcome.next ((State.atConnector_serves hc _).trans (State.withStation_quiet ?_))
    rw [endTrace_judged (hverdict _ hv), hend]
    exact if_neg (by rw [show ({ t with lp := l } : Station).prof = t.prof from rfl, hoff]; decide)
  · refine congrArg Host.Outcome.next ((State.atConnector_serves hc _).trans (State.withStation_told ?_))
    rw [endProgress_judged (hverdict _ hv), hend]
    rfl
  · intro run u
    have hrun : t.au.boardRun.afterNotice code = run := BoardRun.afterNotice_eq ..
    have htold : s.withStation n (fun e c => report e (.notice code) (offerRec e
        (SrcRec.now e (.notice code (rest.take 16)) (packetFlags corrected (decide (16 < rest.length))))
        ((endPacket e corrected c).modAu fun a => { a with boardRun := a.boardRun.afterNotice code }))) = u := by
      refine State.withStation_told ?_
      rw [hend, ← hrun]
      rfl
    refine congrArg Host.Outcome.next ((State.atConnector_serves hc _).trans ?_)
    by_cases h1 : code = 1
    · rw [if_pos h1, ← htold, ← State.withStation_setAttn]
      refine Eq.trans (State.withStation_congr ?_) (State.withStation_comp (f := fun _ c => c.setAttn .boardNotice) (Passes.setAttn _) _)
      rw [endNotice_judged (hverdict _ hv)]
      exact if_pos h1
    · rw [if_neg h1, ← htold]
      refine State.withStation_congr ?_
      rw [endNotice_judged (hverdict _ hv)]
      exact if_neg h1

end Sys2Proof.Machine
end

section
/-! The link decoder: items, discards, the health accumulator and a packet's checks (R46 to R60). -/

namespace Sys2Proof.Machine

/-! ## Items -/

section
variable {c : Ctx}

theorem takeStart_down (h : c.st.lp.up = false) : takeStart c = c := by
  unfold takeStart
  rw [h]
  rfl

theorem takeStart_idle (h : c.st.lp.up = true) (hp : c.st.lp.packet = none) :
    takeStart c = c.modLp fun l => { l with packet := some ⟨[], 0⟩, quiet := none } := by
  unfold takeStart
  rw [if_pos h]
  unfold Ctx.modLp Ctx.mod
  dsimp only
  rw [hp]

theorem takeStart_inPacket {p : PacketBuf} (h : c.st.lp.up = true) (hp : c.st.lp.packet = some p) :
    takeStart c = c.modLp fun l => { l with packet := some ⟨[], 0⟩, health := l.health.discard 0 } := by
  unfold takeStart
  rw [if_pos h]
  unfold Ctx.modLp Ctx.mod
  dsimp only
  rw [hp]

theorem takeDataByte_idle (b : Byte) (h : c.st.lp.up = false ∨ c.st.lp.packet = none) : takeDataByte b c = c := by
  unfold takeDataByte
  split_ifs with hup
  · have hp := h.resolve_left (by rw [hup]; decide)
    show Ctx.mk { c.st with lp := { c.st.lp with packet := c.st.lp.packet.map (·.push b) } } c.att c.effs = c
    rw [hp, Option.map_none, ← hp]
  · rfl

theorem takeDataByte_inPacket {p : PacketBuf} (b : Byte) (h : c.st.lp.up = true) (hp : c.st.lp.packet = some p) :
    takeDataByte b c = c.modLp fun l => { l with packet := some (p.push b) } := by
  unfold takeDataByte
  rw [if_pos h]
  show Ctx.mk { c.st with lp := { c.st.lp with packet := c.st.lp.packet.map (·.push b) } } c.att c.effs = _
  rw [hp]
  rfl

end

/-! ## A packet's checks (R47, R48, R51 to R57) -/

theorem packetVerdict_short {p : PacketBuf} (h : p.count < 5) : packetVerdict p = ⟨false, .inl .framing⟩ := by
  unfold packetVerdict
  exact if_pos h

theorem packetVerdict_uncorrectable {p : PacketBuf} (h : 5 ≤ p.count)
    (hc : headerCheck (BitVec.ofNat 32 (field p.bytes 0 4)) (byteAt p.bytes 4) = none) :
    packetVerdict p = ⟨false, .inl .uncorrectable⟩ := by
  unfold packetVerdict
  rw [if_neg (by omega), hc]

theorem packetVerdict_header {p : PacketBuf} {info : BitVec 32} {corrected : Bool} (h : 5 ≤ p.count)
    (hc : headerCheck (BitVec.ofNat 32 (field p.bytes 0 4)) (byteAt p.bytes 4) = some (info, corrected)) :
    packetVerdict p = ⟨corrected, bodyCheck info p.count p.bytes⟩ := by
  unfold packetVerdict
  rw [if_neg (by omega), hc]

/-- What the kind and the form of a payload give, once length and CRC are good (R53 to R57). -/
def formCheck (info : BitVec 32) (payload : List Byte) : DiscardFlag ⊕ Accepted :=
  match info.toNat % 32 with
  | 1 => .inr (.trace (BitVec.ofNat 3 (info.toNat / 32 % 8)) payload)
  | 2 => if info.toNat / 65536 = 0 ∨ 4 < info.toNat / 65536 then .inl .length else .inr (.progress payload)
  | 3 =>
    if info.toNat / 65536 % 4 = 1 then
      .inr (.response (info.toNat / 256 % 256) (byteAt payload 0) (wordsOf (payload.drop 1) (info.toNat / 65536 / 4)))
    else .inl .length
  | 4 =>
    match payload with
    | [] => .inl .length
    | c :: rest => .inr (.notice c rest)
  | _ => .inl .unknownKind

/-- The CRC of the payload, high byte first. -/
def crcBytes (payload : List Byte) : List Byte :=
  [BitVec.ofNat 8 ((crc16 payload).toNat / 256), BitVec.ofNat 8 (crc16 payload).toNat]

theorem bodyCheck_eq (info : BitVec 32) (count : Nat) (bytes : List Byte) : bodyCheck info count bytes
    = if 1024 < info.toNat / 65536 ∨ count - 5 ≠ (if info.toNat / 65536 = 0 then 0 else info.toNat / 65536 + 2) then .inl .length
      else if info.toNat / 65536 ≠ 0 ∧ (bytes.drop (5 + info.toNat / 65536)).take 2
          ≠ crcBytes ((bytes.drop 5).take (info.toNat / 65536)) then .inl .crc
      else formCheck info ((bytes.drop 5).take (info.toNat / 65536)) := rfl

/-- Two bytes are the ones wanted when each field has the wanted value. -/
theorem take_two_eq_iff {d : List Byte} {o : Nat} (h : o + 2 ≤ d.length) (x y : Byte) :
    (d.drop o).take 2 = [x, y] ↔ field d o 1 = x.toNat ∧ field d (o + 1) 1 = y.toNat := by
  have hlen : 2 ≤ (d.drop o).length := by rw [List.length_drop]; omega
  rw [← Nat.add_zero o, ← field_drop, Nat.add_zero, ← field_drop]
  generalize d.drop o = l at hlen
  match l, hlen with
  | a :: b :: rest, _ =>
    show [a, b] = [x, y] ↔ a.toNat + 256 * 0 = x.toNat ∧ b.toNat + 256 * 0 = y.toNat
    rw [Nat.mul_zero, Nat.add_zero, Nat.add_zero, BitVec.toNat_inj, BitVec.toNat_inj]
    simp

theorem crcBytes_toNat (p : List Byte) : (BitVec.ofNat 8 ((crc16 p).toNat / 256)).toNat = (crc16 p).toNat / 256
    ∧ (BitVec.ofNat 8 (crc16 p).toNat).toNat = (crc16 p).toNat % 256 := by
  have h := (crc16 p).isLt
  refine ⟨?_, BitVec.toNat_ofNat ..⟩
  rw [BitVec.toNat_ofNat]
  omega

/-- Settles O40: items, discards, the quiet timer's end, and a packet's checks in order. -/
theorem decoderTakesItems : Obligations.DecoderTakesItems := by
  unfold Obligations.DecoderTakesItems
  refine ⟨⟨fun s c n hc => ?_, fun s c n p corrected f hc hup hp hv => ?_, fun p => packetVerdict_short, fun s n hdue => ?_⟩,
    fun p hlen h5 => ?_, fun info check h7 => ?_, rfl, fun bs b => ?_⟩
  · have hat := fun f => State.atConnector_serves hc f
    refine ⟨fun hdown b => ⟨?_, ?_, ?_⟩, fun hup hp => ?_, fun hup hp => ?_, fun hup hp b => ?_, fun hup p b hp => ?_, fun hup hp => ?_⟩
    · exact congrArg Host.Outcome.next ((hat _).trans ((State.withStation_quiet (takeStart_down hdown)).trans (State.put_self ..)))
    · exact congrArg Host.Outcome.next ((hat _).trans ((State.withStation_quiet (takeDataByte_idle b (.inl hdown))).trans
        (State.put_self ..)))
    · refine congrArg Host.Outcome.next ((hat _).trans ((State.withStation_quiet ?_).trans (State.put_self ..)))
      exact if_neg (by rw [hdown, Bool.false_and]; decide)
    · exact congrArg Host.Outcome.next ((hat _).trans (State.withStation_quiet (takeStart_idle hup hp)))
    · obtain ⟨p, hp'⟩ := Option.ne_none_iff_exists'.mp hp
      exact congrArg Host.Outcome.next ((hat _).trans (State.withStation_quiet (takeStart_inPacket hup hp')))
    · exact congrArg Host.Outcome.next ((hat _).trans ((State.withStation_quiet (takeDataByte_idle b (.inr hp))).trans
        (State.put_self ..)))
    · exact congrArg Host.Outcome.next ((hat _).trans (State.withStation_quiet (takeDataByte_inPacket b hup hp)))
    · refine congrArg Host.Outcome.next ((hat _).trans (State.withStation_quiet ((if_pos ?_).trans ?_)))
      · rw [hup, hp]
        rfl
      · exact congrArg (fun u => Ctx.mk u s.attention []) (restartQuiet_eq (s.env n) _)
  · intro l num
    have hjudged : Ctx.judged ⟨s.station n, s.attention, []⟩ ⟨corrected, .inl f⟩ :=
      (LinkPort.verdict_of hup hp).trans (congrArg some hv)
    refine congrArg Host.Outcome.next ((State.atConnector_serves hc _).trans (State.withStation_quiet ?_))
    rw [endDiscarded_judged hjudged, endPacket_eq]
    cases f <;> rfl
  · intro t
    have hdo : s.withStation n (fun e c => if due c.st.lp.quiet e.now then quietExpires e c else c)
        = s.withStation n quietExpires := State.withStation_congr (if_pos hdue)
    refine ⟨fun he => congrArg Host.Outcome.next (hdo.trans (State.withStation_quiet (if_pos (beq_iff_eq.mpr he)))),
      fun hne => congrArg Host.Outcome.next (hdo.trans (State.withStation_quiet ?_))⟩
    unfold quietExpires
    refine (if_neg fun h => hne (beq_iff_eq.mp h)).trans ?_
    exact offerRec_eq ..
  · intro first
    refine ⟨fun hnone => packetVerdict_uncorrectable h5 hnone, fun info corrected hsome => ?_⟩
    intro kind channel tag len payload crc gives badLength badCrc
    have hv := packetVerdict_header h5 hsome
    rw [bodyCheck_eq] at hv
    have hlong : ¬ badLength → len ≠ 0 → 5 + len + 2 ≤ p.bytes.length := fun hgood h0 => by
      obtain ⟨h1, h2⟩ := not_or.mp hgood
      rw [not_not, if_neg h0] at h2
      rw [hlen]
      omega
    have hcrc : ¬ badLength → (badCrc ↔ len ≠ 0 ∧ (p.bytes.drop (5 + len)).take 2 ≠ crcBytes payload) := fun hgood => by
      refine and_congr_right fun h0 => not_congr ?_
      unfold crcBytes
      rw [take_two_eq_iff (hlong hgood h0), (crcBytes_toNat payload).1, (crcBytes_toNat payload).2,
        show 5 + len + 1 = 6 + len by omega]
    have hform : ¬ badLength → ¬ badCrc → packetVerdict p = ⟨corrected, formCheck info payload⟩ := fun h1 h2 => by
      rw [hv, if_neg h1, if_neg ((not_congr (hcrc h1)).mp h2)]
    refine ⟨fun h1 => by rw [if_pos h1] at hv; exact hv, fun h1 h2 => ?_, fun h1 h2 => ?_⟩
    · rw [if_neg h1, if_pos ((hcrc h1).mp h2)] at hv
      exact hv
    · have hgives : ∀ r, formCheck info payload = r → gives r := fun r hr => (hform h1 h2).trans (by rw [hr])
      have hkind : ∀ k, kind = k → info.toNat % 32 = k := fun k hk => hk
      refine ⟨fun hk => hgives _ ?_, fun hk hl => hgives _ ?_, fun hk hl => hgives _ ?_, fun hk hl => ?_, fun hk hl => hgives _ ?_,
        fun hk code rest hpay => hgives _ ?_, fun hk hl => hgives _ ?_, fun hk => hgives _ ?_⟩
      · unfold formCheck
        rw [hkind _ hk]
        rfl
      · unfold formCheck
        rw [hkind _ hk]
        exact if_neg (by simp only [len] at hl; omega)
      · unfold formCheck
        rw [hkind _ hk]
        exact if_pos hl
      · refine ⟨wordsOf (payload.drop 1) (len / 4), hgives _ ?_, wordsOf_length .., fun i w hw => ?_⟩
        · unfold formCheck
          rw [hkind _ hk]
          exact if_pos hl
        · rw [wordsOf_get hw, field_drop]
      · unfold formCheck
        rw [hkind _ hk]
        exact if_neg hl
      · unfold formCheck
        rw [hkind _ hk, hpay]
        rfl
      · have hnil : payload = [] := by
          simp only [payload]
          rw [hl]
          rfl
        unfold formCheck
        rw [hkind _ hk, hnil]
        rfl
      · unfold formCheck
        split
        case h_5 => rfl
        all_goals exact absurd (by rw [show kind = _ from ‹info.toNat % 32 = _›]; decide) hk
  · unfold headerCheck
    exact if_pos h7
  · unfold crc16
    rw [List.foldl_append]
    rfl

end Sys2Proof.Machine
end

section
/-! The header check code corrects one wrong bit and detects two (R49, R50, Table 3-5). The code is linear, so
what a header check makes of wrong bits does not depend on the header they stand in. -/

namespace Sys2Proof.Machine

/-! ## The code is linear -/

theorem oddly_xor {α : Type} (p q : α → Bool) (l : List α) : oddly (fun a => p a ^^ q a) l = (oddly p l ^^ oddly q l) := by
  induction l with
  | nil => rfl
  | cons a l ih =>
    rw [oddly_cons, oddly_cons, oddly_cons, ih]
    cases p a <;> cases q a <;> cases oddly p l <;> cases oddly q l <;> rfl

theorem oddly_append {α : Type} (p : α → Bool) (l m : List α) : oddly p (l ++ m) = (oddly p l ^^ oddly p m) := by
  rw [← oddly_add, ← List.length_append, ← List.filter_append]
  rfl

theorem parity_xor {w : Nat} (v d : BitVec w) : parity (v ^^^ d) = (parity v ^^ parity d) := by
  rw [parity_eq, parity_eq, parity_eq, ← oddly_xor]
  exact oddly_congr fun _ _ => BitVec.getLsbD_xor

theorem checkBits_xor (v d : BitVec 32) : checkBits (v ^^^ d) = checkBits v ^^^ checkBits d := by
  refine BitVec.eq_of_getLsbD_eq fun j hj => ?_
  rw [BitVec.getLsbD_xor, checkBits_bit _ hj, checkBits_bit _ hj, checkBits_bit _ hj, ← oddly_xor]
  refine oddly_congr fun i _ => ?_
  rw [BitVec.getLsbD_xor]
  cases v.getLsbD i <;> cases d.getLsbD i <;> cases (codeNumber i).testBit j <;> rfl

theorem checkByte_low (v : BitVec 32) : (checkByte v).truncate 6 = checkBits v := by
  refine BitVec.eq_of_getLsbD_eq fun j hj => ?_
  rw [BitVec.truncate_eq_setWidth, BitVec.getLsbD_setWidth, decide_eq_true hj, Bool.true_and, checkByte_bit, if_pos hj]

/-- The seven check bits and the info bits together have even parity (R49). -/
theorem parity_checkByte (v : BitVec 32) : parity ((checkByte v).truncate 7) = parity v := by
  have hbit : ∀ j ∈ List.range 7, ((checkByte v).truncate 7).getLsbD j = (checkByte v).getLsbD j := fun j hj => by
    rw [BitVec.truncate_eq_setWidth, BitVec.getLsbD_setWidth, decide_eq_true (List.mem_range.mp hj), Bool.true_and]
  have hsplit : oddly (checkByte v).getLsbD (List.range 7)
      = (oddly (checkByte v).getLsbD (List.range 6) ^^ (checkByte v).getLsbD 6) := by
    rw [List.range_succ, oddly_append, oddly_cons, oddly_nil, Bool.xor_false]
  have hlow : ∀ j ∈ List.range 6, (checkByte v).getLsbD j = (checkBits v).getLsbD j := fun j hj =>
    (checkByte_bit v j).trans (if_pos (List.mem_range.mp hj))
  rw [parity_eq, oddly_congr hbit, hsplit, oddly_congr hlow, ← parity_eq, checkByte_bit]
  show (parity (checkBits v) ^^ (parity v ^^ parity (checkBits v))) = parity v
  cases parity v <;> cases parity (checkBits v) <;> rfl

/-! ## What a header check makes of a syndrome -/

/-- The info bits a syndrome and a parity give (Table 3-5). -/
def correctBy (info : BitVec 32) (s : Nat) (q : Bool) : Option (BitVec 32 × Bool) :=
  if s = 0 then some (info, q)
  else if !q then none
  else
    match (List.range 32).find? (fun i => codeNumber i == s) with
    | some i => some (info ^^^ (1#32 <<< i), true)
    | none => if s ∈ [1, 2, 4, 8, 16, 32] then some (info, true) else none

theorem headerCheck_eq {info : BitVec 32} {check : Byte} (h : check.getLsbD 7 = false) : headerCheck info check
    = correctBy info (checkBits info ^^^ check.truncate 6).toNat (parity info ^^ parity (check.truncate 7)) := by
  unfold headerCheck
  exact if_neg (by rw [h]; decide)

theorem correctBy_xor (v d : BitVec 32) (s : Nat) (q : Bool) :
    correctBy (v ^^^ d) s q = (correctBy d s q).map fun r => (v ^^^ r.1, r.2) := by
  unfold correctBy
  by_cases h0 : s = 0
  · rw [if_pos h0, if_pos h0]
    rfl
  · rw [if_neg h0, if_neg h0]
    cases q with
    | false => rfl
    | true =>
      cases (List.range 32).find? fun i => codeNumber i == s with
      | some i => exact congrArg (fun x => some (x, true)) (BitVec.xor_assoc ..)
      | none =>
        show (if _ then _ else _) = (if _ then _ else _ : Option _).map _
        split_ifs <;> rfl

/-- The wrong bits decide, whatever header they stand in. -/
theorem headerCheck_wrong (v d : BitVec 32) {e : Byte} (h : e.getLsbD 7 = false) :
    headerCheck (v ^^^ d) (checkByte v ^^^ e)
      = (correctBy d (checkBits d ^^^ e.truncate 6).toNat (parity d ^^ parity (e.truncate 7))).map fun r => (v ^^^ r.1, r.2) := by
  have h7 : (checkByte v ^^^ e).getLsbD 7 = false := by
    rw [BitVec.getLsbD_xor, checkByte_bit, h]
    rfl
  have htrunc : ∀ k, (checkByte v ^^^ e).truncate k = (checkByte v).truncate k ^^^ e.truncate k := fun k => BitVec.setWidth_xor
  have hs : checkBits v ^^^ checkBits d ^^^ (checkBits v ^^^ e.truncate 6) = checkBits d ^^^ e.truncate 6 := by
    rw [BitVec.xor_comm (checkBits v) (checkBits d), BitVec.xor_assoc, ← BitVec.xor_assoc (checkBits v) (checkBits v), BitVec.xor_self,
      BitVec.zero_xor]
  have hq : (parity v ^^ parity d ^^ (parity v ^^ parity (e.truncate 7))) = (parity d ^^ parity (e.truncate 7)) := by
    cases parity v <;> cases parity d <;> cases parity (e.truncate 7) <;> rfl
  rw [headerCheck_eq h7, htrunc, htrunc, checkByte_low, parity_xor v d, parity_xor, parity_checkByte, checkBits_xor, hs, hq, correctBy_xor]

theorem xor_pairs {w : Nat} (a b c d : BitVec w) : a ^^^ b ^^^ (c ^^^ d) = a ^^^ c ^^^ (b ^^^ d) := by
  rw [BitVec.xor_assoc, BitVec.xor_assoc, ← BitVec.xor_assoc b, BitVec.xor_comm b c, BitVec.xor_assoc]

/-! ## Wrong bits -/

/-- A wrong info bit, at positions 0 to 31. -/
def wrongInfo (i : Nat) : BitVec 32 := if i < 32 then 1#32 <<< i else 0

/-- A wrong check bit, at positions 32 to 38. -/
def wrongCheck (i : Nat) : Byte := if i < 32 then 0 else 1#8 <<< (i - 32)

/-- The syndrome of a wrong bit. -/
def syndrome (i : Nat) : BitVec 6 := checkBits (wrongInfo i) ^^^ (wrongCheck i).truncate 6

theorem wrongCheck_bit : ∀ i < 39, (wrongCheck i).getLsbD 7 = false := by decide

theorem wrong_oddly : ∀ i < 39, (oddly (wrongInfo i).getLsbD (List.range 32)
    ^^ oddly ((wrongCheck i).truncate 7).getLsbD (List.range 7)) = true := by decide

theorem wrong_parity (i : Nat) (hi : i < 39) : (parity (wrongInfo i) ^^ parity ((wrongCheck i).truncate 7)) = true := by
  rw [parity_eq, parity_eq]
  exact wrong_oddly i hi

/-- The syndrome number of a wrong bit: an info bit's code number, a check bit's power of two, 0 for p6 (R49). -/
def syndromeNumber (i : Nat) : Nat := if i < 32 then codeNumber i else if i < 38 then 2 ^ (i - 32) else 0

theorem syndrome_number : ∀ i < 39, (syndrome i).toNat = syndromeNumber i := by decide

theorem syndromeNumbers_nodup : ((List.range 39).map syndromeNumber).Nodup := by decide

theorem syndromeNumber_inj {i j : Nat} (hi : i < 39) (hj : j < 39) (h : syndromeNumber i = syndromeNumber j) : i = j :=
  List.inj_on_of_nodup_map syndromeNumbers_nodup (List.mem_range.mpr hi) (List.mem_range.mpr hj) h

theorem codeNumber_pos (i : Nat) : codeNumber i ≠ 0 := by
  unfold codeNumber
  split_ifs <;> omega

/-- A wrong info bit is found by its code number. -/
theorem find_codeNumber {i : Nat} (hi : i < 32) : (List.range 32).find? (fun k => codeNumber k == codeNumber i) = some i := by
  cases hf : (List.range 32).find? fun k => codeNumber k == codeNumber i with
  | none => exact absurd (beq_self_eq_true _) (List.find?_eq_none.mp hf i (List.mem_range.mpr hi))
  | some k =>
    have hk : k < 32 := List.mem_range.mp (List.mem_of_find?_eq_some hf)
    have heq : codeNumber k = codeNumber i := beq_iff_eq.mp (List.find?_some (p := fun k => codeNumber k == codeNumber i) hf)
    have hnum : ∀ j, j < 32 → syndromeNumber j = codeNumber j := fun j hj => if_pos hj
    rw [syndromeNumber_inj (i := k) (j := i) (by omega) (by omega) (by rw [hnum k hk, hnum i hi, heq])]

/-- No info bit has a check bit's syndrome. -/
theorem find_checkBit {i : Nat} (h32 : 32 ≤ i) (hi : i < 39) : (List.range 32).find? (fun k => codeNumber k == syndromeNumber i) = none := by
  refine List.find?_eq_none.mpr fun k hk h => ?_
  have hk' : k < 32 := List.mem_range.mp hk
  have := syndromeNumber_inj (i := k) (by omega) hi ((if_pos hk').trans (beq_iff_eq.mp h))
  omega

theorem checkBit_mem : ∀ i < 6, 2 ^ i ≠ 0 ∧ 2 ^ i ∈ [1, 2, 4, 8, 16, 32] := by decide

/-- A single wrong bit is corrected. -/
theorem wrong_corrected {i : Nat} (hi : i < 39) : correctBy (wrongInfo i) (syndromeNumber i) true = some (0, true) := by
  unfold correctBy wrongInfo
  by_cases h32 : i < 32
  · have hs : syndromeNumber i = codeNumber i := if_pos h32
    rw [if_pos h32, hs, if_neg (codeNumber_pos i), find_codeNumber h32]
    exact congrArg (fun x => some (x, true)) BitVec.xor_self
  · rw [if_neg h32]
    by_cases h38 : i < 38
    · have hs : syndromeNumber i = 2 ^ (i - 32) := (if_neg h32).trans (if_pos h38)
      obtain ⟨hne, hmem⟩ := checkBit_mem (i - 32) (by omega)
      rw [find_checkBit (by omega) hi, hs, if_neg hne]
      exact if_pos hmem
    · rw [show syndromeNumber i = 0 from (if_neg h32).trans (if_neg h38)]
      rfl

/-- Settles O41: any one wrong bit is corrected, any two are detected. -/
theorem headerCodeCorrectsOneDetectsTwo : Obligations.HeaderCodeCorrectsOneDetectsTwo := by
  unfold Obligations.HeaderCodeCorrectsOneDetectsTwo
  intro flip flipC v
  have hflip : ∀ v i, flip v i = v ^^^ wrongInfo i := fun v i => by
    unfold wrongInfo
    simp only [flip]
    split_ifs
    · rfl
    · exact BitVec.xor_zero.symm
  have hflipC : ∀ c i, flipC c i = c ^^^ wrongCheck i := fun c i => by
    unfold wrongCheck
    simp only [flipC]
    split_ifs
    · exact BitVec.xor_zero.symm
    · rfl
  refine ⟨?_, fun i hi => ?_, fun i hi j hj hij => ?_⟩
  · have h := headerCheck_wrong v 0 (e := 0) rfl
    rw [show v ^^^ 0 = v from BitVec.xor_zero, show checkByte v ^^^ 0 = checkByte v from BitVec.xor_zero] at h
    refine h.trans ?_
    have h0 : correctBy 0 (checkBits 0 ^^^ (0 : Byte).truncate 6).toNat (parity (0 : BitVec 32) ^^ parity ((0 : Byte).truncate 7))
        = some (0, false) := by decide
    rw [h0]
    exact congrArg (fun x => some (x, false)) BitVec.xor_zero
  · rw [hflip, hflipC, headerCheck_wrong _ _ (wrongCheck_bit i hi), wrong_parity i hi,
      show checkBits (wrongInfo i) ^^^ (wrongCheck i).truncate 6 = syndrome i from rfl, syndrome_number i hi, wrong_corrected hi]
    exact congrArg (fun x => some (x, true)) BitVec.xor_zero
  · have h7 : (wrongCheck i ^^^ wrongCheck j).getLsbD 7 = false := by
      rw [BitVec.getLsbD_xor, wrongCheck_bit i hi, wrongCheck_bit j hj]
      rfl
    have hs : checkBits (wrongInfo i ^^^ wrongInfo j) ^^^ (wrongCheck i ^^^ wrongCheck j).truncate 6 = syndrome i ^^^ syndrome j := by
      unfold syndrome
      rw [checkBits_xor, show (wrongCheck i ^^^ wrongCheck j).truncate 6 = (wrongCheck i).truncate 6 ^^^ (wrongCheck j).truncate 6
        from BitVec.setWidth_xor]
      exact xor_pairs ..
    have hq : (parity (wrongInfo i ^^^ wrongInfo j) ^^ parity ((wrongCheck i ^^^ wrongCheck j).truncate 7)) = false := by
      have hi' := wrong_parity i hi
      have hj' := wrong_parity j hj
      rw [show (wrongCheck i ^^^ wrongCheck j).truncate 7 = (wrongCheck i).truncate 7 ^^^ (wrongCheck j).truncate 7
        from BitVec.setWidth_xor, parity_xor, parity_xor]
      generalize parity (wrongInfo i) = a at *
      generalize parity (wrongInfo j) = b at *
      generalize parity ((wrongCheck i).truncate 7) = x at *
      generalize parity ((wrongCheck j).truncate 7) = y at *
      revert hi' hj'
      revert a b x y
      decide
    have hne : (syndrome i ^^^ syndrome j).toNat ≠ 0 := fun h0 => by
      have heq : syndrome i = syndrome j := BitVec.xor_eq_zero_iff.mp (BitVec.eq_of_toNat_eq h0)
      have hnum := congrArg BitVec.toNat heq
      rw [syndrome_number i hi, syndrome_number j hj] at hnum
      exact hij (syndromeNumber_inj hi hj hnum)
    rw [hflip, hflip, hflipC, hflipC, BitVec.xor_assoc v, BitVec.xor_assoc (checkByte v), headerCheck_wrong _ _ h7, hs, hq]
    unfold correctBy
    rw [if_neg hne]
    rfl

end Sys2Proof.Machine
end

section
/-! The console receiver: lines closed, bytes stored, patterns compared (R84 to R93). -/

namespace Sys2Proof.Machine

/-! ## A line closes (R88, R91) -/

/-- CAP's answer to an offer leaves CU alone. -/
theorem Station.take_withCu (t : Station) (o : CapOut) (u : ConsoleUnit) :
    { t.take o with cu := u } = ({ t with cu := u } : Station).take o := by
  unfold Station.take
  split <;> rfl

/-- A station whose line has closed. -/
def Station.lineClosed (t : Station) : Station := { t with cu := { t.cu with line := [], idle := none } }

theorem closeLine_eq (e : Env) (flags : LineFlags) (tm : Tick) (c : Ctx) :
    closeLine e flags tm c = offerRec e (lineRecord c.st.cu flags tm) ⟨c.st.lineClosed, c.att, c.effs⟩ := by
  unfold closeLine Ctx.modCu Ctx.mod Station.lineClosed
  rw [offerRec_eq, offerRec_eq]
  dsimp only
  rw [Station.take_cu]
  exact congrArg (fun u => Ctx.mk u _ c.effs) (Station.take_withCu ..)

/-- The record of a closed line (R91). -/
def lineRec (line : List LineByte) (flags : LineFlags) (tm first : Tick) : SrcRec :=
  ⟨.consoleLine { flags with framing := line.any LineByte.framing } 0 (line.map LineByte.val),
    ⟨false, false, false, line.any LineByte.framing || flags.brk⟩, tm, some first⟩

theorem lineRecord_eq (u : ConsoleUnit) (flags : LineFlags) (tm : Tick) :
    lineRecord u flags tm = lineRec u.line flags tm (if u.line = [] then tm else u.origin) := by
  unfold lineRecord lineRec
  simp only [List.isEmpty_iff]
  rfl

section
variable {s : State} {n : StationNo} {f : Env → Ctx → Ctx} {t : Station} {flags : LineFlags} {tm : Tick}

/-- Work that comes to a line's close. -/
theorem State.withStation_closes (h : f (s.env n) ⟨s.station n, s.attention, []⟩ = closeLine (s.env n) flags tm ⟨t, s.attention, []⟩) :
    s.withStation n f = s.putOffer n t.lineClosed s.attention
      (lineRec t.cu.line flags tm (if t.cu.line = [] then tm else t.cu.origin)) := by
  refine State.withStation_quiet (h.trans ?_)
  rw [closeLine_eq, lineRecord_eq, offerRec_eq]
  rfl

end

/-! ## Reports of the patterns matched (R93) -/

theorem report_cu (e : Env) (x : Cond) (c : Ctx) : (report e x c).st.cu = c.st.cu ∧ (report e x c).st.prof = c.st.prof := by
  obtain ⟨-, hst⟩ := report_fired e x c
  unfold Station.prof
  rw [hst]
  exact ⟨rfl, rfl⟩

theorem foldReport_cu (e : Env) (xs : List Cond) (c : Ctx) : (xs.foldl (fun c x => report e x c) c).st.cu = c.st.cu
    ∧ (xs.foldl (fun c x => report e x c) c).st.prof = c.st.prof := by
  induction xs generalizing c with
  | nil => exact ⟨rfl, rfl⟩
  | cons x xs ih =>
    obtain ⟨hcu, hprof⟩ := report_cu e x c
    obtain ⟨hcu', hprof'⟩ := ih (report e x c)
    exact ⟨hcu'.trans hcu, hprof'.trans hprof⟩

/-! ## A byte is stored (R86, R87) -/

/-- A station that has stored a byte: it joins the line, and the idle close timer runs anew. -/
def Station.stored (t : Station) (now : Nat) (b : LineByte) : Station :=
  { t with cu := { t.cu with line := t.cu.line ++ [b], idle := some (now + t.prof.idleCloseMs * 100000) } }

/-- The conditions a stored byte's patterns give. -/
def Station.matched (t : Station) : List Cond := (matchingPatterns t.cu.patterns t.cu.line).map Cond.pattern

theorem storeByte_eq (e : Env) (b : LineByte) (tm : Tick) (c : Ctx) : storeByte e b tm c =
    (if c.st.prof.lineLimit ≤ (c.st.stored e.now b).cu.line.length then closeLine e { LineFlags.none with split := true } tm
      ((c.st.stored e.now b).matched.foldl (fun c x => report e x c) ⟨c.st.stored e.now b, c.att, c.effs⟩)
    else (c.st.stored e.now b).matched.foldl (fun c x => report e x c) ⟨c.st.stored e.now b, c.att, c.effs⟩) := by
  unfold storeByte
  have hstored : (c.modCu fun u => { u with line := u.line ++ [b] }).mod (restartIdle e) = ⟨c.st.stored e.now b, c.att, c.effs⟩ := by
    unfold Ctx.modCu Ctx.mod restartIdle Station.stored Config.ticksPerMs
    rfl
  rw [hstored]
  dsimp only
  rw [← List.foldl_map (f := Cond.pattern) (g := fun c x => report e x c)]
  obtain ⟨hcu, hprof⟩ := foldReport_cu e (c.st.stored e.now b).matched ⟨c.st.stored e.now b, c.att, c.effs⟩
  unfold Station.matched at hcu hprof ⊢
  rw [hcu, hprof]
  rfl

section
variable {s : State} {n : StationNo} {f : Env → Ctx → Ctx} {t : Station} {b : LineByte} {tm : Tick}

/-- Work that comes to a stored byte: the patterns are reported, and a full line closes with SPLIT. -/
theorem State.withStation_stores (h : f (s.env n) ⟨s.station n, s.attention, []⟩ = storeByte (s.env n) b tm ⟨t, s.attention, []⟩) :
    let s' := s.putReports n (t.stored s.elapsed b) s.attention (t.stored s.elapsed b).matched
    ((t.cu.line ++ [b]).length < t.prof.lineLimit → s.withStation n f = s')
      ∧ (t.prof.lineLimit ≤ (t.cu.line ++ [b]).length → s.withStation n f = s'.putOffer n (s'.station n).lineClosed s'.attention
        (lineRec (t.cu.line ++ [b]) { LineFlags.none with split := true } tm t.cu.origin)) := by
  intro s'
  rw [storeByte_eq] at h
  refine ⟨fun hlt => State.withStation_congr (h.trans (if_neg (Nat.not_le_of_lt hlt))), fun hle => ?_⟩
  have hcloses : s.withStation n f = s.withStation n fun e c => closeLine e { LineFlags.none with split := true } tm
      ((t.stored s.elapsed b).matched.foldl (fun c x => report e x c) ⟨t.stored s.elapsed b, s.attention, []⟩) :=
    State.withStation_congr (h.trans (if_pos hle))
  have hcu : (s'.station n).cu = (t.stored s.elapsed b).cu := by
    refine (congrArg Station.cu (State.withStation_station ..)).trans ?_
    exact (foldReport_cu (s.env n) _ _).1
  refine hcloses.trans ((State.withStation_comp (f := fun e => closeLine e { LineFlags.none with split := true } tm)
    (Passes.closeLine _ _ _) _).trans ((State.withStation_closes (t := s'.station n) rfl).trans ?_))
  rw [hcu]
  have hne : t.cu.line ++ [b] ≠ [] := by simp
  exact congrArg (fun x => s'.putOffer n (s'.station n).lineClosed s'.attention (lineRec (t.cu.line ++ [b]) _ tm x)) (if_neg hne)

theorem State.putReports_nil (s : State) (n : StationNo) (u : Station) (a : BitVec 11) : s.putReports n u a [] = s.put n u a := rfl

end

/-- A station whose next line byte comes at `tm`. -/
def Station.byteAt (t : Station) (tm : Tick) : Station :=
  { t with cu := { t.cu with rx := .idle, origin := if t.cu.line = [] then tm else t.cu.origin } }

theorem takeByte_eq (e : Env) (b : LineByte) (tm : Tick) (c : Ctx) : takeByte e b tm (c.modCu fun u => { u with rx := .idle })
    = if b.val = 0x0A ∧ b.framing = false then closeLine e LineFlags.none tm ⟨c.st.byteAt tm, c.att, c.effs⟩
      else storeByte e b tm ⟨c.st.byteAt tm, c.att, c.effs⟩ := by
  have hctx : (if (c.modCu fun u => { u with rx := .idle }).st.cu.line.isEmpty = true then
      (c.modCu fun u => { u with rx := .idle }).modCu fun u => { u with origin := tm }
      else c.modCu fun u => { u with rx := .idle }) = ⟨c.st.byteAt tm, c.att, c.effs⟩ := by
    unfold Station.byteAt
    by_cases hl : c.st.cu.line = []
    · rw [if_pos hl]
      exact if_pos (by simpa [Ctx.modCu, Ctx.mod] using hl)
    · rw [if_neg hl]
      exact if_neg (by simpa [Ctx.modCu, Ctx.mod] using hl)
  unfold takeByte
  dsimp only
  rw [hctx]

end Sys2Proof.Machine
end

section
/-! The console receiver takes frames; the pattern matcher (R84 to R93). -/

namespace Sys2Proof.Machine

/-! ## The pattern matcher (R93) -/

theorem PatPos.matches_iff (p : PatPos) (b : LineByte) :
    p.matches b = true ↔ b.val &&& p.care = p.value &&& p.care ∧ (p.care ≠ 0 → b.framing = false) := by
  unfold PatPos.matches
  rw [Bool.and_eq_true, beq_iff_eq, Bool.or_eq_true, beq_iff_eq, Bool.not_eq_true', ← or_iff_not_imp_left]

theorem all_zip_iff {α β : Type} (r : α → β → Bool) (l : List α) (m : List β) :
    (l.zip m).all (fun x => r x.1 x.2) = true ↔ ∀ (i : Nat) (a : α) (b : β), l[i]? = some a → m[i]? = some b → r a b = true := by
  rw [List.all_eq_true]
  constructor
  · intro h i a b ha hb
    exact h (a, b) (List.mem_of_getElem? (List.getElem?_zip_eq_some.mpr ⟨ha, hb⟩))
  · intro h x hx
    obtain ⟨i, hi⟩ := List.mem_iff_getElem?.mp hx
    obtain ⟨ha, hb⟩ := List.getElem?_zip_eq_some.mp hi
    exact h i x.1 x.2 ha hb

theorem patternMatches_iff (p : List PatPos) (line : List LineByte) : patternMatches p line = true ↔
    p.length ≤ line.length ∧ ∀ (i : Nat) (y : PatPos) (b : LineByte), p[i]? = some y →
      (line.drop (line.length - p.length))[i]? = some b →
      b.val &&& y.care = y.value &&& y.care ∧ (y.care ≠ 0 → b.framing = false) := by
  unfold patternMatches
  rw [Bool.and_eq_true, decide_eq_true_iff, all_zip_iff]
  simp only [PatPos.matches_iff]

theorem mem_matchingPatterns {ps : List (List PatPos)} {line : List LineByte} {k : Nat} :
    k ∈ matchingPatterns ps line ↔ ∃ p, ps[k]? = some p ∧ patternMatches p line = true := by
  unfold matchingPatterns
  rw [List.mem_filter, List.mem_range]
  constructor
  · rintro ⟨hk, hm⟩
    rw [List.getD_eq_getElem _ _ hk] at hm
    exact ⟨_, List.getElem?_eq_getElem hk, hm⟩
  · rintro ⟨p, hp, hm⟩
    obtain ⟨hk, rfl⟩ := List.getElem?_eq_some_iff.mp hp
    rw [List.getD_eq_getElem _ _ hk]
    exact ⟨hk, hm⟩

theorem matchingPatterns_sorted (ps : List (List PatPos)) (line : List LineByte) :
    (matchingPatterns ps line).Pairwise (· < ·) := List.pairwise_lt_range.filter _

/-! ## The receiver's states (R84, R85) -/

section
variable {e : Env} {c : Ctx} {edge d : Nat} {tm : Tick}

theorem startEdge_idle (h : c.st.cu.rx = .idle) :
    startEdge e c = c.modCu fun u => { u with rx := .starting e.now c.st.prof.divisor } := by
  unfold startEdge
  rw [h]

theorem startEdge_other (h : c.st.cu.rx ≠ .idle) : startEdge e c = c := by
  unfold startEdge
  split
  case h_1 hi => exact absurd hi h
  all_goals rfl

theorem startSample_starting (high : Bool) (h : c.st.cu.rx = .starting edge d) : startSample e high c =
    if edge + d / 2 ≤ e.now then
      if high then c.modCu fun u => { u with rx := .idle }
      else if c.st.cu.line.isEmpty then c.modCu fun u => { u with rx := .receiving edge d }
        else (c.modCu fun u => { u with rx := .receiving edge d }).mod (restartIdle e)
    else c := by
  unfold startSample
  rw [h]
  rfl

theorem stopSample_receiving (data : Byte) (stop : Bool) (h : c.st.cu.rx = .receiving edge d) (hdue : edge + d / 2 + 9 * d ≤ e.now) :
    stopSample e data stop c = if stop = false ∧ data = 0 then c.modCu fun u => { u with rx := .held edge d e.tb }
      else takeByte e ⟨data, !stop⟩ e.tb (c.modCu fun u => { u with rx := .idle }) := by
  unfold stopSample
  rw [h]
  exact if_pos hdue

theorem heldRise_held (h : c.st.cu.rx = .held edge d tm) :
    heldRise e c = takeByte e ⟨0, true⟩ tm (c.modCu fun u => { u with rx := .idle }) := by
  unfold heldRise
  rw [h]

theorem breakThreshold_held (h : c.st.cu.rx = .held edge d tm) : breakThreshold e c =
    if edge + 20 * d ≤ e.now then closeLine e { LineFlags.none with brk := true } e.tb (c.modCu fun u => { u with rx := .idle })
    else c := by
  unfold breakThreshold
  rw [h]

end

theorem State.put_lineClosed (s : State) (n : StationNo) (u : Station) (a : BitVec 11) (r : SrcRec) :
    (s.put n u a).putOffer n ((s.put n u a).station n).lineClosed (s.put n u a).attention r = s.putOffer n u.lineClosed a r := by
  rw [State.put_station]
  exact State.put_put ..

/-- Settles O45: frames, bytes, patterns, held bytes, BREAK and idle closes. -/
theorem consoleReceiverTakesFrames : Obligations.ConsoleReceiverTakesFrames := by
  unfold Obligations.ConsoleReceiverTakesFrames
  refine ⟨⟨⟨fun s c n hc => ⟨fun h => ?_, fun h => ?_⟩, fun s c n edge d hc h => ?_⟩, fun s c n edge d b stop hc h hdue => ?_,
    fun s c n edge d time hc h => ?_, fun s n hdue => ?_⟩, fun ps line => ⟨matchingPatterns_sorted .., fun k => ?_⟩⟩
  · exact congrArg Host.Outcome.next ((State.atConnector_serves hc _).trans (State.withStation_quiet (startEdge_idle h)))
  · exact congrArg Host.Outcome.next ((State.atConnector_serves hc _).trans
      ((State.withStation_quiet (startEdge_other h)).trans (State.put_self ..)))
  · intro t
    refine ⟨fun hlt high => ?_, fun hle => ⟨?_, ?_⟩⟩
    · exact congrArg Host.Outcome.next ((State.atConnector_serves hc _).trans ((State.withStation_quiet
        ((startSample_starting high h).trans (if_neg (Nat.not_le_of_lt hlt)))).trans (State.put_self ..)))
    · exact congrArg Host.Outcome.next ((State.atConnector_serves hc _).trans (State.withStation_quiet
        ((startSample_starting true h).trans (if_pos hle))))
    · refine congrArg Host.Outcome.next ((State.atConnector_serves hc _).trans (State.withStation_quiet
        ((startSample_starting false h).trans ((if_pos hle).trans ?_))))
      by_cases hl : t.cu.line = []
      · rw [if_pos hl]
        exact if_pos (List.isEmpty_iff.mpr hl)
      · rw [if_neg hl]
        refine (if_neg fun hempty => hl (List.isEmpty_iff.mp hempty)).trans ?_
        unfold Ctx.modCu Ctx.mod restartIdle Config.ticksPerMs
        rfl
  · intro t origin line u closed lineRec'
    have hstop := stopSample_receiving (e := s.env n) (c := ⟨s.station n, s.attention, []⟩) b stop h hdue
    have hat := State.atConnector_serves hc fun e => stopSample e b stop
    refine ⟨fun hs hb => ?_, fun hb hs => ?_, fun hheld hlf => ?_⟩
    · exact congrArg Host.Outcome.next (hat.trans (State.withStation_quiet (hstop.trans (if_pos ⟨hs, hb⟩))))
    · refine congrArg Host.Outcome.next (hat.trans ((State.withStation_closes (flags := LineFlags.none) (tm := s.tb)
        (t := t.byteAt s.tb) ?_).trans ?_))
      · refine hstop.trans ((if_neg fun hx => by rw [hs] at hx; cases hx.1).trans ((takeByte_eq ..).trans (if_pos ⟨hb, ?_⟩)))
        rw [hs]
        rfl
      · refine congrArg (s.putOffer n closed s.attention) ?_
        show lineRec t.cu.line LineFlags.none s.tb (if t.cu.line = [] then s.tb else origin) = lineRec' t.cu.line false
        have horigin : (if t.cu.line = [] then s.tb else origin) = origin := by
          simp only [origin]
          split_ifs <;> rfl
        rw [horigin]
        simp only [lineRec', lineRec, LineFlags.none, Bool.or_false]
    · have hstores := State.withStation_stores (s := s) (n := n) (f := fun e => stopSample e b stop) (t := t.byteAt s.tb)
        (b := ⟨b, !stop⟩) (tm := s.tb) (hstop.trans ((if_neg hheld).trans ((takeByte_eq ..).trans (if_neg fun hx => hlf
          ⟨hx.1, by simpa using hx.2⟩))))
      have hrec : lineRec line { LineFlags.none with split := true } s.tb origin = lineRec' line true := by
        simp only [lineRec', lineRec, LineFlags.none, Bool.or_false]
      refine ⟨fun hnone => ?_, ⟨fun hlt => ?_, fun hle => ?_⟩⟩
      · have hnil : ((t.byteAt s.tb).stored s.elapsed ⟨b, !stop⟩).matched = [] := congrArg (List.map Cond.pattern) hnone
        rw [hnil, State.putReports_nil] at hstores
        refine ⟨fun hlt => congrArg Host.Outcome.next (hat.trans (hstores.1 hlt)), fun hle => ?_⟩
        rw [← hrec]
        exact congrArg Host.Outcome.next (hat.trans ((hstores.2 hle).trans (State.put_lineClosed ..)))
      · exact congrArg Host.Outcome.next (hat.trans (hstores.1 hlt))
      · rw [← hrec]
        exact congrArg Host.Outcome.next (hat.trans (hstores.2 hle))
  · intro t line origin s' v
    have hrise := heldRise_held (e := s.env n) (c := ⟨s.station n, s.attention, []⟩) h
    have hbreak := breakThreshold_held (e := s.env n) (c := ⟨s.station n, s.attention, []⟩) h
    have hat := fun f => State.atConnector_serves hc f
    have hstores := State.withStation_stores (s := s) (n := n) (f := heldRise) (t := t.byteAt time)
      (b := ⟨0, true⟩) (tm := time) (hrise.trans ((takeByte_eq ..).trans (if_neg fun hx => by cases hx.2)))
    have hrec : lineRec line { LineFlags.none with split := true } time origin
        = ⟨.consoleLine ⟨true, false, false, true, false⟩ 0 (line.map LineByte.val), ⟨false, false, false, true⟩, time, some origin⟩ := by
      have hany : line.any LineByte.framing = true := by simp [line]
      simp only [lineRec, LineFlags.none, hany, Bool.or_false]
    refine ⟨fun hlt => congrArg Host.Outcome.next ((hat _).trans (hstores.1 hlt)), fun hle => ?_, fun hnone hlt => ?_, fun hlt => ?_,
      fun hle => ?_⟩
    · rw [← hrec]
      exact congrArg Host.Outcome.next ((hat _).trans (hstores.2 hle))
    · have hnil : ((t.byteAt time).stored s.elapsed ⟨0, true⟩).matched = [] := congrArg (List.map Cond.pattern) hnone
      rw [hnil, State.putReports_nil] at hstores
      exact congrArg Host.Outcome.next ((hat _).trans (hstores.1 hlt))
    · exact congrArg Host.Outcome.next ((hat _).trans ((State.withStation_quiet
        (hbreak.trans (if_neg (Nat.not_le_of_lt hlt)))).trans (State.put_self ..)))
    · refine congrArg Host.Outcome.next ((hat _).trans ((State.withStation_closes (flags := { LineFlags.none with brk := true }) (tm := s.tb)
        (t := { t with cu := { t.cu with rx := .idle } }) (hbreak.trans (if_pos hle))).trans ?_))
      simp only [lineRec, LineFlags.none, Bool.or_true]
      rfl
  · exact congrArg Host.Outcome.next ((State.withStation_closes (flags := { LineFlags.none with idleClosed := true }) (if_pos hdue)).trans (by
      simp only [lineRec, LineFlags.none, Bool.or_false]
      rfl))
  · rw [mem_matchingPatterns]
    exact exists_congr fun p => and_congr_right fun _ => patternMatches_iff ..

end Sys2Proof.Machine
end

section
/-! What a report leaves of the access table, and that it does not look at the head (R73, R119, R124). -/

namespace Sys2Proof.Machine

/-! ## The access table through a report (R73) -/

/-- A table that took at most `k` HALTs: the holder is used only when the table is full. -/
def AccessUnit.haltsFrom (a b : AccessUnit) (k : Nat) : Prop :=
  b.entries.length ≤ a.entries.length ∧ a.entries.length ≤ b.entries.length + k
    ∧ (b.entries.length + k ≤ 4 → a.holder = b.holder)

theorem AccessUnit.haltsFrom_refl (a : AccessUnit) (k : Nat) : a.haltsFrom a k :=
  ⟨Nat.le_refl _, Nat.le_add_right .., fun _ => rfl⟩

theorem AccessUnit.haltsFrom.trans {a b c : AccessUnit} {k m : Nat} (h : a.haltsFrom b k) (h' : b.haltsFrom c m) :
    a.haltsFrom c (m + k) := by
  obtain ⟨h1, h2, h3⟩ := h
  obtain ⟨h1', h2', h3'⟩ := h'
  exact ⟨by omega, by omega, fun hle => (h3 (by omega)).trans (h3' (by omega))⟩

theorem haltBoard_halts (e : Env) (c : Ctx) : (haltBoard e c).st.au.haltsFrom c.st.au 1 := by
  unfold haltBoard
  split
  case h_1 =>
    have hlen : (c.mod (issueReq e (controlReq 1) .trigger true)).st.au.entries.length = c.st.au.entries.length + 1 :=
      List.length_append
    exact ⟨by omega, by omega, fun _ => rfl⟩
  case h_2 ho =>
    refine ⟨Nat.le_refl _, Nat.le_add_right .., fun hle => ?_⟩
    have hfree : c.st.au.hasFree = true := decide_eq_true (show c.st.au.entries.length < 4 by omega)
    unfold Station.haltOutcome at ho
    rw [hfree] at ho
    cases hup : c.st.lp.up <;> rw [hup] at ho <;> cases ho
  all_goals exact AccessUnit.haltsFrom_refl ..

theorem capOut_au (c : Ctx) (o : CapOut) : (c.capOut o).st.au = c.st.au := by
  rw [Ctx.capOut_eq]
  exact Station.take_au ..

theorem enterTarget_au (e : Env) (p : Program) (tgt : Target) (t : Station) : (enterTarget e p tgt t).au = t.au := by
  unfold enterTarget
  split <;> rfl

theorem startPulse_au (e : Env) (w : Nat) (c : Ctx) : (startPulse e w c).st.au = c.st.au := by
  unfold startPulse offerPower
  exact capOut_au ..

theorem fire_halts (e : Env) (p : Program) (i : Fin 4) (st : Step) (cause : Cause) (c : Ctx) :
    (fire e p i st cause c).1.st.au.haltsFrom c.st.au 1 := by
  have hhalt : ∀ acts d, (whenAct acts 4 (haltBoard e) d).st.au.haltsFrom d.st.au 1 := fun acts d => by
    unfold whenAct
    split_ifs
    · exact haltBoard_halts e d
    · exact AccessUnit.haltsFrom_refl ..
  have h7 : ∀ acts d, (whenAct acts 7 (·.setAttn .trigger) d).st.au = d.st.au := fun acts d =>
    whenAct_keeps Station.au (f := (·.setAttn .trigger)) (fun _ => rfl) acts 7 d
  have h6 : ∀ acts d, (whenAct acts 6 (·.mod (driveLine e p st.line)) d).st.au = d.st.au := fun acts d =>
    whenAct_keeps Station.au (f := (·.mod (driveLine e p st.line))) (fun _ => rfl) acts 6 d
  have h5 : ∀ acts (b : Bool) d, (whenAct acts 5 (fun c => if b = true then startPulse e p.pulseWidth c else c) d).st.au = d.st.au :=
    fun acts b d => whenAct_keeps Station.au (fun c => by
      split_ifs
      · exact startPulse_au ..
      · rfl) acts 5 d
  have h3 : ∀ acts d, (whenAct acts 3 (stopCapture p.postCount) d).st.au = d.st.au := fun acts d =>
    whenAct_keeps Station.au (fun c => capOut_au c _) acts 3 d
  have hoffer : ∀ acts k r d, (whenAct acts k (offerRec e r) d).st.au = d.st.au := fun acts k r d =>
    whenAct_keeps Station.au (fun c => capOut_au c _) acts k d
  have h0 : ∀ acts d, (whenAct acts 0 (startCapture e) d).st.au = d.st.au := fun acts d =>
    whenAct_keeps Station.au (fun c => capOut_au c _) acts 0 d
  unfold fire
  dsimp only [Ctx.mod_st]
  rw [enterTarget_au, h7, h6, h5]
  refine (hhalt _ _).trans (k := 1) (m := 0) ?_
  rw [h3, hoffer, hoffer, h0]
  exact AccessUnit.haltsFrom_refl ..

theorem takeReport_halts (e : Env) (x : Cond) (c : Ctx) : (takeReport e x c).1.st.au.haltsFrom c.st.au 1 := by
  unfold takeReport
  split
  · split_ifs
    · exact fire_halts ..
    · exact AccessUnit.haltsFrom_refl ..
    · exact AccessUnit.haltsFrom_refl ..
  · exact AccessUnit.haltsFrom_refl ..

/-- A report puts at most two HALTs in the table, by a firing and by what its pulse fires (R123). -/
theorem report_halts (e : Env) (x : Cond) (c : Ctx) : (report e x c).st.au.haltsFrom c.st.au 2 := by
  unfold report followUp
  split
  · exact (takeReport_halts e _ _).trans (takeReport_halts e x c)
  · obtain ⟨h1, h2, h3⟩ := takeReport_halts e x c
    exact ⟨h1, by omega, fun hle => h3 (by omega)⟩

/-! ## A report does not look at the head -/

/-- Work that neither looks at the head nor changes it. -/
def HeadBlind (F : Ctx → Ctx) : Prop := ∀ (h : Head) (c : Ctx), F (c.setHead h) = (F c).setHead h

namespace HeadBlind

theorem id : HeadBlind fun c => c := fun _ _ => rfl

theorem capOut (o : CapOut) : HeadBlind (·.capOut o) := fun h c => by
  show (c.setHead h).capOut o = (c.capOut o).setHead h
  rw [Ctx.capOut_eq, Ctx.capOut_eq]
  refine congrArg (fun t => Ctx.mk t _ c.effs) ?_
  show ({ c.st with head := h } : Station).take o = { c.st.take o with head := h }
  unfold Station.take
  split <;> rfl

/-- Work chosen by what of the station is not its head. -/
theorem choose {α : Type} {π : Station → α} (hπ : ∀ t h, π { t with head := h } = π t) {F : α → Ctx → Ctx}
    (hF : ∀ a, HeadBlind (F a)) : HeadBlind fun c => F (π c.st) c := fun h c => by
  have hc : π (c.setHead h).st = π c.st := hπ c.st h
  show F (π (c.setHead h).st) (c.setHead h) = _
  rw [hc]
  exact hF _ h c

theorem ite {p : Prop} [Decidable p] {F G : Ctx → Ctx} (hF : HeadBlind F) (hG : HeadBlind G) :
    HeadBlind fun c => if p then F c else G c := fun h c => by
  by_cases hp : p
  · simpa only [if_pos hp] using hF h c
  · simpa only [if_neg hp] using hG h c

theorem offerRec (e : Env) (r : SrcRec) : HeadBlind (offerRec e r) :=
  choose (π := fun t => t.cap.offer t.prof.timeShift e.tb r) (fun _ _ => rfl) capOut

theorem startPulse (e : Env) (w : Nat) : HeadBlind (startPulse e w) := fun h c =>
  offerRec e _ h (c.modBpu fun b => { b with ctl := .pulse, pulse := some (e.now + w * Config.ticksPer100us), held := none })

theorem haltBoard (e : Env) : HeadBlind (haltBoard e) :=
  choose (π := Station.haltOutcome) (fun _ _ => rfl) (F := fun o c => match o with
    | .issue => c.mod (issueReq e (controlReq 1) .trigger true)
    | .hold => c.mod fun t => { t with au := { t.au with holder := true } }
    | .overrun | .linkDown => c) fun o => by
      cases o with
      | issue => exact fun _ _ => rfl
      | hold => exact fun _ _ => rfl
      | overrun => exact HeadBlind.id
      | linkDown => exact HeadBlind.id

theorem whenAct {F : Ctx → Ctx} (hF : HeadBlind F) (acts : BitVec 8) (i : Nat) : HeadBlind (whenAct acts i F) :=
  ite hF HeadBlind.id

end HeadBlind

theorem fire_setHead (e : Env) (p : Program) (i : Fin 4) (st : Step) (cause : Cause) (h : Head) (c : Ctx) :
    fire e p i st cause (c.setHead h) = ((fire e p i st cause c).1.setHead h, (fire e p i st cause c).2) := by
  have h0 : ∀ a, HeadBlind (whenAct a 0 (startCapture e)) := fun a =>
    (HeadBlind.choose (π := fun t => t.cap.start t.prof.timeShift e.tb) (fun _ _ => rfl) HeadBlind.capOut).whenAct a 0
  have h1 : ∀ a r, HeadBlind (whenAct a 1 (offerRec e r)) := fun a r => (HeadBlind.offerRec e r).whenAct a 1
  have h2 : ∀ a r, HeadBlind (whenAct a 2 (offerRec e r)) := fun a r => (HeadBlind.offerRec e r).whenAct a 2
  have h3 : ∀ a, HeadBlind (whenAct a 3 (stopCapture p.postCount)) := fun a =>
    (HeadBlind.choose (π := fun t => t.cap.stop p.postCount) (fun _ _ => rfl) HeadBlind.capOut).whenAct a 3
  have h4 : ∀ a, HeadBlind (whenAct a 4 (haltBoard e)) := fun a => (HeadBlind.haltBoard e).whenAct a 4
  have h5 : ∀ a (b : Bool), HeadBlind (whenAct a 5 fun c => if b = true then startPulse e p.pulseWidth c else c) :=
    fun a b => (HeadBlind.ite (HeadBlind.startPulse e _) HeadBlind.id).whenAct a 5
  have h6 : ∀ a, HeadBlind (whenAct a 6 (·.mod (driveLine e p st.line))) := fun a =>
    HeadBlind.whenAct (fun _ _ => rfl) a 6
  have h7 : ∀ a, HeadBlind (whenAct a 7 (·.setAttn .trigger)) := fun a => HeadBlind.whenAct (fun _ _ => rfl) a 7
  have hout : (c.setHead h).st.haltOutcome = c.st.haltOutcome := rfl
  have hpulse : (c.setHead h).st.canPulse = c.st.canPulse := rfl
  have hcap : ∀ d : Ctx, (d.setHead h).st.cap = d.st.cap := fun _ => rfl
  have hlast : ∀ d : Ctx, (d.setHead h).mod (enterTarget e p (st.chosen cause).2)
      = (d.mod (enterTarget e p (st.chosen cause).2)).setHead h := fun d => by
    unfold Ctx.setHead Ctx.mod enterTarget
    cases (st.chosen cause).2 <;> rfl
  unfold fire
  dsimp only
  rw [hout, hpulse, hcap, h0 _ h, h1 _ _ h, h1 _ _ h, h2 _ _ h, h2 _ _ h, hcap, h3 _ h, h4 _ h, h5 _ _ h, h6 _ h, h7 _ h, hlast]

theorem takeReport_setHead (e : Env) (x : Cond) (h : Head) (c : Ctx) :
    takeReport e x (c.setHead h) = ((takeReport e x c).1.setHead h, (takeReport e x c).2) := by
  unfold takeReport
  rw [show (c.setHead h).st.ts = c.st.ts from rfl]
  cases c.st.ts.current with
  | none => rfl
  | some y =>
    obtain ⟨i, n, st, p⟩ := y
    dsimp only
    split_ifs
    · exact fire_setHead ..
    · rfl
    · rfl

theorem HeadBlind.report (e : Env) (x : Cond) : HeadBlind (report e x) := fun h c => by
  unfold Machine.report followUp
  rw [takeReport_setHead]
  dsimp only
  split_ifs
  · exact congrArg Prod.fst (takeReport_setHead ..)
  · rfl

end Sys2Proof.Machine
end

section
/-! Freed entries offered to waiting requests, and a completion's steps at a state (R72). -/

namespace Sys2Proof.Machine

/-! ## Freed entries (R72 step 6, R74, R80) -/

/-- The executing job of a station issues no request: it is no access job, has none left, or has failed. -/
def Station.spent (t : Station) : Prop := ∀ a, t.head = .access a → a.reqs = [] ∨ a.fail ≠ none

/-- No request of the executing job can be issued. -/
def Station.stuck (t : Station) : Prop := t.lp.up = false ∨ 4 ≤ t.au.entries.length ∨ t.spent

theorem issueNext_stuck {t : Station} (h : t.stuck) (e : Env) : issueNext e t = t := by
  unfold issueNext
  split
  case h_2 => rfl
  case h_1 a q qs hh hq =>
    split
    case h_2 => rfl
    case h_1 r rest hr =>
      refine if_neg fun hcan => ?_
      simp only [Bool.and_eq_true, Option.isNone_iff_eq_none, Bool.not_eq_true'] at hcan
      obtain ⟨⟨⟨hup, hfree⟩, -⟩, hfail⟩ := hcan
      have hlt : t.au.entries.length < 4 := of_decide_eq_true hfree
      rcases h with hdown | hfull | hspent
      · rw [hup] at hdown
        cases hdown
      · omega
      · rcases hspent a hh with hnil | hne
        · rw [hr] at hnil
          cases hnil
        · exact hne hfail

theorem issueHolder_waits {t : Station} (h : t.lp.up = false ∨ 4 ≤ t.au.entries.length ∨ t.au.holder = false) (e : Env) :
    issueHolder e t = t := by
  unfold issueHolder
  refine if_neg fun hcan => ?_
  simp only [Bool.and_eq_true] at hcan
  obtain ⟨⟨hh, hup⟩, hfree⟩ := hcan
  have hlt : t.au.entries.length < 4 := of_decide_eq_true hfree
  rcases h with hdown | hfull | hempty
  · rw [hup] at hdown
    cases hdown
  · omega
  · rw [hh] at hempty
    cases hempty

theorem issueHolder_issues {t : Station} (hup : t.lp.up = true) (hfree : t.au.entries.length < 4) (hh : t.au.holder = true)
    (e : Env) : issueHolder e t = t.haltIssued e.now := by
  have hcan : (t.au.holder && t.lp.up && t.au.hasFree) = true := by
    rw [hup, hh]
    exact decide_eq_true (show t.au.entries.length < 4 from hfree)
  exact if_pos hcan

/-- A job that begins with no such request issues none. -/
theorem issueNext_none {t : Station} (h : ∀ r rest flying oks ticks q qs, t.head = .access ⟨r :: rest, flying, none, oks, ticks⟩ →
    t.queue = q :: qs → False) (e : Env) : issueNext e t = t := by
  unfold issueNext
  split
  case h_2 => rfl
  case h_1 a q qs hh hq =>
    split
    case h_2 => rfl
    case h_1 r rest hr =>
      refine if_neg fun hcan => ?_
      simp only [Bool.and_eq_true, Option.isNone_iff_eq_none] at hcan
      obtain ⟨reqs, flying, fail, oks, ticks⟩ := a
      obtain rfl : fail = none := hcan.2
      obtain rfl : reqs = r :: rest := hr
      exact h r rest flying oks ticks q qs hh hq

/-- A freed entry goes to the holder's HALT or to one request of the job, where no second can follow. -/
theorem State.withStation_offers {s : State} {n : StationNo}
    (h : (s.station n).lp.up = false ∨ 3 ≤ (s.station n).au.entries.length ∨ (s.station n).spent) :
    s.withStation n (fun e c => c.mod (offerEntries e)) = s.offerFreed n := by
  refine (State.withStation_quiet (u := offerEntries (s.env n) (s.station n)) rfl).trans ?_
  have hself : ∀ {u : Station}, u = s.station n → s.put n u s.attention = s := fun hu => by rw [hu, State.put_self]
  unfold offerEntries State.offerFreed
  dsimp only
  generalize s.station n = t at *
  by_cases hno : t.lp.up = false ∨ 4 ≤ t.au.entries.length
  · have hstuck : t.stuck := hno.imp_right Or.inl
    rw [if_pos hno, issueHolder_waits (hno.imp_right Or.inl), issueNext_stuck hstuck, issueNext_stuck hstuck,
      issueNext_stuck hstuck, issueNext_stuck hstuck, hself rfl]
  · rw [if_neg hno]
    obtain ⟨hup, hfree⟩ := not_or.mp hno
    rw [Bool.not_eq_false] at hup
    rw [Nat.not_le] at hfree
    by_cases hh : t.au.holder = true
    · have hstuck : (t.haltIssued s.elapsed).stuck := by
        rcases h.resolve_left (by rw [hup]; decide) with h3 | hspent
        · refine .inr (.inl ?_)
          show 4 ≤ (t.au.entries ++ [_]).length
          rw [List.length_append, List.length_singleton]
          omega
        · exact .inr (.inr hspent)
      have hissue : issueHolder (s.env n) t = t.haltIssued s.elapsed := issueHolder_issues hup hfree hh _
      rw [if_pos hh, hissue, issueNext_stuck hstuck, issueNext_stuck hstuck, issueNext_stuck hstuck, issueNext_stuck hstuck]
    · have hempty : t.au.holder = false := Bool.eq_false_iff.mpr hh
      rw [if_neg hh, issueHolder_waits (.inr (.inr hempty))]
      split
      case h_1 r rest flying oks ticks q qs hhead hq =>
        have hthree : 3 ≤ t.au.entries.length :=
          (h.resolve_left (by rw [hup]; decide)).resolve_right fun hspent => (hspent _ hhead).elim nofun fun hne => hne rfl
        have hnext : issueNext (s.env n) t
            = { t.issued s.elapsed (.job q.jid q.hostRef) [r] with head := .access ⟨rest, flying + 1, none, oks, ticks⟩ } := by
          have hhead' : ({ t with head := .access ⟨r :: rest, flying, none, oks, ticks⟩ } : Station) = t := by rw [← hhead]
          have hissues := issueNext_issues (e := s.env n) (oks := oks) (ticks := ticks) (r := r) (rest := rest) (fl := flying)
            hq hup hempty hfree
          rw [hhead'] at hissues
          exact hissues
        have hstuck : (issueNext (s.env n) t).stuck := by
          refine .inr (.inl ?_)
          rw [hnext]
          show 4 ≤ (t.au.entries ++ [_]).length
          rw [List.length_append, List.length_singleton]
          omega
        rw [issueNext_stuck hstuck, issueNext_stuck hstuck, issueNext_stuck hstuck, hnext]
      case h_2 hother =>
        have hnone := issueNext_none (fun r rest flying oks ticks q qs => hother r rest flying oks ticks q qs) (s.env n)
        rw [hnone, hnone, hnone, hnone, hself rfl]

end Sys2Proof.Machine
end

section
/-! A completion's steps at a state: the record, the report, the owner, the entries offered (R72). -/

namespace Sys2Proof.Machine

section
variable {s : State} {n : StationNo}

/-- Work after other work that hands nothing on. -/
theorem State.withStation_afterPut {G H : Env → Ctx → Ctx} {u : Station} {a : BitVec 11}
    (h : G (s.env n) ⟨s.station n, s.attention, []⟩ = ⟨u, a, []⟩) :
    s.withStation n (fun e c => H e (G e c)) = (s.put n u a).withStation n H := by
  rw [State.withStation_eq, State.withStation_eq, h, State.put_station, State.put_put]
  rfl

/-! ## The first steps of a completion -/

/-- A completed CONTROL sets the board run state (R75). -/
def Station.controlled (t : Station) (x : Entry) (o : AccessOutcome) : Station :=
  if x.op = .control ∧ o = .ok then { t with au := { t.au with boardRun := t.au.boardRun.afterControl x.addr.toNat } } else t

/-- The steps of a completion before its owner learns of it (R72). -/
def completed (e : Env) (x : Entry) (o : AccessOutcome) (ws : List Word32) (corrected : Bool) (c : Ctx) : Ctx :=
  let c := controlDone x o c
  let c := if c.st.prof.accessLogging then offerRec e (accessRecord e x o ws corrected) c else c
  if o = .ok then c else report e .accessError c

theorem complete_eq (e : Env) (x : Entry) (o : AccessOutcome) (ws : List Word32) (corrected : Bool) (c : Ctx) :
    complete e x o ws corrected c = (toOwner e x o ws (completed e x o ws corrected c)).mod (offerEntries e) := rfl

/-- The state those steps leave. -/
def State.told (s : State) (n : StationNo) (t : Station) (x : Entry) (o : AccessOutcome) (ws : List Word32) (corrected : Bool) : State :=
  let logged := s.putLogged n (t.controlled x o) (s.accessRec x o x.owner.hostRef (x.recordWords o ws) corrected)
  if o = .ok then logged else logged.reportAt n .accessError

variable {t : Station} {x : Entry} {o : AccessOutcome} {ws : List Word32} {corrected : Bool}

theorem controlDone_eq (c : Ctx) : controlDone x o c = ⟨c.st.controlled x o, c.att, c.effs⟩ := by
  unfold controlDone Station.controlled
  split_ifs <;> rfl

theorem completed_effs (e : Env) (c : Ctx) : (completed e x o ws corrected c).effs = c.effs := by
  unfold completed
  dsimp only
  rw [controlDone_eq]
  by_cases ho : o = .ok
  · rw [if_pos ho]
    split_ifs
    · rw [offerRec_eq]
    · rfl
  · rw [if_neg ho, report_effs]
    split_ifs
    · rw [offerRec_eq]
    · rfl

theorem State.withStation_completed {f : Env → Ctx → Ctx}
    (h : f (s.env n) ⟨s.station n, s.attention, []⟩ = completed (s.env n) x o ws corrected ⟨t, s.attention, []⟩) :
    s.withStation n f = s.told n t x o ws corrected := by
  have hlogged : s.withStation n (fun e _ => if (t.controlled x o).prof.accessLogging then
      offerRec e (accessRecord e x o ws corrected) ⟨t.controlled x o, s.attention, []⟩ else ⟨t.controlled x o, s.attention, []⟩)
      = s.putLogged n (t.controlled x o) (s.accessRec x o x.owner.hostRef (x.recordWords o ws) corrected) := by
    unfold State.putLogged
    split_ifs with hlog
    · exact State.withStation_quiet (offerRec_eq ..)
    · exact State.withStation_quiet rfl
  unfold State.told
  dsimp only
  rw [← hlogged]
  unfold completed at h
  dsimp only at h
  rw [controlDone_eq] at h
  by_cases ho : o = .ok
  · rw [if_pos ho]
    rw [if_pos ho] at h
    exact State.withStation_congr h
  · rw [if_neg ho]
    rw [if_neg ho] at h
    exact (State.withStation_congr h).trans (State.withStation_comp (f := fun e => report e .accessError) (Passes.report _ _) _)

/-- Those steps change one station and the attention bits. -/
theorem State.told_eq : s.told n t x o ws corrected
    = s.put n ((s.told n t x o ws corrected).station n) (s.told n t x o ws corrected).attention
    ∧ completed (s.env n) x o ws corrected ⟨t, s.attention, []⟩
      = ⟨(s.told n t x o ws corrected).station n, (s.told n t x o ws corrected).attention, []⟩ := by
  have hwork := State.withStation_completed (s := s) (n := n) (f := fun e _ => completed e x o ws corrected ⟨t, s.attention, []⟩) rfl
  have hst := (congrArg (State.station · n) hwork).symm.trans (State.withStation_station ..)
  have hatt := (congrArg State.attention hwork).symm.trans (State.withStation_attention ..)
  have hctx : completed (s.env n) x o ws corrected ⟨t, s.attention, []⟩
      = ⟨(s.told n t x o ws corrected).station n, (s.told n t x o ws corrected).attention, []⟩ := by
    rw [hst, hatt]
    exact Ctx.eq_of_effs_nil (completed_effs ..)
  exact ⟨hwork.symm.trans (State.withStation_quiet hctx), hctx⟩

/-! ## The whole completion -/

theorem State.withStation_complete {f : Env → Ctx → Ctx}
    (h : f (s.env n) ⟨s.station n, s.attention, []⟩ = complete (s.env n) x o ws corrected ⟨t, s.attention, []⟩) :
    s.withStation n f = ((s.told n t x o ws corrected).withStation n fun e => toOwner e x o ws).withStation n
      fun e c => c.mod (offerEntries e) := by
  obtain ⟨hput, hctx⟩ := State.told_eq (s := s) (n := n) (t := t) (x := x) (o := o) (ws := ws) (corrected := corrected)
  have hfirst : s.withStation n f = s.withStation n fun e c => (fun e c => (toOwner e x o ws c).mod (offerEntries e)) e
      ((fun e _ => completed e x o ws corrected ⟨t, s.attention, []⟩) e c) := State.withStation_congr h
  rw [hfirst, State.withStation_afterPut (G := fun e _ => completed e x o ws corrected ⟨t, s.attention, []⟩)
    (H := fun e c => (toOwner e x o ws c).mod (offerEntries e)) hctx, ← hput]
  exact State.withStation_comp (f := fun e c => c.mod (offerEntries e)) (Passes.mod _) fun e => toOwner e x o ws

/-- Without a PARK that waits, PARK's check does nothing. -/
theorem State.withStation_noPark {f : Env → Ctx → Ctx} (h : ((s.withStation n f).station n).head ≠ .parkWait) :
    s.withStation n (fun e c => parkCheck e (f e c)) = s.withStation n f := by
  rw [State.withStation_station] at h
  exact State.withStation_congr (if_neg fun hp => h hp.1)

theorem State.offerFreed_head (h : (s.station n).head ≠ .parkWait) : ((s.offerFreed n).station n).head ≠ .parkWait := by
  unfold State.offerFreed
  dsimp only
  split_ifs
  · exact h
  · rw [State.put_station]
    exact h
  · split
    · rw [State.put_station]
      exact nofun
    · exact h

/-- A completion whose owner has learnt of it offers the entry freed. -/
theorem State.withStation_completes {f : Env → Ctx → Ctx} {s' : State}
    (h : f (s.env n) ⟨s.station n, s.attention, []⟩ = complete (s.env n) x o ws corrected ⟨t, s.attention, []⟩)
    (howner : ((s.told n t x o ws corrected).withStation n fun e => toOwner e x o ws) = s')
    (hhead : (s'.station n).head ≠ .parkWait)
    (hone : (s'.station n).lp.up = false ∨ 3 ≤ (s'.station n).au.entries.length ∨ (s'.station n).spent) :
    s.withStation n (fun e c => parkCheck e (f e c)) = s'.offerFreed n := by
  have hdone : s.withStation n f = s'.offerFreed n :=
    (State.withStation_complete h).trans ((congrArg (State.withStation · n fun e c => c.mod (offerEntries e)) howner).trans
      (State.withStation_offers hone))
  exact (State.withStation_noPark (by rw [hdone]; exact State.offerFreed_head hhead)).trans hdone

end

end Sys2Proof.Machine
end

section
/-! How the owner of a completed entry learns of it (R72 step 5, R77 to R81). -/

namespace Sys2Proof.Machine

/-! ## The owner's step -/

section
variable {e : Env} {c : Ctx} {a : AccessExec} {q : QJob} {qs : List QJob} {x : Entry} {o : AccessOutcome} {ws : List Word32}

theorem toOwner_trigger (h : x.owner = .trigger) : toOwner e x o ws c = c := by
  unfold toOwner
  rw [h]

theorem toOwner_takes (hh : c.st.head = .access a) (hq : c.st.queue = q :: qs) (ho : x.owner = .job q.jid q.hostRef) :
    toOwner e x o ws c = endAccess ((if o = .ok then readData e.n q x ws c else c).mod fun t =>
      { t with head := .access (a.take x o e.now) }) := by
  unfold toOwner
  rw [ho, hh, hq]
  exact if_pos rfl

theorem endAccess_ends (hh : c.st.head = .access a) (hq : c.st.queue = q :: qs) (h0 : a.flying = 0) (hd : a.reqs = [] ∨ a.fail ≠ none) :
    endAccess c = endHead (Res.ofOutcome a.outcome (accessValue q.job a)) c := by
  unfold endAccess
  rw [hh, hq]
  exact if_pos ⟨h0, hd.imp_right Option.isSome_iff_ne_none.mpr⟩

theorem endAccess_goesOn (hh : c.st.head = .access a) (h : a.flying ≠ 0 ∨ (a.reqs ≠ [] ∧ a.fail = none)) : endAccess c = c := by
  unfold endAccess
  rw [hh]
  split
  case h_2 => rfl
  case h_1 hh' _ =>
    obtain rfl := Head.access.inj hh'
    refine if_neg fun hends => ?_
    rcases h with h | ⟨hr, hf⟩
    · exact h hends.1
    · rcases hends.2 with hnil | hsome
      · exact hr hnil
      · rw [hf] at hsome
        cases hsome

end

/-! ## The owner's step at a state -/

/-- What the words of a READ completed OK hand on: one write to the job's buffer (R77, R80). -/
def dataEffs (n : StationNo) (q : QJob) (x : Entry) (ws : List Word32) : List Eff :=
  match q.job.readBuffer with
  | some buf => [.present (Access.writeOf .job (some n) (buf + BitVec.ofNat 64 (4 * x.offset)) (wordBytes ws) (.data q.jid n))]
  | none => []

theorem readData_eq (n : StationNo) (q : QJob) (x : Entry) (ws : List Word32) (c : Ctx) :
    readData n q x ws c = ⟨c.st, c.att, c.effs ++ dataEffs n q x ws⟩ := by
  unfold readData dataEffs
  cases q.job.readBuffer with
  | none => exact congrArg (Ctx.mk c.st c.att) (List.append_nil _).symm
  | some buf => rfl

/-- The words of a READ completed OK are presented. -/
def State.presentData (s : State) (n : StationNo) (q : QJob) (x : Entry) (ws : List Word32) : State :=
  (dataEffs n q x ws).foldl (State.applyEff n) s

/-- A failed access of the executing job, taken into its record (R81). -/
def AccessExec.failed (a : AccessExec) (o : AccessOutcome) : AccessExec :=
  { a with flying := a.flying - 1, fail := some (a.fail.getD o) }

theorem AccessExec.take_failed {o : AccessOutcome} (ho : o ≠ .ok) (a : AccessExec) (x : Entry) (now : Nat) : a.take x o now = a.failed o := by
  unfold AccessExec.take AccessExec.failed
  cases o with
  | ok => exact absurd rfl ho
  | _ => rfl

/-- An access of the executing job completed OK, taken into its record (R77, R79, R81). -/
def AccessExec.took (a : AccessExec) (x : Entry) (now : Nat) : AccessExec :=
  { a with flying := a.flying - 1, oks := a.oks ++ [(x.offset, x.count)], ticks := min (now - x.issuedAt) 65535000 }

theorem AccessExec.take_ok (a : AccessExec) (x : Entry) (now : Nat) : a.take x .ok now = a.took x now := rfl

section
variable {s : State} {n : StationNo} {a : AccessExec} {q : QJob} {qs : List QJob} {x : Entry} {o : AccessOutcome} {ws : List Word32}

theorem State.withStation_toOwner_trigger (h : x.owner = .trigger) : s.withStation n (fun e => toOwner e x o ws) = s :=
  State.withStation_same (toOwner_trigger h)

theorem State.withStation_toOwner_failEnds (hh : (s.station n).head = .access a) (hq : (s.station n).queue = q :: qs)
    (hx : x.owner = .job q.jid q.hostRef) (ho : o ≠ .ok) (hfly : a.flying = 1) :
    s.withStation n (fun e => toOwner e x o ws)
      = s.endAt n q.jid (Res.ofOutcome (a.fail.getD o) (accessValue q.job (a.failed o))) := by
  have hends : toOwner (s.env n) x o ws ⟨s.station n, s.attention, []⟩
      = endHead (Res.ofOutcome (a.fail.getD o) (accessValue q.job (a.failed o)))
        ⟨{ s.station n with head := .access (a.failed o) }, s.attention, []⟩ := by
    rw [toOwner_takes (c := ⟨s.station n, s.attention, []⟩) hh hq hx, if_neg ho, AccessExec.take_failed ho]
    refine endAccess_ends (c := ⟨{ s.station n with head := .access (a.failed o) }, s.attention, []⟩) (a := a.failed o) rfl hq ?_
      (.inr (Option.some_ne_none _))
    show a.flying - 1 = 0
    rw [hfly]
  exact State.withStation_endsWith (u := { s.station n with head := .access (a.failed o) }) hq hends

theorem State.withStation_toOwner_failGoesOn (hh : (s.station n).head = .access a) (hq : (s.station n).queue = q :: qs)
    (hx : x.owner = .job q.jid q.hostRef) (ho : o ≠ .ok) (hfly : 1 < a.flying) :
    s.withStation n (fun e => toOwner e x o ws) = s.put n { s.station n with head := .access (a.failed o) } s.attention := by
  refine State.withStation_quiet ?_
  rw [toOwner_takes (c := ⟨s.station n, s.attention, []⟩) hh hq hx, if_neg ho, AccessExec.take_failed ho]
  refine endAccess_goesOn (a := a.failed o) rfl (.inl ?_)
  show a.flying - 1 ≠ 0
  omega

theorem State.withStation_toOwner_okGoesOn (hh : (s.station n).head = .access a) (hq : (s.station n).queue = q :: qs)
    (hx : x.owner = .job q.jid q.hostRef) (hon : 1 < a.flying ∨ (a.reqs ≠ [] ∧ a.fail = none)) :
    s.withStation n (fun e => toOwner e x .ok ws)
      = (s.put n { s.station n with head := .access (a.took x s.elapsed) } s.attention).presentData n q x ws := by
  have hgoes : toOwner (s.env n) x .ok ws ⟨s.station n, s.attention, []⟩
      = ⟨{ s.station n with head := .access (a.took x s.elapsed) }, s.attention, dataEffs n q x ws⟩ := by
    rw [toOwner_takes (c := ⟨s.station n, s.attention, []⟩) hh hq hx, if_pos rfl, AccessExec.take_ok, readData_eq]
    refine (endAccess_goesOn (a := a.took x s.elapsed) rfl (hon.imp_left fun h => ?_)).trans rfl
    show a.flying - 1 ≠ 0
    omega
  rw [State.withStation_eq, hgoes]
  rfl

theorem State.withStation_toOwner_okEnds (hh : (s.station n).head = .access a) (hq : (s.station n).queue = q :: qs)
    (hx : x.owner = .job q.jid q.hostRef) (hfly : a.flying = 1) (hd : a.reqs = [] ∨ a.fail ≠ none) :
    s.withStation n (fun e => toOwner e x .ok ws)
      = ((s.put n { s.station n with queue := qs, head := .waiting } s.attention).presentData n q x ws).recordResult n q.jid
        (Res.ofOutcome (a.fail.getD .ok) (accessValue q.job (a.took x s.elapsed))) := by
  have hends : toOwner (s.env n) x .ok ws ⟨s.station n, s.attention, []⟩
      = ⟨{ s.station n with queue := qs, head := .waiting }, s.attention, dataEffs n q x ws
        ++ [.jobEnd q.jid (Res.ofOutcome (a.fail.getD .ok) (accessValue q.job (a.took x s.elapsed)))]⟩ := by
    rw [toOwner_takes (c := ⟨s.station n, s.attention, []⟩) hh hq hx, if_pos rfl, AccessExec.take_ok, readData_eq]
    refine (endAccess_ends (c := ⟨{ s.station n with head := .access (a.took x s.elapsed) }, s.attention, dataEffs n q x ws⟩)
      (a := a.took x s.elapsed) rfl hq ?_ hd).trans (endHead_cons _ hq)
    show a.flying - 1 = 0
    rw [hfly]
  rw [State.withStation_eq, hends]
  dsimp only
  rw [List.foldl_append]
  rfl

end

end Sys2Proof.Machine
end

section
/-! What a completion's first steps leave of the station, and the response that brings it (R68, R72). -/

namespace Sys2Proof.Machine

section
variable {s : State} {n : StationNo} {t : Station} {x : Entry} {o : AccessOutcome} {ws : List Word32} {corrected : Bool} {r : SrcRec}

/-! ## The record offered -/

/-- A change of the head, the queue, LP and AU does not meet CAP. -/
def Station.apartFromCap (f : Station → Station) : Prop :=
  (∀ t o, f (Station.take t o) = Station.take (f t) o) ∧ (∀ t, (f t).cap = t.cap) ∧ ∀ t, (f t).profile = t.profile

theorem State.putLogged_then {f : Station → Station} (hf : Station.apartFromCap f) :
    (s.putLogged n t r).put n (f ((s.putLogged n t r).station n)) (s.putLogged n t r).attention = s.putLogged n (f t) r := by
  obtain ⟨htake, hcap, hprof⟩ := hf
  have hlog : (f t).prof = t.prof := congrArg (Option.getD · Profile.default) (hprof t)
  have hoffer : (f t).offer s.tb r = t.offer s.tb r := by
    unfold Station.offer
    rw [hcap, hlog]
  unfold State.putLogged
  rw [hlog]
  split_ifs
  · unfold State.putOffer
    rw [State.put_station, State.put_put, htake, hoffer]
    rfl
  · rw [State.put_station, State.put_put]
    rfl

theorem apartFromCap_heads (h : Head) (qs : List QJob) : Station.apartFromCap fun t => { t with head := h, queue := qs } :=
  ⟨fun t o => by unfold Station.take; split <;> rfl, fun _ => rfl, fun _ => rfl⟩

theorem apartFromCap_head (h : Head) : Station.apartFromCap fun t => { t with head := h } :=
  ⟨fun t o => by unfold Station.take; split <;> rfl, fun _ => rfl, fun _ => rfl⟩

theorem State.putLogged_station : ∃ cap mark, (s.putLogged n t r).station n = { t with cap := cap, pg := { t.pg with mark := mark } } := by
  unfold State.putLogged
  split_ifs
  · unfold State.putOffer
    rw [State.put_station, Station.take_eq]
    exact ⟨_, _, rfl⟩
  · rw [State.put_station]
    exact ⟨t.cap, t.pg.mark, rfl⟩

theorem State.putLogged_keeps : ((s.putLogged n t r).station n).head = t.head ∧ ((s.putLogged n t r).station n).queue = t.queue
    ∧ ((s.putLogged n t r).station n).state = t.state ∧ ((s.putLogged n t r).station n).au = t.au
    ∧ ((s.putLogged n t r).station n).lp = t.lp := by
  obtain ⟨cap, mark, hst⟩ := State.putLogged_station (s := s) (n := n) (t := t) (r := r)
  rw [hst]
  exact ⟨rfl, rfl, rfl, rfl, rfl⟩

/-- A report keeps the head, the queue and the station state (R119). -/
theorem State.reportAt_keeps (s : State) (n : StationNo) (y : Cond) : ((s.reportAt n y).station n).head = (s.station n).head
    ∧ ((s.reportAt n y).station n).queue = (s.station n).queue ∧ ((s.reportAt n y).station n).state = (s.station n).state
    ∧ ((s.reportAt n y).station n).au.haltsFrom (s.station n).au 2 := by
  have hreport : (s.reportAt n y).station n = (report (s.env n) y ⟨s.station n, s.attention, []⟩).st := State.withStation_station ..
  obtain ⟨-, hfired⟩ := report_fired (s.env n) y ⟨s.station n, s.attention, []⟩
  have hau := report_halts (s.env n) y ⟨s.station n, s.attention, []⟩
  rw [hreport]
  exact ⟨(congrArg Station.head hfired).trans rfl, (congrArg Station.queue hfired).trans rfl,
    (congrArg Station.state hfired).trans rfl, hau⟩

theorem State.putLogged_elapsed : (s.putLogged n t r).elapsed = s.elapsed := by
  unfold State.putLogged
  split_ifs <;> rfl

/-! ## The steps before the owner's -/

theorem State.told_ok : s.told n t x .ok ws corrected
    = s.putLogged n (t.controlled x .ok) (s.accessRec x .ok x.owner.hostRef (x.recordWords .ok ws) corrected) := by
  unfold State.told
  exact if_pos rfl

theorem State.told_failed (ho : o ≠ .ok) : s.told n t x o ws corrected
    = (s.putLogged n t (s.accessRec x o x.owner.hostRef (x.recordWords o ws) corrected)).reportAt n .accessError := by
  have hc : t.controlled x o = t := if_neg fun h => ho h.2
  unfold State.told
  rw [hc]
  exact if_neg ho

/-- Those steps keep the head, the queue and the station state, and put at most two HALTs in the table. -/
theorem State.told_station : ((s.told n t x o ws corrected).station n).head = t.head
    ∧ ((s.told n t x o ws corrected).station n).queue = t.queue ∧ ((s.told n t x o ws corrected).station n).state = t.state
    ∧ ((s.told n t x o ws corrected).station n).au.haltsFrom t.au 2 := by
  by_cases ho : o = .ok
  · subst ho
    rw [State.told_ok]
    obtain ⟨hhead, hqueue, hstate, hau, -⟩ := State.putLogged_keeps (s := s) (n := n) (t := t.controlled x .ok)
      (r := s.accessRec x .ok x.owner.hostRef (x.recordWords .ok ws) corrected)
    rw [hhead, hqueue, hstate, hau]
    unfold Station.controlled
    split_ifs
    · exact ⟨rfl, rfl, rfl, AccessUnit.haltsFrom_refl t.au 2⟩
    · exact ⟨rfl, rfl, rfl, AccessUnit.haltsFrom_refl t.au 2⟩
  · rw [State.told_failed ho]
    obtain ⟨hhead, hqueue, hstate, hau, -⟩ := State.putLogged_keeps (s := s) (n := n) (t := t)
      (r := s.accessRec x o x.owner.hostRef (x.recordWords o ws) corrected)
    obtain ⟨hhead', hqueue', hstate', hau'⟩ := State.reportAt_keeps
      (s.putLogged n t (s.accessRec x o x.owner.hostRef (x.recordWords o ws) corrected)) n .accessError
    rw [hau] at hau'
    exact ⟨hhead'.trans hhead, hqueue'.trans hqueue, hstate'.trans hstate, hau'⟩

theorem State.reportAt_elapsed (s : State) (n : StationNo) (y : Cond) : (s.reportAt n y).elapsed = s.elapsed :=
  congrArg Env.now (State.withStation_env s n (fun e _ => report e y ⟨s.station n, s.attention, []⟩) n)

theorem State.told_elapsed : (s.told n t x o ws corrected).elapsed = s.elapsed := by
  by_cases ho : o = .ok
  · subst ho
    rw [State.told_ok, State.putLogged_elapsed]
  · rw [State.told_failed ho, State.reportAt_elapsed, State.putLogged_elapsed]

end

/-! ## A response (R68, R69) -/

section
variable {s : State} {c : ConnectorNo} {n : StationNo} {p : PacketBuf} {corrected : Bool} {tag : Nat} {status : Byte}
  {words : List Word32} {x : Entry}

/-- The station at a response, its entry freed (R72 step 1). -/
def Station.responded (t : Station) (corrected : Bool) (now : Nat) (x : Entry) : Station :=
  { t with
    lp := { t.packetEnds corrected now with txList := t.lp.txList.filter fun r => r.tag != x.tag }
    au := { t.au with entries := t.au.entries.filter fun y => y.tag != x.tag } }

theorem exec_responsePacket (hc : s.stationOf c = some n) (hup : (s.station n).lp.up = true) (hp : (s.station n).lp.packet = some p)
    (hv : packetVerdict p = ⟨corrected, .inr (.response tag status words)⟩) :
    exec (.responsePacket c) s = .next (s.withStation n fun e c => parkCheck e (endResponse e c))
      ∧ endResponse (s.env n) ⟨s.station n, s.attention, []⟩ = takeResponse (s.env n) tag status words corrected
        ⟨{ s.station n with lp := (s.station n).packetEnds corrected s.elapsed }, s.attention, []⟩ := by
  refine ⟨congrArg Host.Outcome.next (State.atConnector_serves hc _), ?_⟩
  have hj : Ctx.judged ⟨s.station n, s.attention, []⟩ ⟨corrected, .inr (.response tag status words)⟩ :=
    (LinkPort.verdict_of hup hp).trans (congrArg some hv)
  rw [endResponse_judged hj, endPacket_eq]
  rfl

/-- A response to an outstanding entry completes it. -/
theorem takeResponse_completes {e : Env} {c : Ctx} (h : c.st.au.entries.find? (fun y => y.tag.val == tag) = some x) {o : AccessOutcome}
    (ho : responseOutcome x status words.length = o) :
    takeResponse e tag status words corrected c = complete e x o (if o = .ok then words else []) corrected (c.freeEntry x.tag) := by
  unfold takeResponse
  rw [h]
  subst ho
  rfl

end

end Sys2Proof.Machine
end

section
/-! A completed entry whose owner is the executing job (R72, R77 to R81). -/

namespace Sys2Proof.Machine

section
variable {s : State} {n : StationNo} {t : Station} {x : Entry} {o : AccessOutcome} {ws : List Word32} {corrected : Bool}
  {a : AccessExec} {q : QJob} {qs : List QJob} {f : Env → Ctx → Ctx}

theorem State.presentData_station (m : StationNo) : (s.presentData n q x ws).station m = s.station m := by
  unfold State.presentData dataEffs
  cases q.job.readBuffer <;> rfl

/-- The completion's work at station n, before PARK's check. -/
def State.completesAt (s : State) (n : StationNo) (f : Env → Ctx → Ctx) (t : Station) (x : Entry) (o : AccessOutcome)
    (ws : List Word32) (corrected : Bool) : Prop :=
  f (s.env n) ⟨s.station n, s.attention, []⟩ = complete (s.env n) x o ws corrected ⟨t, s.attention, []⟩

/-- The ACCESS record of a job's entry. -/
def State.jobRec (s : State) (x : Entry) (o : AccessOutcome) (q : QJob) (ws : List Word32) (corrected : Bool) : SrcRec :=
  s.accessRec x o q.hostRef (x.recordWords o ws) corrected

theorem Station.controlled_heads (h : Head) (l : List QJob) :
    { t.controlled x o with head := h, queue := l } = ({ t with head := h, queue := l } : Station).controlled x o := by
  unfold Station.controlled
  split_ifs <;> rfl

theorem State.told_owned_ok (hx : x.owner = .job q.jid q.hostRef) : s.told n t x .ok ws corrected
    = s.putLogged n (t.controlled x .ok) (s.jobRec x .ok q ws corrected) := by
  rw [State.told_ok, hx]
  rfl

theorem State.told_owned_failed (hx : x.owner = .job q.jid q.hostRef) (ho : o ≠ .ok) : s.told n t x o ws corrected
    = (s.putLogged n t (s.jobRec x o q ws corrected)).reportAt n .accessError := by
  rw [State.told_failed ho, hx]
  rfl

/-- The last request of a job completed OK ends it. -/
theorem State.completes_okEnds (hf : s.completesAt n f t x .ok ws corrected) (hh : t.head = .access a) (hq : t.queue = q :: qs)
    (hx : x.owner = .job q.jid q.hostRef) (hfly : a.flying = 1) (hd : a.reqs = [] ∨ a.fail ≠ none) :
    s.withStation n (fun e c => parkCheck e (f e c))
      = (((s.putLogged n (({ t with head := .waiting, queue := qs } : Station).controlled x .ok) (s.jobRec x .ok q ws corrected)).presentData
        n q x ws).recordResult n q.jid (Res.ofOutcome (a.fail.getD .ok) (accessValue q.job (a.took x s.elapsed)))).offerFreed n := by
  obtain ⟨hhead, hqueue, -, -⟩ := State.told_station (s := s) (n := n) (t := t) (x := x) (o := .ok) (ws := ws) (corrected := corrected)
  have howner := State.withStation_toOwner_okEnds (s := s.told n t x .ok ws corrected) (n := n) (ws := ws)
    (hhead.trans hh) (hqueue.trans hq) hx hfly hd
  have hput : (s.told n t x .ok ws corrected).put n { (s.told n t x .ok ws corrected).station n with queue := qs, head := .waiting }
      (s.told n t x .ok ws corrected).attention
      = s.putLogged n (({ t with head := .waiting, queue := qs } : Station).controlled x .ok) (s.jobRec x .ok q ws corrected) := by
    rw [State.told_owned_ok hx]
    exact (State.putLogged_then (apartFromCap_heads .waiting qs)).trans
      (congrArg (s.putLogged n · _) (Station.controlled_heads ..))
  rw [hput, State.told_elapsed] at howner
  refine State.withStation_completes hf howner ?_ (.inr (.inr fun b hb => ?_))
  · rw [State.station_congr (State.recordResult_stations ..), State.presentData_station, State.putLogged_keeps.1,
      ← Station.controlled_heads]
    exact nofun
  · rw [State.station_congr (State.recordResult_stations ..), State.presentData_station, State.putLogged_keeps.1,
      ← Station.controlled_heads] at hb
    cases hb

/-- A request of a job completed OK with the job going on. -/
theorem State.withStation_toOwner_okOn (hh : t.head = .access a) (hq : t.queue = q :: qs) (hx : x.owner = .job q.jid q.hostRef)
    (hon : 1 < a.flying ∨ (a.reqs ≠ [] ∧ a.fail = none)) :
    ((s.told n t x .ok ws corrected).withStation n fun e => toOwner e x .ok ws)
      = (s.putLogged n (({ t with head := .access (a.took x s.elapsed) } : Station).controlled x .ok)
        (s.jobRec x .ok q ws corrected)).presentData n q x ws := by
  obtain ⟨hhead, hqueue, -, -⟩ := State.told_station (s := s) (n := n) (t := t) (x := x) (o := .ok) (ws := ws) (corrected := corrected)
  refine (State.withStation_toOwner_okGoesOn (s := s.told n t x .ok ws corrected) (n := n) (ws := ws)
    (hhead.trans hh) (hqueue.trans hq) hx hon).trans (congrArg (State.presentData · n q x ws) ?_)
  rw [State.told_elapsed, State.told_owned_ok hx]
  refine (State.putLogged_then (apartFromCap_head (.access (a.took x s.elapsed)))).trans (congrArg (s.putLogged n · _) ?_)
  unfold Station.controlled
  dsimp only
  split_ifs <;> rfl

theorem State.okOn_station (h : Head) : ((s.putLogged n (({ t with head := h } : Station).controlled x o)
    (s.jobRec x o q ws corrected)).presentData n q x ws |>.station n).head = h := by
  rw [State.presentData_station, State.putLogged_keeps.1]
  unfold Station.controlled
  split_ifs <;> rfl

/-- A request completed OK of a job that issues no more, with others in flight. -/
theorem State.completes_okOn (hf : s.completesAt n f t x .ok ws corrected) (hh : t.head = .access a) (hq : t.queue = q :: qs)
    (hx : x.owner = .job q.jid q.hostRef) (hfly : 1 < a.flying) (hd : a.reqs = [] ∨ a.fail ≠ none) :
    s.withStation n (fun e c => parkCheck e (f e c))
      = ((s.putLogged n (({ t with head := .access (a.took x s.elapsed) } : Station).controlled x .ok)
        (s.jobRec x .ok q ws corrected)).presentData n q x ws).offerFreed n := by
  refine State.withStation_completes hf (State.withStation_toOwner_okOn hh hq hx (.inl hfly)) ?_ (.inr (.inr fun b hb => ?_))
  · rw [State.okOn_station]
    exact nofun
  · rw [State.okOn_station] at hb
    obtain rfl := Head.access.inj hb
    exact hd

/-- The last request of a job fails. -/
theorem State.completes_failEnds (hf : s.completesAt n f t x o ws corrected) (hh : t.head = .access a) (hq : t.queue = q :: qs)
    (hx : x.owner = .job q.jid q.hostRef) (ho : o ≠ .ok) (hfly : a.flying = 1) :
    s.withStation n (fun e c => parkCheck e (f e c))
      = (((s.putLogged n t (s.jobRec x o q ws corrected)).reportAt n .accessError).endAt n q.jid
        (Res.ofOutcome (a.fail.getD o) (accessValue q.job (a.failed o)))).offerFreed n := by
  obtain ⟨hhead, hqueue, -, -⟩ := State.told_station (s := s) (n := n) (t := t) (x := x) (o := o) (ws := ws) (corrected := corrected)
  have howner := State.withStation_toOwner_failEnds (s := s.told n t x o ws corrected) (n := n) (ws := ws)
    (hhead.trans hh) (hqueue.trans hq) hx ho hfly
  rw [State.told_owned_failed hx ho] at howner
  refine State.withStation_completes hf ((congrArg (State.withStation · n fun e => toOwner e x o ws)
    (State.told_owned_failed hx ho)).trans howner) ?_ (.inr (.inr fun b hb => ?_))
  · unfold State.endAt
    rw [State.putEnd_station]
    exact nofun
  · unfold State.endAt at hb
    rw [State.putEnd_station] at hb
    cases hb

/-- A request of a job fails with others in flight. -/
theorem State.completes_failOn (hf : s.completesAt n f t x o ws corrected) (hh : t.head = .access a) (hq : t.queue = q :: qs)
    (hx : x.owner = .job q.jid q.hostRef) (ho : o ≠ .ok) (hfly : 1 < a.flying) :
    let failed := (s.putLogged n t (s.jobRec x o q ws corrected)).reportAt n .accessError
    s.withStation n (fun e c => parkCheck e (f e c))
      = (failed.put n { failed.station n with head := .access (a.failed o) } failed.attention).offerFreed n := by
  obtain ⟨hhead, hqueue, -, -⟩ := State.told_station (s := s) (n := n) (t := t) (x := x) (o := o) (ws := ws) (corrected := corrected)
  have howner := State.withStation_toOwner_failGoesOn (s := s.told n t x o ws corrected) (n := n) (ws := ws)
    (hhead.trans hh) (hqueue.trans hq) hx ho hfly
  rw [State.told_owned_failed hx ho] at howner
  intro failed
  refine State.withStation_completes hf ((congrArg (State.withStation · n fun e => toOwner e x o ws)
    (State.told_owned_failed hx ho)).trans howner) ?_ (.inr (.inr fun b hb => ?_))
  · rw [State.put_station]
    exact nofun
  · rw [State.put_station] at hb
    obtain rfl := Head.access.inj hb
    exact .inr (Option.some_ne_none _)

/-- A trigger's entry completes: it only ends. -/
theorem State.completes_trigger (hf : s.completesAt n f t x o ws corrected) (hx : x.owner = .trigger) (hh : t.head ≠ .parkWait)
    (hone : t.spent ∨ 3 ≤ t.au.entries.length) :
    s.withStation n (fun e c => parkCheck e (f e c)) = (s.told n t x o ws corrected).offerFreed n := by
  obtain ⟨hhead, -, -, hau, -⟩ := State.told_station (s := s) (n := n) (t := t) (x := x) (o := o) (ws := ws) (corrected := corrected)
  refine State.withStation_completes hf (State.withStation_toOwner_trigger hx) (by rw [hhead]; exact hh) ?_
  rcases hone with hspent | h3
  · refine .inr (.inr fun b hb => hspent b ?_)
    rwa [hhead] at hb
  · exact .inr (.inl (Nat.le_trans h3 hau))

end

end Sys2Proof.Machine
end

section
/-! A freed entry taken by the job's next request or the holder's HALT; retired tags; unbroken runs (R70, R71,
R74, R80, R81). -/

namespace Sys2Proof.Machine

/-! ## The table with an entry freed -/

theorem length_filter_ne {α β : Type} [DecidableEq β] (g : α → β) {l : List α} (hn : (l.map g).Nodup) {x : α} (hx : x ∈ l) :
    (l.filter fun y => g y != g x).length + 1 = l.length := by
  have hone : (l.filter fun y => g y == g x).length = 1 := by
    rw [← List.countP_eq_length_filter]
    have hcount : (l.map g).count (g x) = 1 := List.count_eq_one_of_mem hn (List.mem_map_of_mem hx)
    rw [List.count, List.countP_map] at hcount
    exact hcount
  have hsum := List.length_eq_length_filter_add (l := l) fun y => g y == g x
  have hneg : (l.filter fun y => !(g y == g x)) = l.filter fun y => g y != g x := rfl
  rw [hneg] at hsum
  omega

theorem AccessUnit.freed_length {a : AccessUnit} (hb : a.bounded) (h4 : a.entries.length = 4) {x : Entry} (hx : x ∈ a.entries) :
    (a.entries.filter fun y => y.tag != x.tag).length = 3 := by
  obtain ⟨-, -, hn⟩ := hb
  have := length_filter_ne Entry.tag (List.nodup_append.mp hn).1 hx
  omega

/-! ## The entry taken -/

section
variable {s : State} {n : StationNo} {t : Station} {x : Entry} {ws : List Word32} {corrected : Bool}
  {a : AccessExec} {q : QJob} {qs : List QJob} {f : Env → Ctx → Ctx} {r : ReqSpec} {rest : List ReqSpec}

theorem State.presentData_put (u : Station) (b : BitVec 11) : (s.presentData n q x ws).put n u b = (s.put n u b).presentData n q x ws := by
  unfold State.presentData dataEffs
  cases q.job.readBuffer <;> rfl

theorem State.presentData_attention : (s.presentData n q x ws).attention = s.attention
    ∧ (s.presentData n q x ws).elapsed = s.elapsed := by
  unfold State.presentData dataEffs
  cases q.job.readBuffer <;> exact ⟨rfl, rfl⟩

/-- A station that has issued the job's next request. -/
def Station.goesOn (t : Station) (now : Nat) (q : QJob) (r : ReqSpec) (a : AccessExec) : Station :=
  { t.issued now (.job q.jid q.hostRef) [r] with head := .access a }

theorem apartFromCap_goesOn (now : Nat) (q : QJob) (r : ReqSpec) (a : AccessExec) :
    Station.apartFromCap fun t => t.goesOn now q r a :=
  ⟨fun t o => by unfold Station.take; split <;> rfl, fun _ => rfl, fun _ => rfl⟩

theorem apartFromCap_halt (now : Nat) : Station.apartFromCap fun t => t.haltIssued now :=
  ⟨fun t o => by unfold Station.take; split <;> rfl, fun _ => rfl, fun _ => rfl⟩

/-- The freed entry goes to the job's next request, the holder being empty. -/
theorem State.offerFreed_goesOn {w : Station} {rec' : SrcRec} {fl ticks : Nat} {oks : List (Nat × Nat)} (hup : w.lp.up = true)
    (h3 : w.au.entries.length = 3) (hholder : w.au.holder = false) (hhead : w.head = .access ⟨r :: rest, fl, none, oks, ticks⟩)
    (hq : w.queue = q :: qs) : ((s.putLogged n w rec').presentData n q x ws).offerFreed n
      = (s.putLogged n (w.goesOn s.elapsed q r ⟨rest, fl + 1, none, oks, ticks⟩) rec').presentData n q x ws := by
  obtain ⟨khead, kqueue, -, kau, klp⟩ := State.putLogged_keeps (s := s) (n := n) (t := w) (r := rec')
  have hno : ¬ (((s.putLogged n w rec').station n).lp.up = false ∨ 4 ≤ ((s.putLogged n w rec').station n).au.entries.length) := by
    rw [klp, kau, hup, h3]
    decide
  unfold State.offerFreed
  dsimp only
  rw [State.presentData_station, State.presentData_attention.1, State.presentData_attention.2, State.putLogged_elapsed, if_neg hno,
    if_neg (by rw [kau, hholder]; decide), khead, kqueue, hhead, hq]
  dsimp only
  rw [State.presentData_put]
  exact congrArg (State.presentData · n q x ws) (State.putLogged_then (apartFromCap_goesOn s.elapsed q r ⟨rest, fl + 1, none, oks, ticks⟩))

/-- The freed entry goes to the HALT in the holder. -/
theorem State.offerFreed_halt {w : Station} {rec' : SrcRec} (hup : w.lp.up = true) (h3 : w.au.entries.length = 3)
    (hholder : w.au.holder = true) : ((s.putLogged n w rec').presentData n q x ws).offerFreed n
      = (s.putLogged n (w.haltIssued s.elapsed) rec').presentData n q x ws := by
  obtain ⟨-, -, -, kau, klp⟩ := State.putLogged_keeps (s := s) (n := n) (t := w) (r := rec')
  rw [State.offerFreed_holder]
  · rw [State.presentData_station, State.presentData_attention.1, State.presentData_attention.2, State.putLogged_elapsed,
      State.presentData_put]
    exact congrArg (State.presentData · n q x ws) (State.putLogged_then (apartFromCap_halt s.elapsed))
  · rw [State.presentData_station, klp, hup]
  · rw [State.presentData_station, kau, h3]
    decide
  · rw [State.presentData_station, kau, hholder]

/-- A request completed OK with the table full before: the freed entry is offered. -/
theorem State.completes_okNext (hf : s.completesAt n f t x .ok ws corrected) (hh : t.head = .access a) (hq : t.queue = q :: qs)
    (hx : x.owner = .job q.jid q.hostRef) (hd : a.reqs ≠ [] ∧ a.fail = none) (h3 : t.au.entries.length = 3) :
    s.withStation n (fun e c => parkCheck e (f e c))
      = ((s.putLogged n (({ t with head := .access (a.took x s.elapsed) } : Station).controlled x .ok)
        (s.jobRec x .ok q ws corrected)).presentData n q x ws).offerFreed n := by
  refine State.withStation_completes hf (State.withStation_toOwner_okOn hh hq hx (.inr hd)) ?_ (.inr (.inl ?_))
  · rw [State.okOn_station]
    exact nofun
  · rw [State.presentData_station, State.putLogged_keeps.2.2.2.1]
    unfold Station.controlled
    split_ifs <;> exact Nat.le_of_eq h3.symm

end

/-! ## Retired tags (R70) -/

theorem earliest_none {l : List RetiredTag} (h : earliest l = none) : l = [] := by
  cases l with
  | nil => rfl
  | cons z zs =>
    unfold earliest at h
    split at h
    · split_ifs at h
    · cases h

/-- The earliest of a list of retired tags: none expires before it, and those before it in the list later. -/
theorem earliest_spec {l : List RetiredTag} {r : RetiredTag} (h : earliest l = some r) : ∃ i, l[i]? = some r
    ∧ ∀ (j : Nat) (y : RetiredTag), l[j]? = some y → r.expiry ≤ y.expiry ∧ (y.expiry = r.expiry → i ≤ j) := by
  induction l generalizing r with
  | nil => cases h
  | cons x xs ih =>
    unfold earliest at h
    cases hm : earliest xs with
    | none =>
      rw [hm] at h
      obtain rfl := Option.some.inj h
      refine ⟨0, rfl, fun j y hy => ?_⟩
      cases j with
      | zero =>
        obtain rfl := Option.some.inj hy
        exact ⟨Nat.le_refl _, fun _ => Nat.zero_le _⟩
      | succ j =>
        rw [earliest_none hm] at hy
        cases hy
    | some m =>
      obtain ⟨i, hi, hmin⟩ := ih hm
      rw [hm] at h
      dsimp only at h
      split_ifs at h with hlt
      · obtain rfl := Option.some.inj h
        refine ⟨i + 1, hi, fun j y hy => ?_⟩
        cases j with
        | zero =>
          obtain rfl := Option.some.inj hy
          exact ⟨Nat.le_of_lt hlt, fun he => by omega⟩
        | succ j =>
          obtain ⟨h1, h2⟩ := hmin j y hy
          exact ⟨h1, fun he => Nat.succ_le_succ (h2 he)⟩
      · obtain rfl := Option.some.inj h
        refine ⟨0, rfl, fun j y hy => ?_⟩
        cases j with
        | zero =>
          obtain rfl := Option.some.inj hy
          exact ⟨Nat.le_refl _, fun _ => Nat.zero_le _⟩
        | succ j =>
          obtain ⟨h1, -⟩ := hmin j y hy
          exact ⟨by omega, fun _ => Nat.zero_le _⟩

/-- The first member of a list is the one erased. -/
theorem erase_eq_eraseIdx {l : List RetiredTag} {r : RetiredTag} {i : Nat} (hi : l[i]? = some r) (hfirst : ∀ j, l[j]? = some r → i ≤ j) :
    l.erase r = l.eraseIdx i := by
  induction l generalizing i with
  | nil => cases hi
  | cons x xs ih =>
    cases i with
    | zero =>
      obtain rfl := Option.some.inj hi
      rw [List.erase_cons_head]
      rfl
    | succ i =>
      have hne : x ≠ r := fun he => by
        have := hfirst 0 (congrArg some he)
        omega
      rw [List.erase_cons_tail (by simpa using hne), List.eraseIdx_cons_succ,
        ih hi fun j hj => Nat.le_of_succ_le_succ (hfirst (j + 1) hj)]

/-- A tag joins the retired list, the earliest leaving a full one (R70). -/
theorem AccessUnit.retire_eq {a : AccessUnit} {i : Nat} (h : a.retired.length < 8 ∨ ∃ r, a.retired[i]? = some r
      ∧ ∀ j y, a.retired[j]? = some y → r.expiry ≤ y.expiry ∧ (y.expiry = r.expiry → i ≤ j)) (tag : Fin 64) (expiry : Nat) :
    a.retire tag expiry = { a with
      retired := (if a.retired.length < 8 then a.retired else a.retired.eraseIdx i) ++ [⟨tag, expiry⟩] } := by
  unfold AccessUnit.retire
  dsimp only
  by_cases h8 : a.retired.length < 8
  · rw [if_pos h8, if_pos (show a.retired.length < Config.maxRetired from h8)]
  · obtain ⟨r, hi, hmin⟩ := h.resolve_left h8
    rw [if_neg h8, if_neg (show ¬ a.retired.length < Config.maxRetired from h8)]
    cases hm : earliest a.retired with
    | none =>
      rw [earliest_none hm] at hi
      cases hi
    | some m =>
      obtain ⟨k, hk, hmin'⟩ := earliest_spec hm
      obtain ⟨h1, h2⟩ := hmin k m hk
      obtain ⟨h1', h2'⟩ := hmin' i r hi
      obtain rfl : i = k := Nat.le_antisymm (h2 (by omega)) (h2' (by omega))
      obtain rfl := Option.some.inj (hi.symm.trans hk)
      dsimp only
      rw [erase_eq_eraseIdx hi fun j hj => (hmin j _ hj).2 rfl]

/-! ## Words in an unbroken run (R81) -/

/-- A run goes on through the requests found and stops where none begins. -/
theorem runFrom_eq {oks : List (Nat × Nat)} {w r : Nat} (hr : 1 ≤ r)
    (hform : ∀ y ∈ oks, ∃ i, i * r < w ∧ y = (i * r, min r (w - i * r))) {m : Nat}
    (hin : ∀ i < m, i * r < w → (i * r, min r (w - i * r)) ∈ oks)
    (hstop : w ≤ m * r ∨ (m * r, min r (w - m * r)) ∉ oks) (fuel j : Nat) (hj : j ≤ m) (hfuel : m ≤ j + fuel ∨ w ≤ (j + fuel) * r) :
    runFrom oks fuel (min (j * r) w) = min (m * r) w := by
  have hends : ∀ k, (∀ y ∈ oks, y.1 ≠ k) → ∀ fuel, runFrom oks fuel k = k := fun k hk fuel => by
    cases fuel with
    | zero => rfl
    | succ fuel =>
      have hnone : oks.find? (fun x => x.1 == k) = none := List.find?_eq_none.mpr fun y hy h => hk y hy (beq_iff_eq.mp h)
      unfold runFrom
      rw [hnone]
  have hmul : ∀ i, i * r = m * r → i = m := fun i h => Nat.eq_of_mul_eq_mul_right hr h
  induction fuel generalizing j with
  | zero =>
    show min (j * r) w = min (m * r) w
    have hmono : j * r ≤ m * r := Nat.mul_le_mul_right r hj
    rcases hfuel with h | h
    · obtain rfl : j = m := Nat.le_antisymm hj h
      rfl
    · rw [Nat.add_zero] at h
      omega
  | succ fuel ih =>
    have hmono : j * r ≤ m * r := Nat.mul_le_mul_right r hj
    by_cases hw : w ≤ j * r
    · rw [Nat.min_eq_right hw, Nat.min_eq_right (Nat.le_trans hw hmono)]
      refine hends w (fun y hy => ?_) _
      obtain ⟨i, hi, rfl⟩ := hform y hy
      exact Nat.ne_of_lt hi
    · rw [Nat.not_le] at hw
      rw [Nat.min_eq_left (Nat.le_of_lt hw)]
      rcases Nat.lt_or_eq_of_le hj with hlt | rfl
      · obtain ⟨y, hy⟩ := Option.isSome_iff_exists.mp (List.find?_isSome (p := fun x : Nat × Nat => x.1 == j * r) |>.mpr
          ⟨_, hin j hlt hw, beq_self_eq_true (j * r)⟩)
        obtain ⟨i, -, hyeq⟩ := hform y (List.mem_of_find?_eq_some hy)
        have hy1 : y.1 = j * r := beq_iff_eq.mp (List.find?_some (p := fun x : Nat × Nat => x.1 == j * r) hy)
        have hij : i = j := Nat.eq_of_mul_eq_mul_right hr ((congrArg Prod.fst hyeq).symm.trans hy1)
        have hnext : j * r + y.2 = min ((j + 1) * r) w := by
          rw [hyeq, hij, Nat.succ_mul]
          dsimp only
          omega
        unfold runFrom
        rw [hy]
        dsimp only
        rw [hnext]
        exact ih (j + 1) hlt (by rw [show j + 1 + fuel = j + (fuel + 1) by omega]; exact hfuel)
      · rw [Nat.min_eq_left (Nat.le_of_lt hw)]
        refine hends _ (fun y hy h1 => ?_) _
        obtain ⟨i, hi, rfl⟩ := hform y hy
        obtain rfl := hmul i h1
        exact hstop.elim (fun h => by omega) fun h => h hy

/-- The words counted from word 0 in an unbroken run of requests of `r` words. -/
theorem goodWords_eq {oks : List (Nat × Nat)} {w r m : Nat} (hr : 1 ≤ r)
    (hform : ∀ y ∈ oks, ∃ i, i * r < w ∧ y = (i * r, min r (w - i * r)))
    (hin : ∀ i < m, i * r < w → (i * r, min r (w - i * r)) ∈ oks)
    (hstop : w ≤ m * r ∨ (m * r, min r (w - m * r)) ∉ oks) : goodWords oks = min (m * r) w := by
  have hfuel : m ≤ 0 + oks.length ∨ w ≤ (0 + oks.length) * r := by
    rw [Nat.zero_add]
    by_contra hno
    obtain ⟨hm, hw⟩ := not_or.mp hno
    rw [Nat.not_le] at hm hw
    have hsub : (List.range (oks.length + 1)).map (fun i => (i * r, min r (w - i * r))) ⊆ oks := fun y hy => by
      obtain ⟨i, hi, rfl⟩ := List.mem_map.mp hy
      have hle : i ≤ oks.length := Nat.le_of_lt_succ (List.mem_range.mp hi)
      exact hin i (by omega) (Nat.lt_of_le_of_lt (Nat.mul_le_mul_right r hle) hw)
    have hnodup : ((List.range (oks.length + 1)).map fun i => (i * r, min r (w - i * r))).Nodup :=
      List.nodup_range.map fun i j h => Nat.eq_of_mul_eq_mul_right hr (congrArg Prod.fst h)
    have hlen := (hnodup.subperm hsub).length_le
    rw [List.length_map, List.length_range] at hlen
    omega
  have hrun := runFrom_eq hr hform hin hstop oks.length 0 (Nat.zero_le m) hfuel
  rwa [Nat.zero_mul, Nat.zero_min] at hrun

end Sys2Proof.Machine
end

section
/-! PARK's wait ended by a completion (R32; log 27). -/

namespace Sys2Proof.Machine

theorem completed_setHead (e : Env) (x : Entry) (o : AccessOutcome) (ws : List Word32) (corrected : Bool) (h : Head) (c : Ctx) :
    completed e x o ws corrected (c.setHead h) = (completed e x o ws corrected c).setHead h := by
  have hcontrol : HeadBlind (controlDone x o) := by
    unfold controlDone
    exact HeadBlind.ite (fun _ _ => rfl) HeadBlind.id
  have hlog : HeadBlind fun c => if c.st.prof.accessLogging then offerRec e (accessRecord e x o ws corrected) c else c :=
    HeadBlind.choose (π := fun t => t.prof.accessLogging) (fun _ _ => rfl)
      (F := fun b c => if b = true then offerRec e (accessRecord e x o ws corrected) c else c)
      fun _ => HeadBlind.ite (HeadBlind.offerRec e _) HeadBlind.id
  have hreport : HeadBlind fun c => if o = .ok then c else report e .accessError c :=
    HeadBlind.ite HeadBlind.id (HeadBlind.report e _)
  have hall := (congrArg (fun c => if o = .ok then c else report e .accessError c)
    ((congrArg (fun c => if c.st.prof.accessLogging then offerRec e (accessRecord e x o ws corrected) c else c)
      (hcontrol h c)).trans (hlog h _))).trans (hreport h _)
  exact hall

section
variable {s : State} {n : StationNo} {t : Station} {x : Entry} {o : AccessOutcome} {ws : List Word32} {corrected : Bool}
  {q : QJob} {qs : List QJob} {f : Env → Ctx → Ctx}

/-- A completion's first steps do not look at the head. -/
theorem State.told_setHead (h : Head) : s.told n { t with head := h } x o ws corrected
    = (s.told n t x o ws corrected).put n { (s.told n t x o ws corrected).station n with head := h }
      (s.told n t x o ws corrected).attention := by
  obtain ⟨hput, hctx⟩ := State.told_eq (s := s) (n := n) (t := t) (x := x) (o := o) (ws := ws) (corrected := corrected)
  obtain ⟨hput', hctx'⟩ := State.told_eq (s := s) (n := n) (t := { t with head := h }) (x := x) (o := o) (ws := ws) (corrected := corrected)
  have hset := (completed_setHead (s.env n) x o ws corrected h ⟨t, s.attention, []⟩).trans (congrArg (Ctx.setHead · h) hctx)
  have heq := hctx'.symm.trans hset
  have hst := congrArg Ctx.st heq
  have hatt := congrArg Ctx.att heq
  refine hput'.trans ((congrArg₂ (s.put n) hst hatt).trans ?_)
  exact (State.put_put ..).symm.trans (congrArg (fun u : State => u.put n { (s.told n t x o ws corrected).station n with head := h }
    (s.told n t x o ws corrected).attention) hput.symm)

/-- A completion that empties the table ends the wait of a PARK at the head, which then comes to the head anew. -/
theorem State.completes_park (hf : s.completesAt n f t x o ws corrected) (hx : x.owner = .trigger) (hh : t.head = .parkWait)
    (hholder : t.au.holder = false) (hempty : t.au.entries = []) (hq : t.queue = q :: qs) (hj : q.job = .park) {r : State}
    (hr : s.told n { t with head := .waiting } x o ws corrected = r)
    (hs : t.state = .ready ∨ (t.state = .quiescing ∧ (r.station n).au.entries = [])) :
    (.next (s.withStation n fun e c => parkCheck e (f e c)) : Answer) = exec (.park n) r := by
  obtain ⟨khead, kqueue, kstate, kau⟩ := State.told_station (s := s) (n := n) (t := { t with head := .waiting }) (x := x) (o := o)
    (ws := ws) (corrected := corrected)
  have hwaits : s.told n t x o ws corrected = r.put n { r.station n with head := .parkWait } r.attention := by
    have hself : ({ ({ t with head := .waiting } : Station) with head := .parkWait } : Station) = t := by rw [← hh]
    have hset := State.told_setHead (s := s) (n := n) (t := { t with head := .waiting }) (x := x) (o := o) (ws := ws)
      (corrected := corrected) .parkWait
    rw [hself, hr] at hset
    exact hset
  rw [hr] at khead kqueue kstate kau
  have hheld : (r.station n).au.holder = false := (kau.2.2 (by
    show t.au.entries.length + 2 ≤ 4
    rw [hempty]
    decide)).trans hholder
  obtain ⟨hput, hctx⟩ := State.told_eq (s := s) (n := n) (t := t) (x := x) (o := o) (ws := ws) (corrected := corrected)
  have hdoes : s.withStation n (fun e c => parkCheck e (f e c))
      = (r.put n { r.station n with head := .parkWait } r.attention).withStation n parkCheck := by
    refine Eq.trans (State.withStation_afterPut (H := parkCheck) (u := (s.told n t x o ws corrected).station n)
      (a := (s.told n t x o ws corrected).attention) (hf.trans ?_)) (by rw [← hput, hwaits])
    rw [complete_eq, hctx, toOwner_trigger hx]
    refine congrArg (fun u => Ctx.mk u _ []) ?_
    have hst : (s.told n t x o ws corrected).station n = { r.station n with head := .parkWait } := by
      rw [hwaits, State.put_station]
    rw [hst]
    have hstuck : ({ r.station n with head := .parkWait } : Station).stuck := .inr (.inr nofun)
    have hstays : offerEntries (s.env n) { r.station n with head := .parkWait } = { r.station n with head := .parkWait } := by
      unfold offerEntries
      rw [issueHolder_waits (t := { r.station n with head := .parkWait }) (.inr (.inr hheld)), issueNext_stuck hstuck,
        issueNext_stuck hstuck, issueNext_stuck hstuck, issueNext_stuck hstuck]
    exact hstays
  have hwaiting : (r.station n).waitingJob = some .park := by
    rw [Station.waitingJob_of khead (kqueue.trans hq), hj]
  rw [hdoes, exec_park_head hwaiting]
  refine congrArg Host.Outcome.next ?_
  rcases hs with hready | ⟨hquiescing, hnone⟩
  · have hgate : (r.station n).headRefusal .park = none := by
      unfold Station.headRefusal
      rw [kstate.trans hready]
      rfl
    rw [State.gated_executed hgate fun e => parkJob e]
    exact (State.withStation_afterPut (G := fun _ c => c.setHead .parkWait) (H := parkCheck) rfl).symm
  · have hgate : (r.station n).headRefusal .park = some .state := by
      unfold Station.headRefusal
      rw [kstate.trans hquiescing]
      rfl
    rw [State.gated_refused (kqueue.trans hq) hgate]
    refine (State.withStation_endsWith (s := r.put n { r.station n with head := .parkWait } r.attention)
      (u := { r.station n with head := .parkWait }) (a := r.attention) (r := Res.ended .state) (kqueue.trans hq) ?_).trans ?_
    · rw [State.put_station]
      refine (if_pos ⟨rfl, hnone, hheld⟩).trans (if_neg fun hmay => ?_)
      unfold Station.mayPark at hmay
      simp only [Bool.and_eq_true, beq_iff_eq] at hmay
      have hready : (r.station n).state = .ready := hmay.1.1.1
      rw [kstate.trans hquiescing] at hready
      cases hready
    · unfold State.putEnd
      rw [State.put_put]

end

end Sys2Proof.Machine
end

section
/-! Responses and timeouts at a station: their outcomes, records and values (R68 to R72, R77 to R81). -/

namespace Sys2Proof.Machine

/-! ## Outcomes (Table 4-2) -/

/-- The subcode of a response that is not OK (Table 4-2). -/
def badSub (status : Byte) : Subcode :=
  if status = 0 then .length else if status = 1 then .addressFault else if status = 2 then .busy else .unsupported

theorem responseOutcome_ok {x : Entry} {status : Byte} {w : Nat} (h : status = 0 ∧ w = x.expected) :
    responseOutcome x status w = .ok := by
  unfold responseOutcome
  rw [if_pos h.1, if_pos h.2]

theorem responseOutcome_bad {x : Entry} {status : Byte} {w : Nat} (h : ¬ (status = 0 ∧ w = x.expected)) :
    responseOutcome x status w = .boardError (badSub status) := by
  unfold responseOutcome badSub
  by_cases h0 : status = 0
  · rw [if_pos h0, if_pos h0, if_neg fun hw => h ⟨h0, hw⟩]
  · rw [if_neg h0, if_neg h0]
    split_ifs <;> rfl

theorem badEnd_eq (status : Byte) : (⟨.boardError, false, if status = 0 then 4 else if status = 1 then 1 else if status = 2 then 2 else 3, 0⟩ : Res)
    = Res.ofOutcome (.boardError (badSub status)) 0 := by
  unfold badSub
  split_ifs <;> rfl

/-! ## Records and values -/

theorem Entry.recordWords_ok {x : Entry} (h : x.op = .read) (ws : List Word32) : x.recordWords .ok ws = ws.take 8 := by
  unfold Entry.recordWords
  rw [h]
  exact if_pos rfl

theorem Entry.recordWords_other {x : Entry} {o : AccessOutcome} (h : x.op ≠ .read ∨ o ≠ .ok) (ws : List Word32) :
    x.recordWords o ws = if x.op = .write then x.kept else [] := by
  unfold Entry.recordWords
  cases hop : x.op with
  | read => exact (if_neg (h.resolve_left fun hr => hr hop)).trans (if_neg nofun).symm
  | _ => rfl

theorem Station.controlled_other {t : Station} {x : Entry} (h : x.op ≠ .control) (o : AccessOutcome) : t.controlled x o = t :=
  if_neg fun hc => h hc.1

theorem accessValue_failed {j : Job} {a : AccessExec} (h : ∀ addr k buf, j ≠ .blockRead addr k buf) (hf : a.fail ≠ none) :
    accessValue j a = 0 := by
  have hnone : a.fail.isNone = false := by
    cases hfa : a.fail with
    | none => exact absurd hfa hf
    | some o => rfl
  unfold accessValue
  rw [hnone]
  cases j with
  | blockRead addr k buf => exact absurd rfl (h addr k buf)
  | _ => rfl

section
variable {s : State} {n : StationNo} {q : QJob} {x : Entry} {ws : List Word32}

theorem State.presentData_buffer {buf : Word64} (h : q.job.readBuffer = some buf) : s.presentData n q x ws
    = s.presentJob ⟨.job, some n, buf + BitVec.ofNat 64 (4 * x.offset), (wordBytes ws).length, some (wordBytes ws), .data q.jid n⟩ := by
  unfold State.presentData dataEffs
  rw [h]
  rfl

theorem State.presentData_none (h : q.job.readBuffer = none) : s.presentData n q x ws = s := by
  unfold State.presentData dataEffs
  rw [h]
  rfl

end

/-! ## The response at a station -/

section
variable {s : State} {c : ConnectorNo} {n : StationNo} {p : PacketBuf} {corrected : Bool} {tag : Nat} {status : Byte}
  {words : List Word32} {x : Entry} {o : AccessOutcome}

theorem response_completesAt (hc : s.stationOf c = some n) (hup : (s.station n).lp.up = true) (hp : (s.station n).lp.packet = some p)
    (hv : packetVerdict p = ⟨corrected, .inr (.response tag status words)⟩)
    (hx : (s.station n).au.entries.find? (fun y => y.tag.val == tag) = some x) (ho : responseOutcome x status words.length = o) :
    s.completesAt n endResponse ((s.station n).responded corrected s.elapsed x) x o (if o = .ok then words else []) corrected :=
  (exec_responsePacket hc hup hp hv).2.trans (takeResponse_completes
    (c := ⟨{ s.station n with lp := (s.station n).packetEnds corrected s.elapsed }, s.attention, []⟩) hx ho)

/-- A response to no outstanding entry is late where its tag is retired, else unmatched (R69). -/
theorem takeResponse_stray {e : Env} {c : Ctx} (h : ∀ y ∈ c.st.au.entries, y.tag.val ≠ tag) :
    takeResponse e tag status words corrected c
      = if c.st.au.retired.any (fun r => r.tag.val == tag) then c.modLp fun l => { l with health := l.health.lateResponse }
        else c.modLp fun l => { l with health := l.health.unmatchedResponse } := by
  have hnone : c.st.au.entries.find? (fun y => y.tag.val == tag) = none :=
    List.find?_eq_none.mpr fun y hy hyt => h y hy (beq_iff_eq.mp hyt)
  unfold takeResponse
  rw [hnone]

end

/-! ## A timeout at a station (R70) -/

section
variable {s : State} {n : StationNo} {tag : Fin 64} {x : Entry}

/-- The station at a timeout, its entry freed and its tag retired, the `i`-th of eight leaving (R70, R72 step 1). -/
def Station.timedOut (t : Station) (now : Nat) (tag : Fin 64) (i : Nat) : Station :=
  { t with
    lp := { t.lp with txList := t.lp.txList.filter fun r => r.tag != tag }
    au := { t.au with
      entries := t.au.entries.filter fun y => y.tag != tag
      retired := (if t.au.retired.length < 8 then t.au.retired else t.au.retired.eraseIdx i)
        ++ [⟨tag, now + t.prof.responseTimeout * 1000⟩] } }

theorem timeout_completesAt {i : Nat} (hx : (s.station n).au.entries.find? (fun y => y.tag == tag) = some x)
    (hdue : x.expiry ≤ s.elapsed) (hi : (s.station n).au.retired.length < 8 ∨ ∃ r, (s.station n).au.retired[i]? = some r
      ∧ ∀ j y, (s.station n).au.retired[j]? = some y → r.expiry ≤ y.expiry ∧ (y.expiry = r.expiry → i ≤ j)) :
    s.completesAt n (fun e => takeTimeout e tag) ((s.station n).timedOut s.elapsed tag i) x .timeout [] false := by
  have hretire := AccessUnit.retire_eq (a := (s.station n).au.freeTag tag) hi tag (s.elapsed + (s.station n).prof.responseTimeout * 1000)
  unfold State.completesAt takeTimeout
  dsimp only
  rw [hx]
  dsimp only
  rw [if_pos (show due (some x.expiry) (s.env n).now = true from decide_eq_true hdue)]
  refine congrArg (complete (s.env n) x .timeout [] false) ?_
  show Ctx.mk { s.station n with
    lp := (s.station n).lp.dropTag tag
    au := ((s.station n).au.freeTag tag).retire tag (s.elapsed + (s.station n).prof.responseTimeout * 1000) } s.attention [] = _
  rw [hretire]
  rfl

theorem takeTimeout_early {e : Env} {c : Ctx} (hx : c.st.au.entries.find? (fun y => y.tag == tag) = some x) (h : e.now < x.expiry) :
    takeTimeout e tag c = c := by
  unfold takeTimeout
  rw [hx]
  exact if_neg (by simpa [due] using h)

theorem exec_responseTimeoutExpiry : exec (.responseTimeoutExpiry n tag) s
    = .next (s.withStation n fun e c => parkCheck e (takeTimeout e tag c)) := rfl

end

end Sys2Proof.Machine
end

section
/-! Responses to access jobs of one request (R68, R72, R77 to R79). -/

namespace Sys2Proof.Machine

section
variable {s : State} {c : ConnectorNo} {n : StationNo} {p : PacketBuf} {corrected : Bool} {tag : Nat} {status : Byte}
  {words : List Word32} {x : Entry} {q : QJob} {qs : List QJob}

/-- A response on the connector of station n completes entry `x`. -/
structure Response (s : State) (c : ConnectorNo) (n : StationNo) (corrected : Bool) (status : Byte) (words : List Word32)
    (x : Entry) : Prop where
  runs : exec (.responsePacket c) s = .next (s.withStation n fun e c => parkCheck e (endResponse e c))
  ok : status = 0 ∧ words.length = x.expected →
    s.completesAt n endResponse ((s.station n).responded corrected s.elapsed x) x .ok words corrected
  bad : ¬ (status = 0 ∧ words.length = x.expected) →
    s.completesAt n endResponse ((s.station n).responded corrected s.elapsed x) x (.boardError (badSub status)) [] corrected

theorem Response.of (hc : s.stationOf c = some n) (hup : (s.station n).lp.up = true) (hp : (s.station n).lp.packet = some p)
    (hv : packetVerdict p = ⟨corrected, .inr (.response tag status words)⟩)
    (hx : (s.station n).au.entries.find? (fun y => y.tag.val == tag) = some x) : Response s c n corrected status words x :=
  ⟨(exec_responsePacket hc hup hp hv).1,
    fun h => response_completesAt hc hup hp hv hx (responseOutcome_ok h),
    fun h => response_completesAt hc hup hp hv hx (responseOutcome_bad h)⟩

variable (h : Response s c n corrected status words x)
include h

/-- The only request of a job completes OK. -/
theorem Response.onlyOk (hq : (s.station n).queue = q :: qs) (hh : (s.station n).head = .access ⟨[], 1, none, [], 0⟩)
    (ho : x.owner = .job q.jid q.hostRef) (hok : status = 0 ∧ words.length = x.expected) :
    exec (.responsePacket c) s = .next
      ((((s.putLogged n (({ (s.station n).responded corrected s.elapsed x with head := .waiting, queue := qs } : Station).controlled x .ok)
        (s.jobRec x .ok q words corrected)).presentData n q x words).recordResult n q.jid
        (Res.ofOutcome .ok (accessValue q.job (AccessExec.took ⟨[], 1, none, [], 0⟩ x s.elapsed)))).offerFreed n) :=
  h.runs.trans (congrArg Host.Outcome.next
    (State.completes_okEnds (a := ⟨[], 1, none, [], 0⟩) (h.ok hok) hh hq ho rfl (.inl rfl)))

/-- The only request of a job other than BLOCK READ fails. -/
theorem Response.onlyBad (hq : (s.station n).queue = q :: qs) (hh : (s.station n).head = .access ⟨[], 1, none, [], 0⟩)
    (ho : x.owner = .job q.jid q.hostRef) (hno : ¬ (status = 0 ∧ words.length = x.expected))
    (hb : ∀ addr k buf, q.job ≠ .blockRead addr k buf) :
    exec (.responsePacket c) s = .next
      ((((s.putLogged n ((s.station n).responded corrected s.elapsed x) (s.accessRec x (.boardError (badSub status)) q.hostRef
        (if x.op = .write then x.kept else []) corrected)).reportAt n .accessError).endAt n q.jid
        (Res.ofOutcome (.boardError (badSub status)) 0)).offerFreed n) := by
  have hends := State.completes_failEnds (a := ⟨[], 1, none, [], 0⟩) (h.bad hno) hh hq ho nofun rfl
  have hrec : s.jobRec x (.boardError (badSub status)) q [] corrected = s.accessRec x (.boardError (badSub status)) q.hostRef
      (if x.op = .write then x.kept else []) corrected := by
    unfold State.jobRec
    rw [Entry.recordWords_other (o := .boardError (badSub status)) (.inr nofun)]
  rw [accessValue_failed hb (Option.some_ne_none _), hrec] at hends
  exact h.runs.trans (congrArg Host.Outcome.next hends)

theorem Response.readOk {addr buf : Word64} {k : Nat} (hq : (s.station n).queue = q :: qs)
    (hh : (s.station n).head = .access ⟨[], 1, none, [], 0⟩)
    (ho : x.owner = .job q.jid q.hostRef) (hj : q.job = .read addr k buf) (hop : x.op = .read) (hk : x.count = k) (hoff : x.offset = 0)
    (h0 : status = 0) (hw : words.length = k) : exec (.responsePacket c) s = .next
      (((s.putLogged n { (s.station n).responded corrected s.elapsed x with head := .waiting, queue := qs }
        (s.accessRec x .ok q.hostRef (words.take 8) corrected)).presentJob
        ⟨.job, some n, buf, (wordBytes words).length, some (wordBytes words), .data q.jid n⟩)
        |>.recordResult n q.jid (Res.okv k) |>.offerFreed n) := by
  have hexp : x.expected = k := by
    unfold Entry.expected
    rw [hop]
    exact hk
  have hbuf : q.job.readBuffer = some buf := by rw [hj]; rfl
  have hgood := h.onlyOk hq hh ho ⟨h0, hw.trans hexp.symm⟩
  unfold State.jobRec at hgood
  rw [Station.controlled_other (by rw [hop]; decide), State.presentData_buffer hbuf, hoff, Nat.mul_zero,
    show buf + BitVec.ofNat 64 0 = buf from BitVec.add_zero buf, hj, Entry.recordWords_ok hop] at hgood
  exact hgood

theorem Response.otherOk (hq : (s.station n).queue = q :: qs)
    (hh : (s.station n).head = .access ⟨[], 1, none, [], 0⟩) (ho : x.owner = .job q.jid q.hostRef) (hnone : q.job.readBuffer = none)
    (hop : x.op ≠ .read) (h0 : status = 0) (hw : words = []) {value : Nat} {run : BoardRun}
    (hval : accessValue q.job (AccessExec.took ⟨[], 1, none, [], 0⟩ x s.elapsed) = value)
    (hrun : run = if x.op ≠ .control then (s.station n).au.boardRun else (s.station n).au.boardRun.afterControl x.addr.toNat) :
    exec (.responsePacket c) s = .next
      (((s.putLogged n { (s.station n).responded corrected s.elapsed x with
          head := .waiting, queue := qs
          au := { (s.station n).au with
            entries := (s.station n).au.entries.filter fun y => y.tag != x.tag, boardRun := run } }
        (s.accessRec x .ok q.hostRef (if x.op = .write then x.kept else []) corrected)).recordResult n q.jid (Res.okv value)).offerFreed n) := by
  have hexp : x.expected = 0 := by
    unfold Entry.expected
    cases hx' : x.op with
    | read => exact absurd hx' hop
    | _ => rfl
  have hctl : ({ (s.station n).responded corrected s.elapsed x with head := .waiting, queue := qs } : Station).controlled x .ok
      = { (s.station n).responded corrected s.elapsed x with
          head := .waiting, queue := qs
          au := { (s.station n).au with
            entries := (s.station n).au.entries.filter fun y => y.tag != x.tag, boardRun := run } } := by
    unfold Station.controlled
    rw [hrun]
    by_cases hc : x.op = .control
    · rw [if_pos ⟨hc, rfl⟩, if_neg (not_not.mpr hc)]
      rfl
    · rw [if_neg fun h => hc h.1, if_pos hc]
      rfl
  have hgood := h.onlyOk hq hh ho ⟨h0, by rw [hw, hexp]; rfl⟩
  unfold State.jobRec at hgood
  rw [hval, hctl, State.presentData_none hnone, Entry.recordWords_other (.inl hop)] at hgood
  exact hgood

end

end Sys2Proof.Machine
end

section
/-! Responses to BLOCK READs and trigger HALTs (R72 to R74, R80, R81). -/

namespace Sys2Proof.Machine

/-- The station at a response to a BLOCK READ's request, its head and queue then `h` and `qs`. -/
def Station.respondedWith (t : Station) (corrected : Bool) (now : Nat) (x : Entry) (h : Head) (qs : List QJob) : Station :=
  { t.responded corrected now x with head := h, queue := qs }

theorem Station.respondedWith_of {t : Station} {corrected : Bool} {now : Nat} {x : Entry} {l : List QJob} (hq : t.queue = l) (h : Head) :
    ({ t.responded corrected now x with head := h } : Station) = t.respondedWith corrected now x h l := by
  subst hq
  rfl

theorem Station.responded_eq {t : Station} {corrected : Bool} {now : Nat} {x : Entry} {h : Head} {l : List QJob} (hh : t.head = h)
    (hq : t.queue = l) : t.responded corrected now x = t.respondedWith corrected now x h l := by
  subst hq
  subst hh
  rfl

theorem Station.controlled_read {t : Station} {x : Entry} (h : x.op = .read) (o : AccessOutcome) : t.controlled x o = t :=
  Station.controlled_other (by rw [h]; decide) o

theorem accessValue_blockRead {addr buf : Word64} {k : Nat} (a : AccessExec) : accessValue (.blockRead addr k buf) a = goodWords a.oks := rfl

theorem Entry.expected_read {x : Entry} (h : x.op = .read) : x.expected = x.count := by
  unfold Entry.expected
  rw [h]

section
variable {s : State} {c : ConnectorNo} {n : StationNo} {corrected : Bool} {status : Byte}
  {words : List Word32} {x : Entry} {q : QJob} {qs : List QJob} {addr buf : Word64} {w : Nat} {a : AccessExec}

variable (h : Response s c n corrected status words x) (hq : (s.station n).queue = q :: qs) (hj : q.job = .blockRead addr w buf)
  (hh : (s.station n).head = .access a) (ho : x.owner = .job q.jid q.hostRef) (hop : x.op = .read)
include h hq hj hh ho hop

/-- The data write of a BLOCK READ's request. -/
def State.blockData (s : State) (n : StationNo) (q : QJob) (x : Entry) (buf : Word64) (words : List Word32) : State :=
  s.presentJob ⟨.job, some n, buf + BitVec.ofNat 64 (4 * x.offset), (wordBytes words).length, some (wordBytes words), .data q.jid n⟩

omit h hq hh ho in
theorem State.jobRec_read : s.jobRec x .ok q words corrected = s.accessRec x .ok q.hostRef (words.take 8) corrected
    ∧ ∀ t : State, t.presentData n q x words = t.blockData n q x buf words := by
  refine ⟨congrArg (s.accessRec x .ok q.hostRef · corrected) (Entry.recordWords_ok hop words), fun t => ?_⟩
  exact State.presentData_buffer (by rw [hj]; rfl)

theorem Response.blockOn (hok : status = 0 ∧ words.length = x.count) (hd : a.reqs = [] ∨ a.fail ≠ none) (hfly : 1 < a.flying) :
    exec (.responsePacket c) s = .next (((s.putLogged n ((s.station n).respondedWith corrected s.elapsed x
      (.access (a.took x s.elapsed)) (q :: qs)) (s.accessRec x .ok q.hostRef (words.take 8) corrected)).blockData n q x buf words).offerFreed n) := by
  obtain ⟨hrec, hdata⟩ := State.jobRec_read (s := s) (n := n) (words := words) (corrected := corrected) hj hop
  have hon := State.completes_okOn (h.ok (by rw [Entry.expected_read hop]; exact hok)) hh hq ho hfly hd
  rw [hrec, hdata, Station.controlled_read hop, Station.respondedWith_of hq] at hon
  exact h.runs.trans (congrArg Host.Outcome.next hon)

theorem Response.blockEnds (hok : status = 0 ∧ words.length = x.count) (hd : a.reqs = [] ∨ a.fail ≠ none) (hfly : a.flying = 1) :
    exec (.responsePacket c) s = .next ((((s.putLogged n ((s.station n).respondedWith corrected s.elapsed x .waiting qs)
      (s.accessRec x .ok q.hostRef (words.take 8) corrected)).blockData n q x buf words).recordResult n q.jid
      (Res.ofOutcome (a.fail.getD .ok) (goodWords (a.oks ++ [(x.offset, x.count)])))).offerFreed n) := by
  obtain ⟨hrec, hdata⟩ := State.jobRec_read (s := s) (n := n) (words := words) (corrected := corrected) hj hop
  have hon := State.completes_okEnds (h.ok (by rw [Entry.expected_read hop]; exact hok)) hh hq ho hfly hd
  rw [hrec, hdata, Station.controlled_read hop, hj, accessValue_blockRead] at hon
  exact h.runs.trans (congrArg Host.Outcome.next hon)

/-- With the table full before, the job's next request is offered the freed entry. -/
theorem Response.blockOffers (hok : status = 0 ∧ words.length = x.count) (hd : a.reqs ≠ [] ∧ a.fail = none)
    (h3 : ((s.station n).au.entries.filter fun y => y.tag != x.tag).length = 3) :
    exec (.responsePacket c) s = .next (((s.putLogged n ((s.station n).respondedWith corrected s.elapsed x
      (.access (a.took x s.elapsed)) (q :: qs)) (s.accessRec x .ok q.hostRef (words.take 8) corrected)).presentData n q x words).offerFreed n) := by
  obtain ⟨hrec, -⟩ := State.jobRec_read (s := s) (n := n) (words := words) (corrected := corrected) hj hop
  have hon := State.completes_okNext (h.ok (by rw [Entry.expected_read hop]; exact hok)) hh hq ho hd h3
  rw [hrec, Station.controlled_read hop, Station.respondedWith_of hq] at hon
  exact h.runs.trans (congrArg Host.Outcome.next hon)

theorem Response.blockNext {r : ReqSpec} {rest : List ReqSpec} (hok : status = 0 ∧ words.length = x.count) (hf : a.fail = none)
    (hr : a.reqs = r :: rest) (hup : (s.station n).lp.up = true)
    (h3 : ((s.station n).au.entries.filter fun y => y.tag != x.tag).length = 3) (hholder : (s.station n).au.holder = false) :
    exec (.responsePacket c) s = .next ((s.putLogged n
      (((s.station n).respondedWith corrected s.elapsed x .waiting (q :: qs)).goesOn s.elapsed q r
        { a.took x s.elapsed with reqs := rest, flying := a.flying - 1 + 1 })
      (s.accessRec x .ok q.hostRef (words.take 8) corrected)).blockData n q x buf words) := by
  obtain ⟨-, hdata⟩ := State.jobRec_read (s := s) (n := n) (words := words) (corrected := corrected) hj hop
  have hoffers := h.blockOffers hq hj hh ho hop hok ⟨by rw [hr]; exact nofun, hf⟩ h3
  obtain ⟨reqs, flying, fail, oks, ticks⟩ := a
  obtain rfl : reqs = r :: rest := hr
  obtain rfl : fail = none := hf
  have hfreed := State.offerFreed_goesOn (s := s) (n := n) (x := x) (ws := words)
    (w := (s.station n).respondedWith corrected s.elapsed x
      (.access (AccessExec.took ⟨r :: rest, flying, none, oks, ticks⟩ x s.elapsed)) (q :: qs))
    (rec' := s.accessRec x .ok q.hostRef (words.take 8) corrected) hup h3 hholder rfl rfl
  rw [hfreed, hdata] at hoffers
  exact hoffers

theorem Response.blockHalt {r : ReqSpec} {rest : List ReqSpec} (hok : status = 0 ∧ words.length = x.count) (hf : a.fail = none)
    (hr : a.reqs = r :: rest) (hup : (s.station n).lp.up = true)
    (h3 : ((s.station n).au.entries.filter fun y => y.tag != x.tag).length = 3) (hholder : (s.station n).au.holder = true) :
    exec (.responsePacket c) s = .next ((s.putLogged n
      (((s.station n).respondedWith corrected s.elapsed x (.access (a.took x s.elapsed)) (q :: qs)).haltIssued s.elapsed)
      (s.accessRec x .ok q.hostRef (words.take 8) corrected)).blockData n q x buf words) := by
  obtain ⟨-, hdata⟩ := State.jobRec_read (s := s) (n := n) (words := words) (corrected := corrected) hj hop
  have hoffers := h.blockOffers hq hj hh ho hop hok ⟨by rw [hr]; exact nofun, hf⟩ h3
  rw [State.offerFreed_halt (w := (s.station n).respondedWith corrected s.elapsed x (.access (a.took x s.elapsed)) (q :: qs))
    hup h3 hholder, hdata] at hoffers
  exact hoffers

/-- The state once the failure of a BLOCK READ's request is told. -/
def State.blockFailed (s : State) (n : StationNo) (q : QJob) (qs : List QJob) (x : Entry) (a : AccessExec) (status : Byte) (corrected : Bool) :
    State :=
  (s.putLogged n ((s.station n).respondedWith corrected s.elapsed x (.access a) (q :: qs))
    (s.accessRec x (.boardError (badSub status)) q.hostRef [] corrected)).reportAt n .accessError

omit h hj ho in
theorem State.blockFailed_eq : (s.putLogged n ((s.station n).responded corrected s.elapsed x)
    (s.jobRec x (.boardError (badSub status)) q [] corrected)).reportAt n .accessError = s.blockFailed n q qs x a status corrected := by
  have hrec : s.jobRec x (.boardError (badSub status)) q [] corrected = s.accessRec x (.boardError (badSub status)) q.hostRef [] corrected := by
    unfold State.jobRec
    rw [Entry.recordWords_other (o := .boardError (badSub status)) (.inr nofun), if_neg (by rw [hop]; decide)]
  rw [hrec, Station.responded_eq hh hq]
  rfl

omit hj in
theorem Response.blockFailsOn (hno : ¬ (status = 0 ∧ words.length = x.count)) (hfly : 1 < a.flying) :
    exec (.responsePacket c) s = .next (((s.blockFailed n q qs x a status corrected).put n
      { (s.blockFailed n q qs x a status corrected).station n with
        head := .access (a.failed (.boardError (badSub status))) } (s.blockFailed n q qs x a status corrected).attention).offerFreed n) := by
  have hon := State.completes_failOn (h.bad (by rw [Entry.expected_read hop]; exact hno)) hh hq ho nofun hfly
  rw [State.blockFailed_eq hq hh hop] at hon
  exact h.runs.trans (congrArg Host.Outcome.next hon)

theorem Response.blockFailsEnd (hno : ¬ (status = 0 ∧ words.length = x.count)) (hfly : a.flying = 1) :
    exec (.responsePacket c) s = .next (((s.blockFailed n q qs x a status corrected).endAt n q.jid
      (Res.ofOutcome (a.fail.getD (.boardError (badSub status))) (goodWords a.oks))).offerFreed n) := by
  have hon := State.completes_failEnds (h.bad (by rw [Entry.expected_read hop]; exact hno)) hh hq ho nofun hfly
  rw [State.blockFailed_eq hq hh hop, hj, accessValue_blockRead] at hon
  exact h.runs.trans (congrArg Host.Outcome.next hon)

end

end Sys2Proof.Machine
end

section
/-! Completions of a trigger's HALT (R72, R73; R32 with log 27). -/

namespace Sys2Proof.Machine

theorem Station.issuesOne_freed {t : Station} {x : Entry} (h : t.issuesOne) (hx : x ∈ t.au.entries) :
    t.spent ∨ 3 ≤ (t.au.entries.filter fun y => y.tag != x.tag).length := by
  unfold Station.issuesOne at h
  split at h
  case h_1 a hh =>
    rcases h with hnil | hfail | ⟨h4, hb⟩
    · exact .inl fun b hb => .inl (Head.access.inj (hh.symm.trans hb) ▸ hnil)
    · exact .inl fun b hb => .inr (Head.access.inj (hh.symm.trans hb) ▸ hfail)
    · exact .inr (AccessUnit.freed_length hb h4 hx).ge
  case h_2 hno => exact .inl fun b hb => absurd hb (hno b)

theorem entries_alone {l : List Entry} {x : Entry} (h : l = [x]) : l.filter (fun y => y.tag != x.tag) = [] := by
  rw [h, List.filter_cons_of_neg (by rw [bne_self_eq_false]; decide)]
  rfl

section
variable {s : State} {n : StationNo} {t : Station} {x : Entry} {o : AccessOutcome} {ws : List Word32} {corrected : Bool}

/-- A trigger's entry that failed is told. -/
theorem State.told_trigger_failed (hx : x.owner = .trigger) (ho : o ≠ .ok) : s.told n t x o ws corrected
    = (s.putLogged n t (s.accessRec x o 0 (if x.op = .write then x.kept else []) corrected)).reportAt n .accessError := by
  rw [State.told_failed ho, Entry.recordWords_other (.inr ho), hx]
  rfl

theorem State.told_halt_ok (hx : x.owner = .trigger) (hop : x.op = .control) (haddr : x.addr.toNat = 1) :
    s.told n t x .ok ws corrected
      = s.putLogged n { t with au := { t.au with boardRun := .halted } } (s.accessRec x .ok 0 [] corrected) := by
  have hctl : t.controlled x .ok = { t with au := { t.au with boardRun := .halted } } := by
    unfold Station.controlled
    rw [if_pos ⟨hop, rfl⟩, haddr]
    rfl
  rw [State.told_ok, hctl, Entry.recordWords_other (.inl (by rw [hop]; decide)), if_neg (by rw [hop]; decide), hx]
  rfl

end

section
variable {s : State} {c : ConnectorNo} {n : StationNo} {corrected : Bool} {status : Byte} {words : List Word32} {x : Entry}

/-- A trigger's HALT told to CAP and TS at its response, the head then `h`. -/
def State.haltTold (s : State) (n : StationNo) (x : Entry) (corrected : Bool) (status : Byte) (words : List Word32) (h : Head) : State :=
  let ok := status = 0 ∧ words = []
  let u := (s.station n).responded corrected s.elapsed x
  let ended := s.putLogged n { u with head := h, au := { u.au with boardRun := if ok then .halted else (s.station n).au.boardRun } }
    (s.accessRec x (if ok then .ok else .boardError (badSub status)) 0 [] corrected)
  if ok then ended else ended.reportAt n .accessError

variable (h : Response s c n corrected status words x) (ho : x.owner = .trigger) (hop : x.op = .control) (haddr : x.addr.toNat = 1)
include h ho hop haddr

theorem Response.haltCompletes : ∃ o ws, s.completesAt n endResponse ((s.station n).responded corrected s.elapsed x) x o ws corrected
    ∧ ∀ hd, s.told n { (s.station n).responded corrected s.elapsed x with head := hd } x o ws corrected
      = s.haltTold n x corrected status words hd := by
  have hexp : x.expected = 0 := by
    unfold Entry.expected
    rw [hop]
  have hiff : (status = 0 ∧ words.length = x.expected) ↔ status = 0 ∧ words = [] := by
    rw [hexp, List.length_eq_zero_iff]
  by_cases hok : status = 0 ∧ words = []
  · refine ⟨.ok, words, h.ok (hiff.mpr hok), fun hd => (State.told_halt_ok ho hop haddr).trans ?_⟩
    unfold State.haltTold
    rw [if_pos hok, if_pos hok, if_pos hok]
  · refine ⟨.boardError (badSub status), [], h.bad fun hno => hok (hiff.mp hno), fun hd => (State.told_trigger_failed (o := .boardError (badSub status)) ho nofun).trans ?_⟩
    unfold State.haltTold
    rw [if_neg hok, if_neg hok, if_neg hok, if_neg (by rw [hop]; decide)]
    rfl

theorem Response.haltEnds (hp : (s.station n).head ≠ .parkWait) (hone : (s.station n).issuesOne) (hx : x ∈ (s.station n).au.entries) :
    exec (.responsePacket c) s = .next ((s.haltTold n x corrected status words (s.station n).head).offerFreed n) := by
  obtain ⟨o, ws, hat, htold⟩ := h.haltCompletes ho hop haddr
  have hends := State.completes_trigger hat ho hp (Station.issuesOne_freed hone hx)
  rw [← htold]
  exact h.runs.trans (congrArg Host.Outcome.next hends)

theorem Response.haltParks {q : QJob} {qs : List QJob} (hp : (s.station n).head = .parkWait) (hholder : (s.station n).au.holder = false)
    (halone : (s.station n).au.entries = [x]) (hq : (s.station n).queue = q :: qs) (hj : q.job = .park)
    (hs : (s.station n).state = .ready ∨ ((s.station n).state = .quiescing
      ∧ ((s.haltTold n x corrected status words .waiting).station n).au.entries = [])) :
    exec (.responsePacket c) s = exec (.park n) (s.haltTold n x corrected status words .waiting) := by
  obtain ⟨o, ws, hat, htold⟩ := h.haltCompletes ho hop haddr
  exact h.runs.trans (State.completes_park hat ho hp hholder (entries_alone halone) hq hj (htold .waiting) hs)

end

end Sys2Proof.Machine
end

section
/-! Response timeouts and the end of a tag's retirement (R70, R72). -/

namespace Sys2Proof.Machine

theorem accessValue_fails (j : Job) {a : AccessExec} (hf : a.fail ≠ none) : accessValue j a = match j with
    | .blockRead _ _ _ => goodWords a.oks
    | _ => 0 := by
  cases j with
  | blockRead addr k buf => rfl
  | _ => exact accessValue_failed nofun hf

section
variable {s : State} {n : StationNo} {tag : Fin 64} {x : Entry} {i : Nat} {q : QJob} {qs : List QJob} {a : AccessExec}

/-- The earliest of eight retired tags, the one that leaves when a ninth joins (R70). -/
def AccessUnit.leaves (a : AccessUnit) (i : Nat) : Prop :=
  a.retired.length < 8 ∨ ∃ r, a.retired[i]? = some r ∧ ∀ j y, a.retired[j]? = some y → r.expiry ≤ y.expiry ∧ (y.expiry = r.expiry → i ≤ j)

/-- The state once the timeout of entry `x` is told, the head then `h` and the queue `l`. -/
def State.timeoutTold (s : State) (n : StationNo) (tag : Fin 64) (x : Entry) (i : Nat) (h : Head) (l : List QJob) (host : Word64) :
    State :=
  (s.putLogged n { (s.station n).timedOut s.elapsed tag i with head := h, queue := l }
    (s.accessRec x .timeout host (if x.op = .write then x.kept else []) false)).reportAt n .accessError

theorem State.timeoutTold_self (host : Word64) : (s.putLogged n ((s.station n).timedOut s.elapsed tag i)
    (s.accessRec x .timeout host (if x.op = .write then x.kept else []) false)).reportAt n .accessError
    = s.timeoutTold n tag x i (s.station n).head (s.station n).queue host := rfl

theorem State.jobRec_timeout : s.jobRec x .timeout q [] false
    = s.accessRec x .timeout q.hostRef (if x.op = .write then x.kept else []) false :=
  congrArg (s.accessRec x .timeout q.hostRef · false) (Entry.recordWords_other (o := .timeout) (.inr nofun) [])

/-- The timer of an entry has not run out. -/
theorem timeout_early (hx : (s.station n).au.entries.find? (fun y => y.tag == tag) = some x) (h : s.elapsed < x.expiry)
    (hp : (s.station n).head ≠ .parkWait) : exec (.responseTimeoutExpiry n tag) s = .next s := by
  have hsame : s.withStation n (fun e => takeTimeout e tag) = s :=
    State.withStation_same (takeTimeout_early (c := ⟨s.station n, s.attention, []⟩) hx h)
  refine exec_responseTimeoutExpiry.trans (congrArg Host.Outcome.next ((State.withStation_noPark ?_).trans hsame))
  rwa [hsame]

variable (hx : (s.station n).au.entries.find? (fun y => y.tag == tag) = some x) (hdue : x.expiry ≤ s.elapsed)
  (hi : (s.station n).au.leaves i)
include hx hdue hi

theorem timeout_trigger (ho : x.owner = .trigger) (hp : (s.station n).head ≠ .parkWait) (hone : (s.station n).issuesOne) :
    exec (.responseTimeoutExpiry n tag) s = .next ((s.timeoutTold n tag x i (s.station n).head (s.station n).queue 0).offerFreed n) := by
  have htag : x.tag = tag := beq_iff_eq.mp (List.find?_some (p := fun y : Entry => y.tag == tag) hx)
  have hfreed := Station.issuesOne_freed hone (List.mem_of_find?_eq_some hx)
  rw [htag] at hfreed
  have hends := State.completes_trigger (timeout_completesAt hx hdue hi) ho hp hfreed
  rw [State.told_trigger_failed (o := .timeout) ho nofun, State.timeoutTold_self] at hends
  exact exec_responseTimeoutExpiry.trans (congrArg Host.Outcome.next hends)

theorem timeout_parks (ho : x.owner = .trigger) (hp : (s.station n).head = .parkWait) (hholder : (s.station n).au.holder = false)
    (halone : (s.station n).au.entries = [x]) (hq : (s.station n).queue = q :: qs) (hj : q.job = .park)
    (hs : (s.station n).state = .ready ∨ ((s.station n).state = .quiescing
      ∧ ((s.timeoutTold n tag x i .waiting (q :: qs) 0).station n).au.entries = [])) :
    exec (.responseTimeoutExpiry n tag) s = exec (.park n) (s.timeoutTold n tag x i .waiting (q :: qs) 0) := by
  have htag : x.tag = tag := beq_iff_eq.mp (List.find?_some (p := fun y : Entry => y.tag == tag) hx)
  have hempty := entries_alone halone
  rw [htag] at hempty
  exact exec_responseTimeoutExpiry.trans (State.completes_park (timeout_completesAt hx hdue hi) ho hp hholder hempty hq hj
    ((State.told_trigger_failed (o := .timeout) ho nofun).trans (by rw [← hq]; rfl)) hs)

variable (hq : (s.station n).queue = q :: qs) (hh : (s.station n).head = .access a) (ho : x.owner = .job q.jid q.hostRef)
include hq hh ho

theorem timeout_ends (hfly : a.flying = 1) : exec (.responseTimeoutExpiry n tag) s = .next
    (((s.timeoutTold n tag x i (.access a) (q :: qs) q.hostRef).endAt n q.jid (Res.ofOutcome (a.fail.getD .timeout) (match q.job with
      | .blockRead _ _ _ => goodWords a.oks
      | _ => 0))).offerFreed n) := by
  have hends := State.completes_failEnds (timeout_completesAt hx hdue hi) hh hq ho nofun hfly
  rw [State.jobRec_timeout, State.timeoutTold_self, hh, hq, accessValue_fails _ (Option.some_ne_none _)] at hends
  exact exec_responseTimeoutExpiry.trans (congrArg Host.Outcome.next hends)

theorem timeout_goesOn (hfly : 1 < a.flying) : exec (.responseTimeoutExpiry n tag) s = .next
    (((s.timeoutTold n tag x i (.access a) (q :: qs) q.hostRef).put n { (s.timeoutTold n tag x i (.access a) (q :: qs) q.hostRef).station n with
      head := .access (a.failed .timeout) } (s.timeoutTold n tag x i (.access a) (q :: qs) q.hostRef).attention).offerFreed n) := by
  have hends := State.completes_failOn (timeout_completesAt hx hdue hi) hh hq ho nofun hfly
  rw [State.jobRec_timeout, State.timeoutTold_self, hh, hq] at hends
  exact exec_responseTimeoutExpiry.trans (congrArg Host.Outcome.next hends)

end

/-! ## The end of a retirement (R70) -/

theorem AccessUnit.retired_unique {a : AccessUnit} (hb : a.bounded) {r y : RetiredTag} (hr : r ∈ a.retired) (hy : y ∈ a.retired)
    (h : y.tag = r.tag) : y = r := by
  obtain ⟨-, -, hn⟩ := hb
  exact List.inj_on_of_nodup_map (List.nodup_append.mp hn).2.1 hy hr h

section
variable {s : State} {n : StationNo} {r : RetiredTag} (hb : (s.station n).au.bounded) (hr : r ∈ (s.station n).au.retired)
include hb hr

theorem exec_retireExpiry_early (h : s.elapsed < r.expiry) : exec (.retireExpiry n r.tag) s = .next s := by
  refine congrArg Host.Outcome.next (State.withStation_same ?_)
  have hall : (s.station n).au.retired.filter (fun y => !(y.tag == r.tag && due (some y.expiry) s.elapsed))
      = (s.station n).au.retired := by
    refine List.filter_eq_self.mpr fun y hy => (Bool.not_eq_true' _).mpr (Bool.and_eq_false_imp.mpr fun ht => decide_eq_false ?_)
    rw [AccessUnit.retired_unique hb hr hy (beq_iff_eq.mp ht)]
    exact Nat.not_le.mpr h
  exact congrArg (fun l => Ctx.mk { s.station n with au := { (s.station n).au with retired := l } } s.attention []) hall

theorem exec_retireExpiry_due (h : r.expiry ≤ s.elapsed) : exec (.retireExpiry n r.tag) s = .next (s.put n
    { s.station n with au := { (s.station n).au with
        retired := (s.station n).au.retired.filter fun y => y.tag != r.tag } } s.attention) := by
  refine congrArg Host.Outcome.next (State.withStation_quiet ?_)
  have hall : (s.station n).au.retired.filter (fun y => !(y.tag == r.tag && due (some y.expiry) s.elapsed))
      = (s.station n).au.retired.filter fun y => y.tag != r.tag := by
    refine List.filter_congr fun y hy => ?_
    by_cases ht : y.tag = r.tag
    · have hdue : due (some y.expiry) s.elapsed = true := by
        rw [AccessUnit.retired_unique hb hr hy ht]
        exact decide_eq_true h
      rw [hdue, Bool.and_true]
      rfl
    · rw [beq_eq_false_iff_ne.mpr ht, bne_iff_ne.mpr ht]
      rfl
  exact congrArg (fun l => Ctx.mk { s.station n with au := { (s.station n).au with retired := l } } s.attention []) hall

end

end Sys2Proof.Machine
end

section
/-! Responses and timeouts (R68 to R75, R77 to R81). -/

namespace Sys2Proof.Machine

theorem exec_response_stray {s : State} {c : ConnectorNo} {n : StationNo} {p : PacketBuf} {corrected : Bool} {tag : Nat}
    {status : Byte} {words : List Word32} (hc : s.stationOf c = some n) (hup : (s.station n).lp.up = true)
    (hp : (s.station n).lp.packet = some p) (hv : packetVerdict p = ⟨corrected, .inr (.response tag status words)⟩)
    (hh : (s.station n).head ≠ .parkWait) (hnone : ∀ y ∈ (s.station n).au.entries, y.tag.val ≠ tag) :
    exec (.responsePacket c) s = .next (s.put n { s.station n with lp := { (s.station n).packetEnds corrected s.elapsed with
      health := if (s.station n).au.retired.any (fun r => r.tag.val == tag)
        then ((s.station n).packetEnds corrected s.elapsed).health.lateResponse
        else ((s.station n).packetEnds corrected s.elapsed).health.unmatchedResponse } } s.attention) := by
  obtain ⟨hexec, hresp⟩ := exec_responsePacket hc hup hp hv
  have hquiet : s.withStation n endResponse = _ := State.withStation_quiet
    (u := { s.station n with lp := { (s.station n).packetEnds corrected s.elapsed with
      health := if (s.station n).au.retired.any (fun r => r.tag.val == tag)
        then ((s.station n).packetEnds corrected s.elapsed).health.lateResponse
        else ((s.station n).packetEnds corrected s.elapsed).health.unmatchedResponse } }) (a := s.attention)
    (hresp.trans ((takeResponse_stray (c := ⟨{ s.station n with lp := (s.station n).packetEnds corrected s.elapsed }, s.attention, []⟩)
      hnone).trans (by split_ifs <;> rfl)))
  refine hexec.trans (congrArg Host.Outcome.next ((State.withStation_noPark ?_).trans hquiet))
  rw [hquiet, State.put_station]
  exact hh

section
variable {s : State} {c : ConnectorNo} {n : StationNo} {p : PacketBuf} {corrected : Bool} {tag : Nat}
    {status : Byte} {words : List Word32} (hc : s.stationOf c = some n) (hup : (s.station n).lp.up = true)
    (hp : (s.station n).lp.packet = some p) (hv : packetVerdict p = ⟨corrected, .inr (.response tag status words)⟩)
    (hh : (s.station n).head ≠ .parkWait) (hnone : ∀ y ∈ (s.station n).au.entries, y.tag.val ≠ tag)
include hc hup hp hv hh hnone

theorem exec_response_late (h : ∃ r ∈ (s.station n).au.retired, r.tag.val = tag) :
    exec (.responsePacket c) s = .next (s.put n { s.station n with lp := { (s.station n).packetEnds corrected s.elapsed with
      health := ((s.station n).packetEnds corrected s.elapsed).health.lateResponse } } s.attention) := by
  obtain ⟨r, hr, htag⟩ := h
  have hany : (s.station n).au.retired.any (fun r => r.tag.val == tag) = true := List.any_eq_true.mpr ⟨r, hr, beq_iff_eq.mpr htag⟩
  rw [exec_response_stray hc hup hp hv hh hnone, if_pos hany]

theorem exec_response_unmatched (h : ∀ r ∈ (s.station n).au.retired, r.tag.val ≠ tag) :
    exec (.responsePacket c) s = .next (s.put n { s.station n with lp := { (s.station n).packetEnds corrected s.elapsed with
      health := ((s.station n).packetEnds corrected s.elapsed).health.unmatchedResponse } } s.attention) := by
  have hnot : ¬ (s.station n).au.retired.any (fun r => r.tag.val == tag) = true := fun hany => by
    obtain ⟨r, hr, htag⟩ := List.any_eq_true.mp hany
    exact h r hr (beq_iff_eq.mp htag)
  rw [exec_response_stray hc hup hp hv hh hnone, if_neg hnot]

end

end Sys2Proof.Machine
end

section
/-! O43 (R68 to R75, R77 to R81). -/

namespace Sys2Proof.Machine

theorem Response.iff_length {words : List Word32} {status : Byte} {k : Nat} (h : status ≠ 0 ∨ words.length ≠ k) :
    ¬ (status = 0 ∧ words.length = k) := fun ⟨h0, hk⟩ => h.elim (fun h => h h0) fun h => h hk

theorem Entry.expected_other {x : Entry} (h : x.op ≠ .read) : x.expected = 0 := by
  unfold Entry.expected
  cases hx : x.op with
  | read => exact absurd hx h
  | _ => rfl

theorem accessValue_other (j : Job) (a : AccessExec) : a.fail = none → j.readBuffer = none → accessValue j a = match j with
    | .writeInline _ k _ | .writeBuffer _ k _ => k
    | .ping => a.ticks
    | _ => 0 := by
  intro hf hnone
  unfold accessValue
  rw [hf]
  cases j with
  | read => cases hnone
  | blockRead => cases hnone
  | _ => rfl

theorem afterControl_eq (x : Entry) (b : BoardRun) :
    (if x.op ≠ .control then b else if x.addr.toNat = 1 ∨ x.addr.toNat = 3 then .halted
      else if x.addr.toNat = 2 then .running else b)
    = if x.op ≠ .control then b else b.afterControl x.addr.toNat := by
  unfold BoardRun.afterControl
  rfl

/-- Settles O43: a response or timeout is one completion, told to CAP and TS, then to its owner, and the freed entry is offered. -/
theorem responsesAndTimeoutsCompleteEntries : Obligations.ResponsesAndTimeoutsCompleteEntries := by
  refine ⟨fun s c n p corrected tag status words hc hup hp hv => ?_, fun s n tag x hx => ?_, fun s n r hb hr => ?_,
    fun w r m oks hr hform hin hstop => goodWords_eq hr hform hin hstop⟩
  · intro t l unsent freed bad badEnd
    refine ⟨fun hh hnone => ?_, fun x q qs hx hq hh ho => ?_, fun x q qs addr buf w a hx hq hj hh ho hop => ?_, fun x hx ho hop haddr => ?_⟩
    · exact ⟨exec_response_late hc hup hp hv hh hnone, exec_response_unmatched hc hup hp hv hh hnone⟩
    · have h := Response.of hc hup hp hv hx
      have hbad : badEnd = Res.ofOutcome (.boardError (badSub status)) 0 := badEnd_eq status
      rw [hbad]
      refine ⟨fun addr buf k hj hop hk hoff => ⟨fun h0 hw => h.readOk hq hh ho hj hop hk hoff h0 hw, fun hno => ?_⟩,
        fun hacc hnone hop => ⟨fun h0 hw => ?_, fun hno => ?_⟩⟩
      · have hexp : x.expected = k := (Entry.expected_read hop).trans hk
        have hends := h.onlyBad hq hh ho (by rw [hexp]; exact Response.iff_length hno) (by rw [hj]; exact nofun)
        rw [if_neg (by rw [hop]; decide)] at hends
        exact hends
      · exact h.otherOk hq hh ho hnone hop h0 hw (accessValue_other _ _ rfl hnone) (afterControl_eq ..)
      · refine h.onlyBad hq hh ho (fun hok => ?_) fun addr k buf hj => by rw [hj] at hnone; cases hnone
        rw [Entry.expected_other hop, List.length_eq_zero_iff] at hok
        exact hno.elim (fun h => h hok.1) fun h => h hok.2
    · have h := Response.of hc hup hp hv hx
      have hfilter := fun h4 hb => AccessUnit.freed_length hb h4 (List.mem_of_find?_eq_some hx)
      refine ⟨fun hok hd => ⟨h.blockOn hq hj hh ho hop hok hd, h.blockEnds hq hj hh ho hop hok hd⟩,
        fun r rest hok hf hr h4 hb hholder => h.blockNext hq hj hh ho hop hok hf hr hup (hfilter h4 hb) hholder,
        fun r rest hok hf hr h4 hb hholder => h.blockHalt hq hj hh ho hop hok hf hr hup (hfilter h4 hb) hholder,
        fun hno => ⟨h.blockFailsOn hq hh ho hop hno, h.blockFailsEnd hq hj hh ho hop hno⟩⟩
    · have h := Response.of hc hup hp hv hx
      exact ⟨fun hp hone => h.haltEnds ho hop haddr hp hone (List.mem_of_find?_eq_some hx),
        fun q qs hp hholder halone hq hj hs => h.haltParks ho hop haddr hp hholder halone hq hj hs⟩
  · intro t early u rec'
    refine ⟨timeout_early hx, fun i hdue hi => ⟨fun hp ho hone => timeout_trigger hx hdue hi ho hp hone, fun q qs hq =>
      ⟨fun a hh ho => ⟨fun hfly _ => timeout_ends hx hdue hi hq hh ho hfly, timeout_goesOn hx hdue hi hq hh ho⟩,
        fun hp hholder halone hj ho hs => timeout_parks hx hdue hi ho hp hholder halone hq hj hs⟩⟩⟩
  · exact ⟨exec_retireExpiry_early hb hr, exec_retireExpiry_due hb hr⟩

end Sys2Proof.Machine
end

section
/-! Link losses: work at a station whose link is DOWN (R44, R82). -/

namespace Sys2Proof.Machine

/-! ## What with the link DOWN leaves LP and AU alone -/

/-- LP and AU together. -/
def Station.linkSide (t : Station) : LinkPort × AccessUnit := (t.lp, t.au)

theorem capOut_linkSide (c : Ctx) (o : CapOut) : (c.capOut o).st.linkSide = c.st.linkSide := by
  rw [Ctx.capOut_eq]
  exact congrArg₂ Prod.mk (Station.take_lp ..) (Station.take_au ..)

theorem haltBoard_down (e : Env) {c : Ctx} (h : c.st.lp.up = false) : haltBoard e c = c := by
  unfold haltBoard Station.haltOutcome
  rw [h]
  rfl

theorem fire_down (e : Env) (p : Program) (i : Fin 4) (st : Step) (cause : Cause) (c : Ctx) (h : c.st.lp.up = false) :
    (fire e p i st cause c).1.st.linkSide = c.st.linkSide := by
  have h7 : ∀ acts d, (whenAct acts 7 (·.setAttn .trigger) d).st.linkSide = d.st.linkSide := fun acts d =>
    whenAct_keeps Station.linkSide (f := (·.setAttn .trigger)) (fun _ => rfl) acts 7 d
  have h6 : ∀ acts d, (whenAct acts 6 (·.mod (driveLine e p st.line)) d).st.linkSide = d.st.linkSide := fun acts d =>
    whenAct_keeps Station.linkSide (f := (·.mod (driveLine e p st.line))) (fun _ => rfl) acts 6 d
  have h5 : ∀ acts (b : Bool) d, (whenAct acts 5 (fun c => if b = true then startPulse e p.pulseWidth c else c) d).st.linkSide
      = d.st.linkSide := fun acts b d => whenAct_keeps Station.linkSide (fun c => by
    split_ifs
    · unfold startPulse offerPower
      exact capOut_linkSide ..
    · rfl) acts 5 d
  have h4 : ∀ acts d, d.st.linkSide = c.st.linkSide → (whenAct acts 4 (haltBoard e) d).st.linkSide = c.st.linkSide := fun acts d hd => by
    have hup : d.st.lp.up = false := (congrArg (fun x => x.1.up) hd).trans h
    unfold whenAct
    rw [haltBoard_down e hup, ite_self]
    exact hd
  have h3 : ∀ acts d, (whenAct acts 3 (stopCapture p.postCount) d).st.linkSide = d.st.linkSide := fun acts d =>
    whenAct_keeps Station.linkSide (fun c => capOut_linkSide c _) acts 3 d
  have hoffer : ∀ acts k r d, (whenAct acts k (offerRec e r) d).st.linkSide = d.st.linkSide := fun acts k r d =>
    whenAct_keeps Station.linkSide (fun c => capOut_linkSide c _) acts k d
  have h0 : ∀ acts d, (whenAct acts 0 (startCapture e) d).st.linkSide = d.st.linkSide := fun acts d =>
    whenAct_keeps Station.linkSide (fun c => capOut_linkSide c _) acts 0 d
  have hlast : ∀ t, (enterTarget e p (st.chosen cause).2 t).linkSide = t.linkSide := fun t => by
    unfold enterTarget
    split <;> rfl
  unfold fire
  dsimp only [Ctx.mod_st]
  rw [hlast, h7, h6, h5]
  refine h4 _ _ ?_
  rw [h3, hoffer, hoffer, h0]

theorem takeReport_down (e : Env) (x : Cond) (c : Ctx) (h : c.st.lp.up = false) : (takeReport e x c).1.st.linkSide = c.st.linkSide := by
  unfold takeReport
  split
  · split_ifs
    · exact fire_down _ _ _ _ _ _ h
    · rfl
    · rfl
  · rfl

theorem report_down (e : Env) (x : Cond) (c : Ctx) (h : c.st.lp.up = false) : (report e x c).st.linkSide = c.st.linkSide := by
  have htaken := takeReport_down e x c h
  unfold report followUp
  split
  · have hup : (takeReport e x c).1.st.lp.up = false := (congrArg (fun x => x.1.up) htaken).trans h
    exact (takeReport_down e _ _ hup).trans htaken
  · exact htaken

theorem cutLine_linkSide (e : Env) (c : Ctx) : (cutLine e c).st.linkSide = c.st.linkSide := by
  unfold cutLine
  split_ifs
  · rfl
  · rw [closeLine_eq]
    exact capOut_linkSide ..

theorem endHead_linkSide (r : Res) (c : Ctx) : (endHead r c).st.linkSide = c.st.linkSide := by
  unfold endHead
  split <;> rfl

theorem endAccess_linkSide (c : Ctx) : (endAccess c).st.linkSide = c.st.linkSide := by
  unfold endAccess
  split
  · split_ifs
    · exact endHead_linkSide ..
    · rfl
  · rfl

theorem toOwner_linkSide (e : Env) (x : Entry) (o : AccessOutcome) (ws : List Word32) (c : Ctx) :
    (toOwner e x o ws c).st.linkSide = c.st.linkSide := by
  unfold toOwner
  split
  · split_ifs
    · refine (endAccess_linkSide _).trans ?_
      rw [readData_eq]
      rfl
    · exact endAccess_linkSide _
    · rfl
  · rfl

theorem loseWaiting_linkSide (c : Ctx) : (loseWaiting c).st.linkSide = c.st.linkSide := by
  unfold loseWaiting
  split
  · exact endAccess_linkSide _
  · rfl

/-- A completion LINK DOWN with the link DOWN issues nothing. -/
theorem complete_down {e : Env} {x : Entry} {c : Ctx} (h : c.st.lp.up = false) :
    (complete e x .linkDown [] false c).st.linkSide = c.st.linkSide := by
  have hctl : controlDone x .linkDown c = c := if_neg fun h => nomatch h.2
  have hlogged : ∀ r, (if c.st.prof.accessLogging then offerRec e r c else c).st.linkSide = c.st.linkSide := fun r => by
    split_ifs
    · exact capOut_linkSide ..
    · rfl
  have hdone : (toOwner e x .linkDown [] (completed e x .linkDown [] false c)).st.linkSide = c.st.linkSide := by
    rw [toOwner_linkSide]
    unfold completed
    dsimp only
    rw [hctl, if_neg nofun, report_down _ _ _ ((congrArg (fun x => x.1.up) (hlogged _)).trans h)]
    exact hlogged _
  have hup : (toOwner e x .linkDown [] (completed e x .linkDown [] false c)).st.lp.up = false :=
    (congrArg (fun x => x.1.up) hdone).trans h
  rw [complete_eq, Ctx.mod_st, offerEntries_down hup]
  exact hdone

/-- Every entry of a list completes LINK DOWN with the link DOWN: none of their tags is left. -/
theorem completeDown_down {e : Env} (l : List Entry) (c : Ctx) (h : c.st.lp.up = false) :
    (completeDown e c l).st.linkSide = (c.st.freed l).linkSide := by
  induction l generalizing c with
  | nil => rw [Station.freed_nil]; rfl
  | cons x xs ih =>
    have hside : (complete e x .linkDown [] false (c.freeEntry x.tag)).st.linkSide = (c.freeEntry x.tag).st.linkSide :=
      complete_down h
    have hup := (congrArg (fun x => x.1.up) hside).trans (show (c.freeEntry x.tag).st.lp.up = false from h)
    have hfreed : ∀ t u : Station, t.linkSide = u.linkSide → (t.freed xs).linkSide = (u.freed xs).linkSide := fun t u htu => by
      unfold Station.freed Station.linkSide
      dsimp only
      rw [show t.lp = u.lp from congrArg Prod.fst htu, show t.au = u.au from congrArg Prod.snd htu]
    unfold completeDown
    rw [ih _ hup, hfreed _ _ hside]
    exact congrArg Station.linkSide (Station.freed_cons ..)

end Sys2Proof.Machine
end

section
/-! The station at a link loss (R44, R82). -/

namespace Sys2Proof.Machine

/-- LP at a link loss: a packet in progress is discarded with FRAMING, nothing is sent or waits (R44). -/
def Station.linkDownLp (t : Station) (now : Nat) : LinkPort :=
  { t.lp with
    up := false, packet := none, txList := [], sending := none
    health := if t.lp.packet = none then t.lp.health else
      { t.lp.health with flags := t.lp.health.flags ||| 1, discarded := min (t.lp.health.discarded + 1) 65535 }
    quiet := if t.lp.packet = none ∨ t.state = .parked then t.lp.quiet else some (now + t.prof.healthMs * 100000) }

theorem dropPacket_down (e : Env) (c : Ctx) :
    (dropPacket e (c.modLp fun l => { l with up := false })).modLp (fun l => { l with txList := [], sending := none })
      = ⟨{ c.st with lp := c.st.linkDownLp e.now }, c.att, c.effs⟩ := by
  cases hp : c.st.lp.packet with
  | none =>
    have hlp : c.st.linkDownLp e.now = { c.st.lp with up := false, txList := [], sending := none } := by
      unfold Station.linkDownLp
      rw [if_pos hp, if_pos (.inl hp)]
      exact congrArg (fun p => { c.st.lp with up := false, packet := p, txList := [], sending := none }) hp.symm
    rw [dropPacket_none e (c := c.modLp fun l => { l with up := false }) hp, hlp]
    rfl
  | some p =>
    have hne : c.st.lp.packet ≠ none := by
      rw [hp]
      exact nofun
    have hlp : c.st.linkDownLp e.now = { c.st.lp with
        up := false, packet := none, txList := [], sending := none, health := c.st.lp.health.discard 0
        quiet := if c.st.state = .parked then c.st.lp.quiet else some (e.now + c.st.prof.healthMs * Config.ticksPerMs) } := by
      unfold Station.linkDownLp
      simp only [hne, if_false, false_or]
      rfl
    rw [dropPacket_some e (c := c.modLp fun l => { l with up := false }) hp, hlp]
    rfl

theorem linkLoss_eq (e : Env) (c : Ctx) :
    linkLoss e c = (auLinkLoss e ⟨{ c.st with lp := c.st.linkDownLp e.now }, c.att, c.effs⟩).setAttn .linkChange := by
  rw [← dropPacket_down]
  rfl

/-- The link is DOWN, nothing is sent, and AU is empty. -/
def Station.linkGone (t : Station) : Prop := t.lp.up = false ∧ t.lp.packet = none ∧ t.lp.txList = [] ∧ t.lp.sending = none
  ∧ t.au.entries = [] ∧ t.au.retired = [] ∧ t.au.holder = false ∧ t.au.boardRun = .unknown

theorem Station.linkGone_congr {t u : Station} (h : t.linkSide = u.linkSide) (hu : u.linkGone) : t.linkGone := by
  unfold Station.linkGone
  rw [show t.lp = u.lp from congrArg Prod.fst h, show t.au = u.au from congrArg Prod.snd h]
  exact hu

theorem linkLoss_gone (e : Env) (c : Ctx) : (linkLoss e c).st.linkGone
    ∧ (linkLoss e c).att.getLsbD Attn.linkChange.num = true := by
  rw [linkLoss_eq]
  constructor
  · have hup : ({ c.st with lp := c.st.linkDownLp e.now } : Station).lp.up = false := rfl
    have hside := (loseWaiting_linkSide _).trans (completeDown_down (e := e) c.st.au.entries
      ⟨{ c.st with lp := c.st.linkDownLp e.now }, c.att, c.effs⟩ hup)
    have hlp := congrArg Prod.fst hside
    have hau := congrArg Prod.snd hside
    refine ⟨(congrArg LinkPort.up hlp).trans rfl, (congrArg LinkPort.packet hlp).trans rfl, (congrArg LinkPort.txList hlp).trans rfl,
      (congrArg LinkPort.sending hlp).trans rfl, (congrArg AccessUnit.entries hau).trans ?_, rfl, rfl, rfl⟩
    exact Station.freed_all { c.st with lp := c.st.linkDownLp e.now }
  · show (_ ||| Attn.linkChange.mask).getLsbD Attn.linkChange.num = true
    rw [BitVec.getLsbD_or, show Attn.linkChange.mask.getLsbD Attn.linkChange.num = true by decide, Bool.or_true]

/-! ## PARK's check after it -/

theorem endHead_att (r : Res) (c : Ctx) : (endHead r c).att = c.att := by
  unfold endHead
  split <;> rfl

theorem cutLine_att (e : Env) (c : Ctx) : ∃ a, (cutLine e c).att = c.att ||| a := by
  unfold cutLine
  split_ifs
  · exact ⟨0, (BitVec.or_zero).symm⟩
  · rw [closeLine_eq, offerRec_eq]
    exact ⟨_, rfl⟩

theorem linkOff_down (e : Env) {c : Ctx} (h : c.st.lp.up = false) :
    linkOff e c = c.modLp fun l => { l with rxOn := false, packet := none, quiet := none } := by
  unfold linkOff signalDown
  rw [h]
  rfl

theorem parkCheck_gone (e : Env) {c : Ctx} (h : c.st.linkGone) (i : Nat) (hi : c.att.getLsbD i = true) :
    (parkCheck e c).st.linkGone ∧ (parkCheck e c).att.getLsbD i = true := by
  unfold parkCheck endPark
  split_ifs
  · obtain ⟨hup, hpacket, htx, hsend, hau⟩ := h
    rw [linkOff_down e (c := c.modBpu (·.inactivate)) hup]
    generalize hd : (c.modBpu (·.inactivate)).modLp (fun l => { l with rxOn := false, packet := none, quiet := none }) = d
    have hgone : d.st.linkGone := by
      rw [← hd]
      exact ⟨hup, rfl, htx, hsend, hau⟩
    obtain ⟨a, hatt⟩ := cutLine_att e d
    dsimp only
    refine ⟨Station.linkGone_congr (endHead_linkSide ..) (Station.linkGone_congr (u := d.st) ?_ hgone), ?_⟩
    · exact cutLine_linkSide e d
    · rw [endHead_att]
      show (cutLine e d).att.getLsbD i = true
      rw [hatt, BitVec.getLsbD_or, show d.att = c.att by rw [← hd]; rfl, hi, Bool.true_or]
  · exact ⟨Station.linkGone_congr (endHead_linkSide ..) h, by rw [endHead_att]; exact hi⟩
  · exact ⟨h, hi⟩

end Sys2Proof.Machine
end

section
/-! O39: the link follows the signal (R43, R44, R82; R32 with log 27). -/

namespace Sys2Proof.Machine

section
variable {s : State} {c : ConnectorNo} {n : StationNo}

theorem exec_signalLost (hc : s.stationOf c = some n) :
    exec (.signalLost c) s = .next (s.withStation n fun e x => parkCheck e (signalDown e x)) :=
  congrArg Host.Outcome.next (State.atConnector_serves hc _)

theorem signalDown_up (hup : (s.station n).lp.up = true) :
    signalDown (s.env n) ⟨s.station n, s.attention, []⟩
      = (auLinkLoss (s.env n) ⟨{ s.station n with lp := (s.station n).linkDownLp s.elapsed }, s.attention, []⟩).setAttn .linkChange := by
  unfold signalDown
  rw [if_pos hup, linkLoss_eq]
  rfl

/-! ## A lone entry (R72, R82) -/

/-- The station at a link loss with its lone entry freed. -/
def Station.lossOf (t : Station) (now : Nat) : Station :=
  { t with lp := t.linkDownLp now, au := { t.au with entries := [] } }

/-- The state once the lone entry's completion is told. -/
def State.downTold (s : State) (n : StationNo) (x : Entry) : State :=
  (s.putLogged n ((s.station n).lossOf s.elapsed)
    (s.accessRec x .linkDown x.owner.hostRef (if x.op = .write then x.kept else []) false)).reportAt n .accessError

theorem State.told_down (x : Entry) : s.told n ((s.station n).lossOf s.elapsed) x .linkDown [] false = s.downTold n x := by
  rw [State.told_failed (o := .linkDown) nofun, Entry.recordWords_other (o := .linkDown) (.inr nofun)]
  rfl

theorem State.reportAt_linkSide (y : Cond) (h : (s.station n).lp.up = false) :
    ((s.reportAt n y).station n).linkSide = (s.station n).linkSide := by
  have hreport : (s.reportAt n y).station n = (report (s.env n) y ⟨s.station n, s.attention, []⟩).st := State.withStation_station ..
  rw [hreport]
  exact report_down (s.env n) y ⟨s.station n, s.attention, []⟩ h

theorem State.downTold_au (x : Entry) : ((s.downTold n x).station n).au = { (s.station n).au with entries := [] }
    ∧ ((s.downTold n x).station n).lp = (s.station n).linkDownLp s.elapsed := by
  have hlogged := State.putLogged_keeps (s := s) (n := n) (t := (s.station n).lossOf s.elapsed)
    (r := s.accessRec x .linkDown x.owner.hostRef (if x.op = .write then x.kept else []) false)
  obtain ⟨-, -, -, hau, hlp⟩ := hlogged
  have hreport := State.reportAt_linkSide (n := n) .accessError ((congrArg LinkPort.up hlp).trans rfl)
  exact ⟨(congrArg Prod.snd hreport).trans hau, (congrArg Prod.fst hreport).trans hlp⟩

theorem State.downTold_keeps (x : Entry) : ((s.downTold n x).station n).head = (s.station n).head
    ∧ ((s.downTold n x).station n).queue = (s.station n).queue ∧ ((s.downTold n x).station n).state = (s.station n).state := by
  obtain ⟨hhead, hqueue, hstate, -⟩ := State.told_station (s := s) (n := n) (t := (s.station n).lossOf s.elapsed) (x := x)
    (o := .linkDown) (ws := []) (corrected := false)
  rw [State.told_down] at hhead hqueue hstate
  exact ⟨hhead, hqueue, hstate⟩

theorem State.downTold_put (x : Entry) :
    s.downTold n x = s.put n ((s.downTold n x).station n) (s.downTold n x).attention := by
  have h := (State.told_eq (s := s) (n := n) (t := (s.station n).lossOf s.elapsed) (x := x) (o := .linkDown) (ws := []) (corrected := false)).1
  rwa [State.told_down] at h

theorem State.put_downTold (x : Entry) (v : Station) (b : BitVec 11) : (s.downTold n x).put n v b = s.put n v b := by
  rw [State.downTold_put, State.put_put]

/-- A link loss with a lone entry: it is told, then its owner learns of it. -/
theorem signalDown_alone {x : Entry} (hup : (s.station n).lp.up = true) (hx : (s.station n).au.entries = [x]) {u : Station}
    {effs : List Eff} (howner : toOwner (s.env n) x .linkDown [] ⟨(s.downTold n x).station n, (s.downTold n x).attention, []⟩
      = ⟨u, (s.downTold n x).attention, effs⟩)
    (hside : u.lp.up = false) (hhead : ∀ a, u.head ≠ .access a) :
    signalDown (s.env n) ⟨s.station n, s.attention, []⟩
      = ⟨{ u with au := { u.au with retired := [], holder := false, boardRun := .unknown } },
        (s.downTold n x).attention ||| Attn.linkChange.mask, effs⟩ := by
  have hfreed : Ctx.freeEntry ⟨{ s.station n with lp := (s.station n).linkDownLp s.elapsed }, s.attention, []⟩ x.tag
      = ⟨(s.station n).lossOf s.elapsed, s.attention, []⟩ := by
    have hnone := entries_alone hx
    exact congrArg (fun l => Ctx.mk { s.station n with lp := (s.station n).linkDownLp s.elapsed, au := { (s.station n).au with entries := l } }
      s.attention []) hnone
  have htold := (State.told_eq (s := s) (n := n) (t := (s.station n).lossOf s.elapsed) (x := x) (o := .linkDown) (ws := []) (corrected := false)).2
  rw [State.told_down] at htold
  have hdone : completeDown (s.env n) ⟨{ s.station n with lp := (s.station n).linkDownLp s.elapsed }, s.attention, []⟩ [x]
      = ⟨u, (s.downTold n x).attention, effs⟩ := by
    unfold completeDown completeDown
    rw [hfreed, complete_eq, htold, howner]
    exact congrArg (fun t => Ctx.mk t _ effs) (offerEntries_down hside _)
  rw [signalDown_up hup]
  unfold auLinkLoss
  dsimp only
  rw [hx, hdone, loseWaiting_silent (c := ⟨u, (s.downTold n x).attention, effs⟩) hhead]
  rfl

/-- The lone entry's job ends LINK DOWN. -/
theorem signalLost_ends {q : QJob} {qs : List QJob} {x : Entry} (hc : s.stationOf c = some n) (hup : (s.station n).lp.up = true)
    (hx : (s.station n).au.entries = [x]) (hq : (s.station n).queue = q :: qs) (hh : (s.station n).head = .access ⟨[], 1, none, [], 0⟩)
    (ho : x.owner = .job q.jid q.hostRef) :
    exec (.signalLost c) s = .next ((s.downTold n x).putEnd n { (s.downTold n x).station n with
      au := { (s.station n).au with entries := [], retired := [], holder := false, boardRun := .unknown } }
      ((s.downTold n x).attention ||| Attn.linkChange.mask) q.jid (Res.ended .linkDown)) := by
  obtain ⟨khead, kqueue, -⟩ := State.downTold_keeps (s := s) (n := n) x
  obtain ⟨hau, hlp⟩ := State.downTold_au (s := s) (n := n) x
  have hvalue : accessValue q.job ((⟨[], 1, none, [], 0⟩ : AccessExec).failed .linkDown) = 0 := by
    rw [accessValue_fails _ (Option.some_ne_none _)]
    cases q.job with
    | blockRead addr k buf => rfl
    | _ => rfl
  have howner : toOwner (s.env n) x .linkDown [] ⟨(s.downTold n x).station n, (s.downTold n x).attention, []⟩
      = ⟨{ (s.downTold n x).station n with queue := qs, head := .waiting }, (s.downTold n x).attention,
        [.jobEnd q.jid (Res.ended .linkDown)]⟩ := by
    rw [toOwner_takes (c := ⟨(s.downTold n x).station n, (s.downTold n x).attention, []⟩) (khead.trans hh) (kqueue.trans hq) ho,
      if_neg nofun, AccessExec.take_failed (o := .linkDown) nofun]
    refine (endAccess_ends (c := ⟨{ (s.downTold n x).station n with
      head := .access ((⟨[], 1, none, [], 0⟩ : AccessExec).failed .linkDown) }, (s.downTold n x).attention, []⟩)
      rfl (kqueue.trans hq) rfl (.inl rfl)).trans ?_
    rw [hvalue]
    exact endHead_cons _ (kqueue.trans hq)
  have hdown := signalDown_alone hup hx howner ((congrArg LinkPort.up hlp).trans rfl) nofun
  have hu : ({ ({ (s.downTold n x).station n with queue := qs, head := .waiting } : Station) with
      au := { ((s.downTold n x).station n).au with retired := [], holder := false, boardRun := .unknown } } : Station)
    = { (s.downTold n x).station n with
        queue := qs, head := .waiting
        au := { (s.station n).au with entries := [], retired := [], holder := false, boardRun := .unknown } } := by
    rw [hau]
  rw [exec_signalLost hc]
  refine congrArg Host.Outcome.next ?_
  have hnoPark : parkCheck (s.env n) (signalDown (s.env n) ⟨s.station n, s.attention, []⟩) = _ :=
    (congrArg (parkCheck (s.env n)) hdown).trans (if_neg fun h => absurd h.1 nofun)
  rw [State.withStation_eq, hnoPark]
  dsimp only at hu ⊢
  rw [hu]
  unfold State.putEnd
  rw [kqueue, hq, State.put_downTold]
  rfl

theorem signalLost_down (hup : (s.station n).lp.up = false) (hh : (s.station n).head ≠ .parkWait) :
    parkCheck (s.env n) (signalDown (s.env n) ⟨s.station n, s.attention, []⟩) = ⟨s.station n, s.attention, []⟩ := by
  have hdown : signalDown (s.env n) ⟨s.station n, s.attention, []⟩ = ⟨s.station n, s.attention, []⟩ := by
    unfold signalDown
    rw [hup]
    rfl
  rw [hdown]
  exact if_neg fun h => hh h.1

/-- A PARK that waits goes on as one that comes to the head anew (R32, log 27). -/
theorem State.parkCheck_anew {t : State} {u : Station} {a : BitVec 11} {q : QJob} {qs : List QJob} (hh : u.head = .parkWait)
    (hq : u.queue = q :: qs) (hj : q.job = .park) (hw : u.working = true) (hempty : u.au.entries = []) (hholder : u.au.holder = false) :
    (.next ((t.put n u a).withStation n parkCheck) : Answer) = exec (.park n) (t.put n { u with head := .waiting } a) := by
  have hst : (t.put n { u with head := .waiting } a).station n = { u with head := .waiting } := State.put_station ..
  have hwaiting : ((t.put n { u with head := .waiting } a).station n).waitingJob = some .park := by
    rw [hst]
    exact (Station.waitingJob_of (t := { u with head := .waiting }) rfl hq).trans (congrArg some hj)
  have hback : (t.put n { u with head := .waiting } a).put n { u with head := .parkWait } a = t.put n u a := by
    rw [State.put_put, ← hh]
  rw [exec_park_head hwaiting]
  refine congrArg Host.Outcome.next ?_
  unfold Station.working at hw
  rcases Bool.or_eq_true_iff.mp hw with hready | hquiescing
  · have hgate : ((t.put n { u with head := .waiting } a).station n).headRefusal .park = none := by
      rw [hst]
      unfold Station.headRefusal
      rw [show ({ u with head := .waiting } : Station).state = .ready from beq_iff_eq.mp hready]
      rfl
    rw [State.gated_executed hgate fun e => parkJob e, ← hback]
    refine (State.withStation_afterPut (G := fun _ c => c.setHead .parkWait) (H := parkCheck) ?_).symm
    rw [hst]
    rfl
  · have hstate : u.state = .quiescing := beq_iff_eq.mp hquiescing
    have hgate : ((t.put n { u with head := .waiting } a).station n).headRefusal .park = some .state := by
      rw [hst]
      unfold Station.headRefusal
      rw [show ({ u with head := .waiting } : Station).state = .quiescing from hstate]
      rfl
    rw [State.gated_refused (q := q) (qs := qs) (by rw [hst]; exact hq) hgate, hst]
    have hends : parkCheck ((t.put n u a).env n) ⟨(t.put n u a).station n, (t.put n u a).attention, []⟩ = endHead (Res.ended .state) ⟨u, a, []⟩ := by
      rw [State.put_station]
      refine (if_pos ⟨hh, hempty, hholder⟩).trans (if_neg fun hmay => ?_)
      unfold Station.mayPark at hmay
      simp only [Bool.and_eq_true, beq_iff_eq] at hmay
      have hready : u.state = .ready := hmay.1.1.1
      rw [hstate] at hready
      cases hready
    refine (State.withStation_endsWith hq hends).trans ?_
    unfold State.putEnd
    rw [State.put_put, State.put_put]
    rfl

theorem signalLost_parks {q : QJob} {qs : List QJob} {x : Entry} (hc : s.stationOf c = some n) (hup : (s.station n).lp.up = true)
    (hx : (s.station n).au.entries = [x]) (hq : (s.station n).queue = q :: qs) (hj : q.job = .park)
    (hw : (s.station n).working = true) (hh : (s.station n).head = .parkWait) :
    exec (.signalLost c) s = exec (.park n) ((s.downTold n x).put n { (s.downTold n x).station n with
      au := { (s.station n).au with entries := [], retired := [], holder := false, boardRun := .unknown }
      head := .waiting } ((s.downTold n x).attention ||| Attn.linkChange.mask)) := by
  obtain ⟨khead, kqueue, kstate⟩ := State.downTold_keeps (s := s) (n := n) x
  obtain ⟨hau, hlp⟩ := State.downTold_au (s := s) (n := n) x
  have hnoAccess : ∀ a, ((s.downTold n x).station n).head ≠ .access a := fun a => by
    rw [khead, hh]
    exact nofun
  have hdown := signalDown_alone hup hx (toOwner_silent (c := ⟨(s.downTold n x).station n, (s.downTold n x).attention, []⟩) hnoAccess ..)
    ((congrArg LinkPort.up hlp).trans rfl) hnoAccess
  have hu : ({ (s.downTold n x).station n with
      au := { ((s.downTold n x).station n).au with retired := [], holder := false, boardRun := .unknown } } : Station)
    = { (s.downTold n x).station n with
        au := { (s.station n).au with entries := [], retired := [], holder := false, boardRun := .unknown } } := by
    rw [hau]
  rw [hu] at hdown
  have hwork : ((s.downTold n x).station n).working = true := by
    unfold Station.working
    rw [kstate]
    exact hw
  have hanew := State.parkCheck_anew (n := n) (t := s.downTold n x) (u := { (s.downTold n x).station n with
        au := { (s.station n).au with entries := [], retired := [], holder := false, boardRun := .unknown } })
    (a := (s.downTold n x).attention ||| Attn.linkChange.mask) (khead.trans hh) (kqueue.trans hq) hj hwork rfl rfl
  refine (exec_signalLost hc).trans (Eq.trans (congrArg Host.Outcome.next ?_) hanew)
  refine (State.withStation_afterPut (G := signalDown) (H := parkCheck) hdown).trans (congrArg (State.withStation · n parkCheck) ?_)
  exact (State.put_downTold ..).symm

end

/-- Settles O39: a link loss leaves LP and AU gone whatever completes, and a lone entry is told, then its owner learns of it. -/
theorem linkFollowsSignal : Obligations.LinkFollowsSignal := by
  refine ⟨fun s c n hc => ⟨fun hrx hup => ?_, fun hno => ?_⟩, fun s c n hc => ?_⟩
  · refine congrArg Host.Outcome.next ((State.atConnector_serves hc _).trans (State.withStation_quiet ?_))
    exact if_pos (Bool.and_eq_true_iff.mpr ⟨hrx, congrArg (!·) hup⟩)
  · refine congrArg Host.Outcome.next ((State.atConnector_serves hc _).trans (State.withStation_same ?_))
    unfold signalUp
    refine if_neg fun hcan => ?_
    simp only [Bool.and_eq_true, Bool.not_eq_true'] at hcan
    obtain ⟨hrx, hup⟩ := hcan
    exact hno.elim (fun h => absurd (hrx.symm.trans h) nofun) fun h => absurd (hup.symm.trans h) nofun
  · intro t lp au
    refine ⟨fun hup hh => ?_, fun hup => ⟨_, exec_signalLost hc, ?_⟩, fun hup he hh => ?_, fun q qs x hup hx hq => ?_⟩
    · exact (exec_signalLost hc).trans (congrArg Host.Outcome.next (State.withStation_same (signalLost_down hup hh)))
    · obtain ⟨hloss, hset⟩ := linkLoss_gone (s.env n) ⟨s.station n, s.attention, []⟩
      have hdown : signalDown (s.env n) ⟨s.station n, s.attention, []⟩ = linkLoss (s.env n) ⟨s.station n, s.attention, []⟩ := if_pos hup
      obtain ⟨hgone, hbit⟩ := parkCheck_gone (s.env n) hloss _ hset
      rw [← hdown] at hgone hbit
      obtain ⟨h1, h2, h3, h4, h5, h6, h7, h8⟩ := hgone
      rw [State.withStation_station, State.withStation_attention]
      exact ⟨h1, h2, h3, h4, h5, h6, h7, h8, hbit, fun m hm => State.withStation_other s _ hm⟩
    · have hidle : signalDown (s.env n) ⟨s.station n, s.attention, []⟩ = ⟨{ s.station n with lp := lp, au := au },
          s.attention ||| Attn.linkChange.mask, []⟩ := by
        refine (signalDown_up hup).trans ?_
        rw [auLinkLoss_idle (c := ⟨{ s.station n with lp := (s.station n).linkDownLp s.elapsed }, s.attention, []⟩) _ he hh]
        show Ctx.mk { s.station n with
          lp := (s.station n).linkDownLp s.elapsed
          au := { (s.station n).au with retired := [], holder := false, boardRun := .unknown } } _ [] = _
        exact congrArg (fun l => Ctx.mk { s.station n with
          lp := (s.station n).linkDownLp s.elapsed
          au := { (s.station n).au with entries := l, retired := [], holder := false, boardRun := .unknown } }
          (s.attention ||| Attn.linkChange.mask) []) he
      have hwaits : s.withStation n signalDown = _ := State.withStation_quiet hidle
      refine (exec_signalLost hc).trans (congrArg Host.Outcome.next ((State.withStation_noPark ?_).trans hwaits))
      rw [hwaits, State.put_station]
      show (s.station n).head ≠ .parkWait
      rw [show (s.station n).head = .waiting from hh]
      exact nofun
    · intro host down att
      have hdown : down = s.downTold n x := rfl
      clear_value down
      subst hdown
      exact ⟨fun hh ho => signalLost_ends hc hup hx hq hh ho, fun hj hw hh => signalLost_parks hc hup hx hq hj hw hh⟩

end Sys2Proof.Machine
end

section
/-! O53: what CAP does with an offer (R134, R137, R139, R141, R143 to R146). -/

namespace Sys2Proof.Machine

/-! ## The history window (R139) -/

/-- The oldest records go, and no more than must. -/
theorem trimHistory_spec (h p : Nat) (l : List SrcRec) : ∃ gone, l = gone ++ trimHistory h p l
    ∧ ∀ d x, gone = d ++ [x] → h < historyBytes (x :: trimHistory h p l) + p := by
  induction l with
  | nil => exact ⟨[], rfl, fun d x hd => absurd hd.symm (by simp)⟩
  | cons r rs ih =>
    unfold trimHistory
    split_ifs with hover
    · obtain ⟨gone, happ, hlast⟩ := ih
      refine ⟨r :: gone, congrArg (r :: ·) happ, fun d x hd => ?_⟩
      cases d with
      | nil =>
        obtain ⟨rfl, rfl⟩ := List.cons.inj hd
        rw [List.nil_append] at happ
        rw [← happ]
        exact hover
      | cons y ys => exact hlast ys x (List.cons.inj hd).2
    · exact ⟨[], rfl, fun d x hd => absurd hd.symm (by simp)⟩

section
variable {c : Capture} {k : Nat} {tb : Tick} {r : SrcRec}

theorem Capture.offer_watching (h : c.state = .watching) : c.offer k tb r = ⟨c.hold r, false, false⟩ := by
  unfold Capture.offer
  rw [h]

theorem Capture.offer_stopping {n : Nat} (h : c.state = .stopping n) (ha : (c.admission k tb r).cap.state = .stopping n) :
    c.offer k tb r = if n ≤ 1 then ⟨{ (c.admission k tb r).cap with state := .stopped }, (c.admission k tb r).lossEntered, true⟩
      else ⟨{ (c.admission k tb r).cap with state := .stopping (n - 1) }, (c.admission k tb r).lossEntered, (c.admission k tb r).sealReq⟩ := by
  unfold Capture.offer
  rw [h]
  dsimp only
  rw [ha]

/-! ## Admission (R143 to R146) -/

theorem Capture.admission_normal (h : c.loss = false) : c.admission k tb r = c.admitNormal k r := by
  have hno : c.canRecover = false := by
    unfold Capture.canRecover
    rw [h]
    rfl
  unfold Capture.admission
  rw [hno, h]
  rfl

theorem Capture.admission_loss (h : c.loss = true) (hu : 4096 < c.used) : c.admission k tb r = c.countLost r := by
  have hno : c.canRecover = false := by
    unfold Capture.canRecover
    rw [h]
    refine decide_eq_false ?_
    show ¬ 4096 ≤ 8192 - c.used
    omega
  unfold Capture.admission
  rw [hno, h]
  rfl

theorem Capture.admission_recovers (h : c.loss = true) (hu : c.used ≤ 4096) :
    c.admission k tb r = (c.recover k tb).admitNormal k r := by
  have hcan : c.canRecover = true := by
    unfold Capture.canRecover
    rw [h]
    refine decide_eq_true ?_
    show 4096 ≤ 8192 - c.used
    omega
  unfold Capture.admission
  rw [hcan]
  rfl

theorem Capture.admitNormal_fits (hu : c.used + c.needed k (unitOf k r.entry) r.size + 24 ≤ 8192) : c.admitNormal k r
    = ⟨c.append k (unitOf k r.entry) (admittedPayload r.payload k (unitOf k r.entry) r.first) r.flags, false, false⟩ := by
  refine if_pos ?_
  show _ + 24 ≤ 8192 - c.used
  omega

theorem Capture.admitNormal_loses (hb : c.used ≤ 8192) (hu : 8192 < c.used + c.needed k (unitOf k r.entry) r.size + 24) :
    c.admitNormal k r = ⟨{ c with loss := true, pend := ⟨1, r.size, unitOf k r.entry⟩ }, true, false⟩ := by
  refine if_neg ?_
  show ¬ _ + 24 ≤ 8192 - c.used
  omega

theorem Capture.countLost_counts (h : c.pend.records + 1 < 4294967295) : c.countLost r = ⟨{ c with pend := { c.pend with
    records := c.pend.records + 1, bytes := min (c.pend.bytes + r.size) 4294967295 } }, false, false⟩ := by
  have hsat : satAdd Config.max32 c.pend.records 1 = c.pend.records + 1 := Nat.min_eq_left (Nat.le_of_lt h)
  unfold Capture.countLost
  rw [hsat]
  exact if_neg (Nat.ne_of_lt h)

/-- The greatest lost count stops the recording (R146, log 13). -/
theorem Capture.countLost_stops (h : 4294967295 ≤ c.pend.records + 1) (hs : c.state = .recording ∨ ∃ m, c.state = .stopping m) :
    c.countLost r = ⟨{ c with
      state := .stopped
      pend := { c.pend with records := 4294967295, bytes := min (c.pend.bytes + r.size) 4294967295 } }, false, true⟩ := by
  have hsat : satAdd Config.max32 c.pend.records 1 = 4294967295 := Nat.min_eq_right h
  unfold Capture.countLost
  rw [hsat]
  refine (if_pos rfl).trans ?_
  rcases hs with hs | ⟨m, hs⟩ <;> rw [hs] <;> rfl

/-- The GAP record of a recovery, after the ANCHOR it may need (R145). -/
theorem Capture.append_staging (c : Capture) (k u : Nat) (p : Payload) (f : RecFlags) : ∃ (a : List Staged) (g : Staged),
    (c.append k u p f).staging = c.staging ++ a ++ [g] ∧ g.payload = p ∧ g.unit = u ∧ a.length ≤ 1 := by
  unfold Capture.append
  split
  case h_1 why hw =>
    exact ⟨[⟨.anchor u k why, RecFlags.none, 0, c.seq, u, k⟩], ⟨p, f, 0, c.seq + 1, u, k⟩, by rw [List.append_assoc]; rfl, rfl, rfl, Nat.le_refl 1⟩
  case h_2 => exact ⟨[], ⟨p, f, unitDiff k u c.ref.value, c.seq, u, k⟩, by rw [List.append_nil], rfl, rfl, Nat.zero_le 1⟩

/-! ## The release of the window (R141) -/

/-- One held record admitted, its loss and seal request joined to those before it. -/
def CapOut.admitHeld (k : Nat) (tb : Tick) (o : CapOut) (r : SrcRec) : CapOut :=
  let o' := o.cap.admission k tb { r with flags := { r.flags with history := true } }
  ⟨o'.cap, o.lossEntered || o'.lossEntered, o.sealReq || o'.sealReq⟩

theorem foldl_admitHeld (k : Nat) (tb : Tick) (l : List SrcRec) (o : CapOut) : l.foldl (CapOut.admitHeld k tb) o
    = ⟨(releaseAll k tb o.cap l).cap, o.lossEntered || (releaseAll k tb o.cap l).lossEntered,
      o.sealReq || (releaseAll k tb o.cap l).sealReq⟩ := by
  induction l generalizing o with
  | nil =>
    show o = ⟨o.cap, o.lossEntered || false, o.sealReq || false⟩
    rw [Bool.or_false, Bool.or_false]
  | cons r rs ih =>
    rw [List.foldl_cons, ih]
    rw [releaseAll]
    unfold CapOut.admitHeld
    dsimp only
    rw [Bool.or_assoc, Bool.or_assoc]

theorem Capture.start_watching (h : c.state = .watching) : c.start k tb = c.history.foldl (CapOut.admitHeld k tb)
    ⟨{ c.invalidate .enterRecording with state := .recording, history := [] }, false, false⟩ := by
  rw [foldl_admitHeld]
  unfold Capture.start
  rw [h]
  rfl

end

/-- Settles O53: offers by the capture state, admission by the loss state, and the start as a fold over the held records. -/
theorem offersFollowCaptureState : Obligations.OffersFollowCaptureState := by
  refine ⟨⟨fun c k tb r => ⟨fun h => ?_, fun h hlt => ?_, fun h hle => ?_, fun h => ?_, fun n h ha => ?_⟩,
    fun c k tb r hb => ?_⟩, fun c k tb r => ⟨fun hl hu hr hs => ?_, fun ⟨m, h⟩ ha => ?_⟩, fun c k tb => ?_⟩
  · unfold Capture.offer
    rw [h]
  · rw [Capture.offer_watching h]
    unfold Capture.hold
    rw [if_pos hlt]
  · obtain ⟨gone, happ, hlast⟩ := trimHistory_spec c.historySize r.size c.history
    refine ⟨gone, trimHistory c.historySize r.size c.history, happ, ?_, ?_, fun d x hd => ?_⟩
    · rw [Capture.offer_watching h]
      unfold Capture.hold
      rw [if_neg (Nat.not_lt.mpr hle)]
    · rw [historyBytes_append]
      exact historyBytes_trim hle c.history
    · rw [historyBytes_append]
      exact hlast d x hd
  · unfold Capture.offer
    rw [h]
  · rw [Capture.offer_stopping h ha]
    refine ⟨fun hn => ?_, fun hn => ?_⟩
    · rw [if_pos hn]
      exact ⟨rfl, rfl⟩
    · rw [if_neg (Nat.not_le.mpr hn)]
      exact ⟨rfl, rfl⟩
  · obtain ⟨hused, -⟩ := hb
    intro u
    refine ⟨fun hl hu => ?_, fun hl hu => ?_, fun hl hu hr => ?_, fun hl hu => ?_⟩
    · exact (Capture.admission_normal hl).trans (Capture.admitNormal_fits hu)
    · exact (Capture.admission_normal hl).trans (Capture.admitNormal_loses hused hu)
    · exact (Capture.admission_loss hl hu).trans (Capture.countLost_counts hr)
    · obtain ⟨a, g, hstaged, hp, hunit, hlen⟩ := Capture.append_staging c k (unitOf k tb)
        (.gap c.pend.records c.pend.bytes c.pend.firstUnit) RecFlags.none
      exact ⟨c.recover k tb, rfl, rfl, Capture.append_state .., Capture.append_history .., ⟨a, g, hstaged, hp, hunit, hlen⟩,
        Capture.admission_recovers hl hu⟩
  · exact (Capture.admission_loss hl hu).trans (Capture.countLost_stops hr hs)
  · unfold Capture.offer
    rw [h]
    dsimp only
    rw [ha]
  · intro begun admitOne
    refine ⟨fun h => ?_, fun h => Capture.start_watching h, fun h => ?_⟩
    · unfold Capture.start
      rw [h]
      rfl
    · unfold Capture.start
      rcases h with h | ⟨m, h⟩ <;> rw [h]

end Sys2Proof.Machine
end

section
/-! The time and the bytes of records (R6 to R9, R19 to R24, Tables 12-9 and 12-10). -/

namespace Sys2Proof.Machine

/-! ## Deltas and ANCHORs (R22, R23) -/

theorem unitDiff_eq {k u r : Nat} (hu : u < 2 ^ (48 - k)) (hr : r < 2 ^ (48 - k)) :
    unitDiff k u r = if r ≤ u then u - r else u + 2 ^ (48 - k) - r := by
  unfold unitDiff
  rw [Nat.mod_eq_of_lt hr]
  generalize 2 ^ (48 - k) = m at *
  split_ifs with h
  · rw [show u + (m - r) = (u - r) + m by omega, Nat.add_mod_right, Nat.mod_eq_of_lt (by omega)]
  · rw [show u + (m - r) = u + m - r by omega, Nat.mod_eq_of_lt (by omega)]

section
variable {c : Capture} {k u : Nat} {p : Payload} {f : RecFlags}

theorem Capture.anchorFor_none (hv : c.ref.valid = true) (hd : unitDiff k u c.ref.value ≤ 65535) : c.anchorFor k u = none := by
  unfold Capture.anchorFor
  rw [hv]
  exact if_neg (Nat.not_lt.mpr hd)

theorem Capture.anchorFor_some (h : c.ref.valid = false ∨ 65535 < unitDiff k u c.ref.value) :
    c.anchorFor k u = some (if c.ref.valid then .deltaOverflow else c.ref.reason) := by
  unfold Capture.anchorFor
  cases hv : c.ref.valid with
  | false => rfl
  | true => exact if_pos (h.resolve_left (by rw [hv]; decide))

/-- A record joins staging with no ANCHOR. -/
theorem Capture.append_delta (h : c.anchorFor k u = none) : (c.append k u p f).staging
      = c.staging ++ [⟨p, f, unitDiff k u c.ref.value, c.seq, u, k⟩] ∧ (c.append k u p f).seq = c.seq + 1 := by
  unfold Capture.append
  rw [h]
  exact ⟨rfl, rfl⟩

/-- A record joins staging behind its ANCHOR. -/
theorem Capture.append_anchor {why : AnchorReason} (h : c.anchorFor k u = some why) : (c.append k u p f).staging
      = c.staging ++ [⟨.anchor u k why, RecFlags.none, 0, c.seq, u, k⟩, ⟨p, f, 0, c.seq + 1, u, k⟩]
    ∧ (c.append k u p f).seq = c.seq + 2 := by
  unfold Capture.append
  rw [h]
  exact ⟨rfl, rfl⟩

theorem Capture.append_ref : (c.append k u p f).ref = { c.ref with value := u, valid := true } :=
  congrArg Capture.ref (Capture.append_frame c k u p f)

end

/-! ## Payload bytes (Table 12-10) -/

/-- The numbers of a payload, each with its width. -/
def Payload.parts : Payload → List (Nat × Nat)
  | .anchor u k r => [(6, u), (1, k), (1, r.code)]
  | .gap n b u => [(4, n), (4, b), (8, u)]
  | .mark v o h => [(4, v.toNat), (1, o.code), (3, 0), (8, h.toNat)]
  | .trigger f t c k rq dn ar co => [(1, f.val), (1, t.code), (1, c.code), (1, k.code), (1, rq.toNat), (1, dn.toNat),
      (1, bit ar + 2 * bit co), (1, 0)]
  | .linkTrace ch n _ => [(1, ch.toNat), (1, 0), (2, n)]
  | .progress w v => [(1, w), (4, v.toNat)]
  | .notice c _ => [(1, c.toNat)]
  | .linkHealth h => [(1, h.flags.toNat), (1, 0), (2, h.corrected), (2, h.discarded), (2, h.filtered), (2, h.late), (2, h.unmatched)]
  | .consoleLine f o _ => [(1, f.code), (1, 0), (2, o)]
  | .powerEvent e s c f r => [(1, e.code), (1, s.code), (1, c.toNat), (1, f.code), (1, r), (3, 0)]
  | .access t op o tr n h a ws => [(1, t.val), (1, op.code), (1, o.result.code), (1, o.sub), (1, bit tr), (1, 0), (2, n),
      (8, h.toNat), (8, a.toNat)] ++ ws.map fun w => (4, w.toNat)
  | .fill len => [(len, 0)]

/-- The bytes of a payload behind its numbers. -/
def Payload.rest : Payload → List Byte
  | .linkTrace _ _ bs | .notice _ bs | .consoleLine _ _ bs => bs
  | _ => []

theorem wordBytes_eq (ws : List Word32) : wordBytes ws = packed (ws.map fun w => (4, w.toNat)) := by
  unfold wordBytes packed
  rw [List.flatMap_map]

theorem Payload.bytes_eq (p : Payload) : p.bytes = packed p.parts ++ p.rest := by
  cases p with
  | access t op o tr n h a ws =>
    unfold Payload.bytes Payload.parts Payload.rest
    dsimp only
    rw [packed_append, wordBytes_eq]
    simp only [packed_cons, packed_nil, List.append_assoc, List.append_nil, leBytes_zero]
  | linkHealth h =>
    unfold Payload.bytes Payload.parts Payload.rest Health.counters
    simp only [packed_cons, packed_nil, List.append_assoc, List.append_nil, leBytes_zero, leBytes_one, List.cons_append, List.nil_append]
  | _ =>
    unfold Payload.bytes Payload.parts Payload.rest
    simp only [packed_cons, packed_nil, List.append_assoc, List.append_nil, leBytes_zero, leBytes_one, List.cons_append, List.nil_append]

theorem Payload.bytes_length (p : Payload) : p.bytes.length = p.len := by
  have hwords : ∀ ws : List Word32, ((ws.map fun w => (4, w.toNat)).map Prod.fst).sum = 4 * ws.length := fun ws => by
    rw [List.map_map]
    induction ws with
    | nil => rfl
    | cons w ws ih =>
      rw [List.map_cons, List.sum_cons, ih, List.length_cons]
      show 4 + _ = _
      omega
  rw [Payload.bytes_eq, List.length_append, packed_length]
  cases p with
  | access t op o tr n h a ws =>
    show (([(1, _), (1, _), (1, _), (1, _), (1, _), (1, _), (2, _), (8, _), (8, _)] ++ _).map Prod.fst).sum + 0 = 24 + 4 * ws.length
    rw [List.map_append, List.sum_append, hwords]
    rfl
  | fill len => exact Nat.add_zero len
  | _ => rfl

/-- Each number of a payload that its bytes hold is the field at its place. -/
theorem Payload.field_at {p : Payload} {i k v off : Nat} (hi : p.parts[i]? = some (k, v)) (ho : ((p.parts.take i).map Prod.fst).sum = off)
    (hv : v < 256 ^ k) : field p.bytes off k = v := by
  have hin : off + k ≤ (packed p.parts).length := by
    obtain ⟨hlt, hget⟩ := List.getElem?_eq_some_iff.mp hi
    have hsplit := congrArg (fun l => (l.map Prod.fst).sum) (List.take_append_drop i p.parts)
    rw [List.drop_eq_getElem_cons hlt, hget] at hsplit
    simp only [List.map_append, List.map_cons, List.sum_append, List.sum_cons] at hsplit
    rw [packed_length]
    omega
  rw [Payload.bytes_eq, field_append_front hin]
  exact field_packed_of_lt hi ho hv

theorem Payload.byteAt_at {p : Payload} {i off : Nat} {b : Byte} (hi : p.parts[i]? = some (1, b.toNat))
    (ho : ((p.parts.take i).map Prod.fst).sum = off) : byteAt p.bytes off = b := by
  unfold byteAt
  rw [Payload.field_at hi ho b.isLt, BitVec.ofNat_toNat]
  exact BitVec.setWidth_eq b

end Sys2Proof.Machine
end

section
/-! O54 (R6 to R9, R19 to R24, Tables 12-9 and 12-10). -/

namespace Sys2Proof.Machine

/-! ## Records as written (Table 12-9) -/

theorem bit_eq (b : Bool) (k : Nat) : k * bit b = if b then k else 0 := by
  cases b
  · exact Nat.mul_zero k
  · exact Nat.mul_one k

theorem bit_le (b : Bool) : bit b ≤ 1 := by cases b <;> decide

theorem RecFlags.code_eq (f : RecFlags) : f.code = (if f.history then 1 else 0) + (if f.truncated then 2 else 0)
    + (if f.corrected then 4 else 0) + (if f.sourceError then 8 else 0) := by
  unfold RecFlags.code
  rw [bit_eq, bit_eq, bit_eq]
  rfl

theorem RecFlags.code_lt (f : RecFlags) : f.code < 256 := by
  have h1 := bit_le f.history
  have h2 := bit_le f.truncated
  have h3 := bit_le f.corrected
  have h4 := bit_le f.sourceError
  unfold RecFlags.code
  omega

theorem LineFlags.code_eq (f : LineFlags) : f.code = (if f.split then 1 else 0) + (if f.idleClosed then 2 else 0)
    + (if f.cut then 4 else 0) + (if f.framing then 8 else 0) + (if f.brk then 16 else 0) := by
  unfold LineFlags.code
  rw [bit_eq, bit_eq, bit_eq, bit_eq]
  rfl

theorem LineFlags.code_lt (f : LineFlags) : f.code < 256 := by
  have h1 := bit_le f.split
  have h2 := bit_le f.idleClosed
  have h3 := bit_le f.cut
  have h4 := bit_le f.framing
  have h5 := bit_le f.brk
  unfold LineFlags.code
  omega

theorem Payload.kindCode_lt (p : Payload) : p.kindCode < 256 := by
  unfold Payload.kindCode
  split <;> decide

/-- The numbers of a record header. -/
def headerParts (p : Payload) (f : RecFlags) (delta : Nat) (seq : BitVec 16) : List (Nat × Nat) :=
  [(1, p.kindCode), (1, f.code), (2, p.len), (2, delta), (2, seq.toNat)]

section
variable {p : Payload} {f : RecFlags} {delta : Nat} {seq : BitVec 16}

theorem recordBytes_eq : recordBytes p f delta seq = packed (headerParts p f delta seq) ++ (p.bytes ++ zeros (p.size - 8 - p.len)) := by
  unfold recordBytes headerParts
  simp only [packed_cons, packed_nil, List.append_assoc, List.nil_append]

theorem headerParts_length : (packed (headerParts p f delta seq)).length = 8 := packed_length _

theorem recordBytes_length : (recordBytes p f delta seq).length = 8 + 8 * ((p.len + 7) / 8) := by
  rw [recordBytes_eq, List.length_append, List.length_append, headerParts_length, Payload.bytes_length, zeros_length]
  show _ + (_ + (8 + 8 * ((p.len + 7) / 8) - 8 - p.len)) = _
  omega

theorem recordBytes_header {i k v off : Nat} (hi : (headerParts p f delta seq)[i]? = some (k, v))
    (ho : (([1, 1, 2, 2, 2] : List Nat).take i).sum = off) (hin : off + k ≤ 8) (hv : v < 256 ^ k) :
    field (recordBytes p f delta seq) off k = v := by
  rw [recordBytes_eq, field_append_front (by rwa [headerParts_length])]
  refine field_packed_of_lt hi ?_ hv
  rw [List.map_take]
  exact ho

theorem recordBytes_behind : (recordBytes p f delta seq).drop 8 = p.bytes ++ zeros (p.size - 8 - p.len) := by
  rw [recordBytes_eq]
  exact List.drop_left' headerParts_length

/-- A record as written: header, payload and zero padding. -/
theorem recordBytes_fields (hlen : p.len ≤ 4056) (hdelta : delta ≤ 65535) :
    field (recordBytes p f delta seq) 0 1 = p.kindCode ∧ field (recordBytes p f delta seq) 1 1 = f.code
      ∧ field (recordBytes p f delta seq) 2 2 = p.len ∧ field (recordBytes p f delta seq) 4 2 = delta
      ∧ field (recordBytes p f delta seq) 6 2 = seq.toNat :=
  ⟨recordBytes_header (i := 0) rfl rfl (by decide) p.kindCode_lt,
    recordBytes_header (i := 1) rfl rfl (by decide) f.code_lt,
    recordBytes_header (i := 2) rfl rfl (by decide) (by omega),
    recordBytes_header (i := 3) rfl rfl (by decide) (by omega),
    recordBytes_header (i := 4) rfl rfl (by decide) seq.isLt⟩

theorem recordBytes_padding : ∀ b ∈ (recordBytes p f delta seq).drop (8 + p.len), b = 0 := by
  intro b hb
  rw [← List.drop_drop, recordBytes_behind, List.drop_left' (Payload.bytes_length p)] at hb
  exact List.eq_of_mem_replicate hb

end

/-- The FILL record of a remainder (R19). -/
theorem fillBytes_fields {r : Nat} (h8 : 8 ≤ r) (hr : r ≤ 4064) (hmod : r % 8 = 0) : (fillBytes r).length = r
    ∧ field (fillBytes r) 0 1 = 12 ∧ field (fillBytes r) 1 1 = 0 ∧ field (fillBytes r) 2 2 = r - 8
    ∧ field (fillBytes r) 4 2 = 0 ∧ field (fillBytes r) 6 2 = 0 ∧ ∀ b ∈ (fillBytes r).drop 8, b = 0 := by
  obtain ⟨h0, h1, h2, h4, h6⟩ := recordBytes_fields (p := .fill (r - 8)) (f := RecFlags.none) (delta := 0) (seq := 0)
    (show r - 8 ≤ 4056 by omega) (by decide)
  refine ⟨recordBytes_length.trans ?_, h0, h1, h2, h4, h6, fun b hb => ?_⟩
  · show 8 + 8 * ((r - 8 + 7) / 8) = r
    omega
  · unfold fillBytes at hb
    rw [recordBytes_behind] at hb
    rcases List.mem_append.mp hb with hb | hb
    · exact List.eq_of_mem_replicate hb
    · exact List.eq_of_mem_replicate hb

/-! ## Payloads (Table 12-10) -/

theorem Payload.bytes_behind {p : Payload} {m : Nat} (h : (p.parts.map Prod.fst).sum = m) : p.bytes.drop m = p.rest := by
  rw [Payload.bytes_eq]
  exact List.drop_left' ((packed_length _).trans h)

theorem AccessOutcome.sub_eq (o : AccessOutcome) : o.sub = match o with
    | .boardError .addressFault => 1 | .boardError .busy => 2
    | .boardError .unsupported => 3 | .boardError .length => 4 | _ => 0 := by
  cases o with
  | boardError c => cases c <;> rfl
  | _ => rfl

/-- The words behind other numbers. -/
theorem words_behind (front : List (Nat × Nat)) {ws : List Word32} {i : Nat} {w : Word32} (hw : ws[i]? = some w) :
    (front ++ ws.map fun w : Word32 => (4, w.toNat))[front.length + i]? = some (4, w.toNat)
      ∧ (((front ++ ws.map fun w : Word32 => (4, w.toNat)).take (front.length + i)).map Prod.fst).sum = (front.map Prod.fst).sum + 4 * i := by
  obtain ⟨hlt, -⟩ := List.getElem?_eq_some_iff.mp hw
  constructor
  · rw [List.getElem?_append_right (Nat.le_add_right ..), Nat.add_sub_cancel_left, List.getElem?_map, hw]
    rfl
  · rw [List.take_append, List.take_of_length_le (Nat.le_add_right ..), Nat.add_sub_cancel_left, List.map_append, List.sum_append,
      ← List.map_take, List.map_map]
    refine congrArg ((front.map Prod.fst).sum + ·) ?_
    show ((ws.take i).map fun _ => 4).sum = 4 * i
    rw [List.map_const', List.sum_replicate, List.length_take, Nat.min_eq_left (Nat.le_of_lt hlt), smul_eq_mul, Nat.mul_comm]

/-- A word of an ACCESS record is the field at its place. -/
theorem access_word {t : Fin 64} {op : AccessOp} {o : AccessOutcome} {tr : Bool} {n : Nat} {h a : Word64} {ws : List Word32} {i : Nat}
    {w : Word32} (hw : ws[i]? = some w) : field (Payload.access t op o tr n h a ws).bytes (24 + 4 * i) 4 = w.toNat := by
  obtain ⟨hget, hsum⟩ := words_behind [(1, t.val), (1, op.code), (1, o.result.code), (1, o.sub), (1, bit tr), (1, 0), (2, n),
    (8, h.toNat), (8, a.toNat)] hw
  exact Payload.field_at (p := .access t op o tr n h a ws) (i := 9 + i) hget hsum w.isLt

theorem AnchorReason.code_lt (x : AnchorReason) : x.code < 256 := by cases x <;> decide
theorem Cause.code_lt (x : Cause) : x.code < 256 := by cases x <;> decide
theorem CondKind.code_lt (x : CondKind) : x.code < 256 := by cases x <;> decide
theorem PowerEv.code_lt (x : PowerEv) : x.code < 256 := by cases x <;> decide
theorem AccessOp.code_lt (x : AccessOp) : x.code < 256 := by cases x <;> decide

theorem MarkOrigin.code_lt (x : MarkOrigin) : x.code < 256 := by
  cases x with
  | job => decide
  | step i => exact Nat.lt_trans i.isLt (by decide)

theorem Target.code_lt (x : Target) : x.code < 256 := by
  cases x with
  | done => decide
  | step i => exact Nat.lt_trans i.isLt (by decide)

theorem AccessOutcome.sub_lt (x : AccessOutcome) : x.sub < 256 := by
  cases x with
  | boardError c => cases c <;> decide
  | _ => decide

/-- The bytes of a TRIGGER payload. -/
theorem triggerPayload_fields (i : Fin 4) (tgt : Target) (c : Cause) (y : CondKind) (rq dn : BitVec 8) (ar co : Bool) :
    let d := (Payload.trigger i tgt c y rq dn ar co).bytes
    field d 0 1 = i.val ∧ field d 1 1 = tgt.code ∧ field d 2 1 = c.code ∧ field d 3 1 = y.code ∧ byteAt d 4 = rq ∧ byteAt d 5 = dn
      ∧ field d 6 1 = bit ar + 2 * bit co ∧ field d 7 1 = 0 :=
  have har := bit_le ar
  have hco := bit_le co
  ⟨Payload.field_at (i := 0) rfl rfl (Nat.lt_trans i.isLt (by decide)), Payload.field_at (i := 1) rfl rfl tgt.code_lt,
    Payload.field_at (i := 2) rfl rfl c.code_lt, Payload.field_at (i := 3) rfl rfl y.code_lt,
    Payload.byteAt_at (i := 4) rfl rfl, Payload.byteAt_at (i := 5) rfl rfl,
    Payload.field_at (i := 6) rfl rfl (by omega), Payload.field_at (i := 7) rfl rfl (by decide)⟩

/-- Settles O54: the delta and the ANCHOR of a record, its header and padding, and the numbers of each payload. -/
theorem admittedRecordsCarryTimeAndPadding : Obligations.AdmittedRecordsCarryTimeAndPadding := by
  refine ⟨⟨fun c k u p f _ hu hr => ?_, fun p f delta seq hlen hdelta => ?_, fun r h8 hr hmod => fillBytes_fields h8 hr hmod⟩,
    RecFlags.code_eq, fun u k r hu hk => ?_, fun n b u hn hb hu => ?_, fun v o h => ?_, fun i tgt c y rq dn ar co => ?_,
    fun ch n bs hn => ?_, fun w v hw => ?_, fun code bs => ⟨rfl, rfl⟩, fun h h1 h2 h3 h4 h5 => ?_, fun f off bs hoff => ?_,
    fun ev st cls k retry hretry => ?_, fun tag op o tr n h a ws hn => ?_⟩
  · intro d
    have hd : unitDiff k u c.ref.value = d := unitDiff_eq hu hr
    refine ⟨Capture.append_ref, fun hv hle => ?_, fun hor => ?_⟩
    · rw [← hd] at hle ⊢
      exact Capture.append_delta (Capture.anchorFor_none hv hle)
    · rw [← hd] at hor
      exact Capture.append_anchor (Capture.anchorFor_some hor)
  · intro d
    obtain ⟨h0, h1, h2, h4, h6⟩ := recordBytes_fields (p := p) (f := f) (seq := seq) hlen hdelta
    refine ⟨recordBytes_length, p.bytes_length, h0, h1, h2, h4, h6, ?_, recordBytes_padding⟩
    show ((recordBytes p f delta seq).drop 8).take p.len = p.bytes
    rw [recordBytes_behind]
    exact List.take_left' p.bytes_length
  · exact ⟨rfl, Payload.bytes_length _, Payload.field_at (i := 0) rfl rfl hu, Payload.field_at (i := 1) rfl rfl (by omega),
      (Payload.field_at (i := 2) rfl rfl r.code_lt).trans (by cases r <;> rfl)⟩
  · exact ⟨rfl, Payload.bytes_length _, Payload.field_at (i := 0) rfl rfl (by omega), Payload.field_at (i := 1) rfl rfl (by omega),
      Payload.field_at (i := 2) rfl rfl (by omega)⟩
  · exact ⟨rfl, Payload.bytes_length _, Payload.field_at (i := 0) rfl rfl v.isLt,
      (Payload.field_at (i := 1) rfl rfl o.code_lt).trans (by cases o <;> rfl), Payload.field_at (i := 2) rfl rfl (by decide),
      Payload.field_at (i := 3) rfl rfl h.isLt⟩
  · obtain ⟨h0, h1, h2, h3, h4, h5, h6, h7⟩ := triggerPayload_fields i tgt c y rq dn ar co
    refine ⟨rfl, Payload.bytes_length _, h0, h1.trans (by cases tgt <;> rfl), h2.trans (by cases c <;> rfl), h3.trans (by cases y <;> rfl),
      h4, h5, h6.trans ?_, h7⟩
    rw [bit_eq]
    rfl
  · exact ⟨rfl, Payload.field_at (i := 0) rfl rfl (by have := ch.isLt; omega), Payload.field_at (i := 1) rfl rfl (by decide),
      Payload.field_at (i := 2) rfl rfl (by omega), Payload.bytes_behind rfl, Payload.bytes_length _⟩
  · exact ⟨rfl, Payload.bytes_length _, Payload.field_at (i := 0) rfl rfl (by omega), Payload.field_at (i := 1) rfl rfl v.isLt⟩
  · exact ⟨rfl, Payload.bytes_length _, Payload.byteAt_at (i := 0) rfl rfl, Payload.field_at (i := 1) rfl rfl (by decide),
      Payload.field_at (i := 2) rfl rfl (by omega), Payload.field_at (i := 3) rfl rfl (by omega), Payload.field_at (i := 4) rfl rfl (by omega),
      Payload.field_at (i := 5) rfl rfl (by omega), Payload.field_at (i := 6) rfl rfl (by omega)⟩
  · exact ⟨rfl, (Payload.field_at (i := 0) rfl rfl f.code_lt).trans f.code_eq, Payload.field_at (i := 1) rfl rfl (by decide),
      Payload.field_at (i := 2) rfl rfl (by omega), Payload.bytes_behind rfl, Payload.bytes_length _⟩
  · exact ⟨rfl, Payload.bytes_length _, (Payload.field_at (i := 0) rfl rfl ev.code_lt).trans (by cases ev <;> rfl),
      (Payload.field_at (i := 1) rfl rfl st.code_lt).trans (by cases st <;> rfl),
      Payload.field_at (i := 2) rfl rfl (by have := cls.isLt; omega),
      (Payload.field_at (i := 3) rfl rfl k.code_lt).trans (by cases k <;> rfl),
      Payload.field_at (i := 4) rfl rfl (by omega), Payload.field_at (i := 5) rfl rfl (by decide)⟩
  · have htr := bit_le tr
    exact ⟨rfl, Payload.bytes_length _, Payload.field_at (i := 0) rfl rfl (by have := tag.isLt; omega),
      (Payload.field_at (i := 1) rfl rfl op.code_lt).trans (by cases op <;> rfl),
      (Payload.field_at (i := 2) rfl rfl o.result.code_lt).trans (by cases o <;> rfl),
      (Payload.field_at (i := 3) rfl rfl o.sub_lt).trans o.sub_eq,
      Payload.field_at (i := 4) rfl rfl (show bit tr < 256 by omega), Payload.field_at (i := 5) rfl rfl (by decide),
      Payload.field_at (i := 6) rfl rfl (by omega), Payload.field_at (i := 7) rfl rfl h.isLt,
      Payload.field_at (i := 8) rfl rfl a.isLt, fun i w hw => access_word hw⟩

end Sys2Proof.Machine
end

section
/-! A firing in two parts: what CAP records of it, then its other actions (R124). -/

namespace Sys2Proof.Machine

/-! ## The records of a firing -/

/-- A station's CAP, seal mark and attention bits but TRIGGER may have changed. -/
def Ctx.notedFrom (c d : Ctx) : Prop :=
  c.effs = d.effs ∧ c.st = { d.st with cap := c.st.cap, pg := { d.st.pg with mark := c.st.pg.mark } }
    ∧ c.att.getLsbD Attn.trigger.num = d.att.getLsbD Attn.trigger.num

theorem Ctx.notedFrom_refl (c : Ctx) : c.notedFrom c := ⟨rfl, rfl, rfl⟩

theorem Ctx.notedFrom.trans {c d e : Ctx} (h : c.notedFrom d) (h' : d.notedFrom e) : c.notedFrom e := by
  obtain ⟨heffs, hst, hatt⟩ := h
  obtain ⟨heffs', hst', hatt'⟩ := h'
  refine ⟨heffs.trans heffs', ?_, hatt.trans hatt'⟩
  rw [hst, hst']

theorem bits_trigger (o : CapOut) : o.bits.getLsbD Attn.trigger.num = false := by
  unfold CapOut.bits
  split_ifs <;> decide

theorem or_bits_trigger (a : BitVec 11) (o : CapOut) : (a ||| o.bits).getLsbD Attn.trigger.num = a.getLsbD Attn.trigger.num := by
  rw [BitVec.getLsbD_or, bits_trigger, Bool.or_false]

theorem Ctx.capOut_noted (c : Ctx) (o : CapOut) : (c.capOut o).notedFrom c := by
  rw [Ctx.capOut_eq]
  refine ⟨rfl, ?_, ?_⟩
  · show c.st.take o = _
    rw [Station.take_eq]
  · exact or_bits_trigger ..

theorem whenAct_noted {f : Ctx → Ctx} (hf : ∀ c, (f c).notedFrom c) (acts : BitVec 8) (i : Nat) (c : Ctx) :
    (whenAct acts i f c).notedFrom c := by
  unfold whenAct
  split_ifs
  · exact hf c
  · exact c.notedFrom_refl

section
variable (e : Env) (p : Program) (i : Fin 4) (st : Step) (cause : Cause)

/-- The actions of a firing that have been done, as its TRIGGER record says (R12, R127). -/
def firedDone (c : Ctx) : BitVec 8 :=
  let acts := (st.chosen cause).1
  let already := hasAct acts 0 && c.st.cap.state.admitting
  let overrun := hasAct acts 4 && c.st.haltOutcome == .overrun
  let trial := whenAct acts 2 (offerRec e (stepMark e p i))
    (whenAct acts 1 (offerRec e (triggerRecord e i st cause 0 already overrun)) (whenAct acts 0 (startCapture e) c))
  doneSet acts (!c.st.cap.state.admitting) (trial.st.cap.state != .stopped) c.st.haltOutcome.isDone c.st.canPulse

/-- The TRIGGER record of a firing with these actions done. -/
def firedTrigger (c : Ctx) (done : BitVec 8) : SrcRec :=
  let acts := (st.chosen cause).1
  triggerRecord e i st cause done (hasAct acts 0 && c.st.cap.state.admitting) (hasAct acts 4 && c.st.haltOutcome == .overrun)

/-- START CAPTURE, TRIGGER RECORD and MARK, the record with these actions done. -/
def marked (c : Ctx) (done : BitVec 8) : Ctx :=
  let acts := (st.chosen cause).1
  whenAct acts 2 (offerRec e (stepMark e p i)) (whenAct acts 1 (offerRec e (firedTrigger e i st cause c done))
    (whenAct acts 0 (startCapture e) c))

/-- The first half of a firing: START CAPTURE, TRIGGER RECORD, MARK and STOP CAPTURE. -/
def recorded (c : Ctx) : Ctx :=
  whenAct (st.chosen cause).1 3 (stopCapture p.postCount) (marked e p i st cause c (firedDone e p i st cause c))

/-- The second half of a firing: HALT BOARD, PULSE RESET, DRIVE LINE and ATTENTION, then the target is entered. -/
def acted (acts : BitVec 8) (line : LineNo) (tgt : Target) (pulse : Bool) (d : Ctx) : Ctx :=
  (whenAct acts 7 (·.setAttn .trigger) (whenAct acts 6 (·.mod (driveLine e p line))
    (whenAct acts 5 (fun c => if pulse then startPulse e p.pulseWidth c else c) (whenAct acts 4 (haltBoard e) d)))).mod (enterTarget e p tgt)

theorem marked_noted (c : Ctx) (done : BitVec 8) : (marked e p i st cause c done).notedFrom c :=
  (whenAct_noted (fun c => c.capOut_noted _) ..).trans <|
    (whenAct_noted (fun c => c.capOut_noted _) ..).trans <| whenAct_noted (fun c => c.capOut_noted _) ..

theorem recorded_noted (c : Ctx) : (recorded e p i st cause c).notedFrom c :=
  (whenAct_noted (fun c => c.capOut_noted _) ..).trans (marked_noted ..)

end

/-! ## The other actions -/

section
variable (e : Env) (p : Program) (acts : BitVec 8) (line : LineNo) (tgt : Target) (pulse : Bool) (d : Ctx)

/-- The sequencer state a target gives (R124). -/
def Target.entered (tgt : Target) (p : Program) (now : Nat) : SeqState :=
  match tgt with
  | .done => .done
  | .step j => .armed j 0 (stepTimer p j now)

theorem enterTarget_eq (t : Station) : enterTarget e p tgt t = { t with ts := { t.ts with state := tgt.entered p e.now } } := by
  unfold enterTarget Target.entered
  cases tgt <;> rfl

/-- A power unit whose reset pulse has started (R109). -/
def PowerUnit.pulsed (b : PowerUnit) (now width : Nat) : PowerUnit :=
  { b with ctl := .pulse, pulse := some (now + width * 10000), held := none }

theorem startPulse_eq (w : Nat) (c : Ctx) : startPulse e w c
    = (Ctx.mk { c.st with bpu := c.st.bpu.pulsed e.now w } c.att c.effs).capOut
      (c.st.cap.offer c.st.prof.timeShift e.tb (powerRecord e .resetAsserted { c.st with bpu := c.st.bpu.pulsed e.now w })) := rfl

theorem haltBoard_keeps (c : Ctx) : (haltBoard e c).st = { c.st with lp := (haltBoard e c).st.lp, au := (haltBoard e c).st.au }
    ∧ (haltBoard e c).att = c.att := by
  unfold haltBoard
  split <;> exact ⟨rfl, rfl⟩

variable {e} in
/-- With the link UP and an entry free HALT BOARD issues its request (R73). -/
theorem haltBoard_issues {c : Ctx} (hup : c.st.lp.up = true) (hfree : c.st.au.entries.length < 4) : (haltBoard e c).st.linkSide
    = (c.st.lp.enqueue ⟨c.st.au.pickTag, ⟨.control, 1, [], 0, 0⟩⟩ true, { c.st.au with
        entries := c.st.au.entries ++ [ReqSpec.entry ⟨.control, 1, [], 0, 0⟩ c.st.au.pickTag e.now c.st.prof.responseTimeout .trigger]
        nextTag := tagAt c.st.au.pickTag.val 1 }) := by
  have ho : c.st.haltOutcome = .issue := by
    unfold Station.haltOutcome AccessUnit.hasFree
    rw [hup, show decide (c.st.au.entries.length < Config.maxEntries) = true from decide_eq_true hfree]
    rfl
  unfold haltBoard
  rw [ho]
  rfl

variable {e} in
/-- With the table full it goes into the holder, where it may already stand. -/
theorem haltBoard_holds {c : Ctx} (hup : c.st.lp.up = true) (hfull : 4 ≤ c.st.au.entries.length) :
    (haltBoard e c).st.linkSide = (c.st.lp, { c.st.au with holder := true }) := by
  have hno : c.st.au.hasFree = false := decide_eq_false (Nat.not_lt.mpr hfull)
  unfold haltBoard Station.haltOutcome
  rw [hup, hno]
  cases hh : c.st.au.holder with
  | false => rfl
  | true =>
    show (c.st.lp, c.st.au) = _
    exact congrArg (Prod.mk c.st.lp) (congrArg (fun b => { c.st.au with holder := b }) hh)

/-- HALT BOARD and PULSE RESET of a firing. -/
def halted (d : Ctx) : Ctx :=
  whenAct acts 5 (fun c => if pulse then startPulse e p.pulseWidth c else c) (whenAct acts 4 (haltBoard e) d)

/-- DRIVE LINE and ATTENTION change the sequencer and the attention bits alone. -/
theorem acted_eq : acted e p acts line tgt pulse d
    = ⟨{ (halted e p acts pulse d).st with ts := { (halted e p acts pulse d).st.ts with
          state := tgt.entered p e.now
          drives := if hasAct acts 6 then (halted e p acts pulse d).st.ts.drives.set line.val (some (e.now + p.driveUs * 100))
            else (halted e p acts pulse d).st.ts.drives } },
        if hasAct acts 7 then (halted e p acts pulse d).att ||| Attn.trigger.mask else (halted e p acts pulse d).att,
        (halted e p acts pulse d).effs⟩ := by
  unfold acted
  rw [show whenAct acts 5 (fun c => if pulse then startPulse e p.pulseWidth c else c) (whenAct acts 4 (haltBoard e) d)
    = halted e p acts pulse d from rfl]
  generalize halted e p acts pulse d = d'
  unfold Ctx.mod whenAct
  rw [enterTarget_eq]
  split_ifs <;> rfl

/-- A pulse that starts: the power unit pulsed, then its record (R109). -/
theorem halted_pulses (h : (hasAct acts 5 && pulse) = true) : halted e p acts pulse d
    = startPulse e p.pulseWidth (whenAct acts 4 (haltBoard e) d) := by
  obtain ⟨h5, hpulse⟩ := Bool.and_eq_true_iff.mp h
  unfold halted
  rw [hpulse]
  exact if_pos h5

theorem halted_quiet (h : (hasAct acts 5 && pulse) = false) : halted e p acts pulse d = whenAct acts 4 (haltBoard e) d := by
  unfold halted
  rcases Bool.and_eq_false_iff.mp h with h5 | hpulse
  · unfold whenAct
    rw [h5]
    rfl
  · rw [hpulse]
    exact ite_self _

theorem whenHalt_keeps : (whenAct acts 4 (haltBoard e) d).st = { d.st with
      lp := (whenAct acts 4 (haltBoard e) d).st.lp, au := (whenAct acts 4 (haltBoard e) d).st.au }
    ∧ (whenAct acts 4 (haltBoard e) d).att = d.att ∧ (whenAct acts 4 (haltBoard e) d).effs = d.effs := by
  unfold whenAct
  split_ifs
  · exact ⟨(haltBoard_keeps e d).1, (haltBoard_keeps e d).2, (haltBoard_fired e d).1⟩
  · exact ⟨rfl, rfl, rfl⟩

theorem halted_linkSide : (halted e p acts pulse d).st.linkSide = if hasAct acts 4 then (haltBoard e d).st.linkSide else d.st.linkSide := by
  have hhalt : (whenAct acts 4 (haltBoard e) d).st.linkSide = if hasAct acts 4 then (haltBoard e d).st.linkSide else d.st.linkSide :=
    apply_ite (fun c : Ctx => c.st.linkSide) ..
  rw [← hhalt]
  cases hp : hasAct acts 5 && pulse with
  | false => rw [halted_quiet e p acts pulse d hp]
  | true =>
    rw [halted_pulses e p acts pulse d hp, startPulse_eq]
    exact capOut_linkSide ..

/-- Neither action changes the sequencer; the power unit is pulsed where a pulse starts. -/
theorem halted_keeps : (halted e p acts pulse d).st.ts = d.st.ts
    ∧ (halted e p acts pulse d).st.bpu = (if (hasAct acts 5 && pulse) = true then d.st.bpu.pulsed e.now p.pulseWidth else d.st.bpu)
    ∧ (halted e p acts pulse d).att.getLsbD Attn.trigger.num = d.att.getLsbD Attn.trigger.num
    ∧ (halted e p acts pulse d).effs = d.effs := by
  obtain ⟨hst, hatt, heffs⟩ := whenHalt_keeps e acts d
  have hts := congrArg Station.ts hst
  have hbpu := congrArg Station.bpu hst
  cases hp : hasAct acts 5 && pulse with
  | false =>
    rw [halted_quiet e p acts pulse d hp]
    exact ⟨hts, hbpu, congrArg (BitVec.getLsbD · _) hatt, heffs⟩
  | true =>
    rw [halted_pulses e p acts pulse d hp, startPulse_eq, Ctx.capOut_eq]
    refine ⟨(Station.take_ts ..).trans hts, (Station.take_bpu ..).trans (congrArg (PowerUnit.pulsed · _ _) hbpu),
      (or_bits_trigger ..).trans (congrArg (BitVec.getLsbD · _) hatt), heffs⟩

/-- The capture a firing's second half leaves: that of the first, with the RESET ASSERTED record of a pulse. -/
theorem halted_cap : (halted e p acts pulse d).st.cap = if (hasAct acts 5 && pulse) = true
    then (d.st.cap.offer d.st.prof.timeShift e.tb
      (powerRecord e .resetAsserted { d.st with bpu := d.st.bpu.pulsed e.now p.pulseWidth })).cap
    else d.st.cap := by
  obtain ⟨hst, -, -⟩ := whenHalt_keeps e acts d
  cases hp : hasAct acts 5 && pulse with
  | false =>
    rw [halted_quiet e p acts pulse d hp, hst]
    rfl
  | true =>
    rw [halted_pulses e p acts pulse d hp, startPulse_eq, Ctx.capOut_eq, hst]
    exact Station.take_cap ..

end

end Sys2Proof.Machine
end

section
/-! The capture a firing leaves, and its actions done (R12, R124, R127). -/

namespace Sys2Proof.Machine

/-! ## Captures that differ in payloads alone -/

/-- Two captures behave alike: they differ in what the staged and the held records say. -/
def Capture.alike (c d : Capture) : Prop :=
  c.state = d.state ∧ c.historySize = d.historySize ∧ c.used = d.used ∧ c.ref = d.ref ∧ c.loss = d.loss ∧ c.pend = d.pend

theorem Capture.alike_refl (c : Capture) : c.alike c := ⟨rfl, rfl, rfl, rfl, rfl, rfl⟩

section
variable {c d : Capture} {k : Nat} {tb : Tick} {r r' : SrcRec}

theorem Capture.alike.free (h : c.alike d) : c.free = d.free := by
  unfold Capture.free
  rw [h.2.2.1]

theorem Capture.alike.needed (h : c.alike d) (u size : Nat) : c.needed k u size = d.needed k u size := by
  obtain ⟨-, -, -, href, -⟩ := h
  unfold Capture.needed Capture.anchorFor
  rw [href]

theorem Capture.alike.append (h : c.alike d) (u : Nat) {p p' : Payload} (hp : p.size = p'.size) (f f' : RecFlags) :
    (c.append k u p f).alike (d.append k u p' f') := by
  have hneeded := h.needed (k := k) u p'.size
  obtain ⟨hstate, hsize, hused, href, hloss, hpend⟩ := h
  refine ⟨?_, ?_, ?_, ?_, ?_, ?_⟩
  · rw [Capture.append_state, Capture.append_state, hstate]
  · rw [Capture.append_historySize, Capture.append_historySize, hsize]
  · rw [Capture.append_used, Capture.append_used, hp, hneeded, hused]
  · rw [Capture.append_ref, Capture.append_ref, href]
  · rw [Capture.append_loss, Capture.append_loss, hloss]
  · exact (congrArg Capture.pend (Capture.append_frame c k u p f)).trans (hpend.trans
      (congrArg Capture.pend (Capture.append_frame d k u p' f')).symm)

theorem Capture.alike.admitNormal (h : c.alike d) (hs : r.size = r'.size) (he : r.entry = r'.entry) :
    (c.admitNormal k r).cap.alike (d.admitNormal k r').cap := by
  have hfree := h.free
  have hneeded := h.needed (k := k) (unitOf k r'.entry) r'.size
  have hsize : (admittedPayload r.payload k (unitOf k r.entry) r.first).size
      = (admittedPayload r'.payload k (unitOf k r'.entry) r'.first).size := by
    rw [admittedPayload_size, admittedPayload_size]
    exact hs
  unfold Capture.admitNormal
  dsimp only
  rw [he, hs, hneeded, hfree]
  rw [he] at hsize
  split_ifs
  · exact h.append _ hsize _ _
  · obtain ⟨hstate, hhist, hused, href, -, -⟩ := h
    exact ⟨hstate, hhist, hused, href, rfl, rfl⟩

theorem Capture.alike.countLost (h : c.alike d) (hs : r.size = r'.size) : (c.countLost r).cap.alike (d.countLost r').cap := by
  obtain ⟨hstate, hhist, hused, href, hloss, hpend⟩ := h
  unfold Capture.countLost
  dsimp only
  rw [hs, hpend, hstate]
  split_ifs
  · cases d.state
    all_goals exact ⟨rfl, hhist, hused, href, hloss, rfl⟩
  · exact ⟨rfl, hhist, hused, href, hloss, rfl⟩

theorem Capture.alike.admission (h : c.alike d) (hs : r.size = r'.size) (he : r.entry = r'.entry) :
    (c.admission k tb r).cap.alike (d.admission k tb r').cap := by
  have hcan : c.canRecover = d.canRecover := by
    unfold Capture.canRecover
    rw [h.free, h.2.2.2.2.1]
  unfold Capture.admission
  rw [hcan, h.2.2.2.2.1]
  split_ifs
  · refine Capture.alike.admitNormal ?_ hs he
    have happ := h.append (k := k) (unitOf k tb) (p := .gap c.pend.records c.pend.bytes c.pend.firstUnit)
      (p' := .gap d.pend.records d.pend.bytes d.pend.firstUnit) rfl RecFlags.none RecFlags.none
    obtain ⟨hstate, hhist, hused, href, -, -⟩ := happ
    exact ⟨hstate, hhist, hused, href, rfl, rfl⟩
  · exact h.countLost hs
  · exact h.admitNormal hs he

/-- Offers of records of one size and one entry time leave captures alike. -/
theorem Capture.alike.offer (h : c.alike d) (hs : r.size = r'.size) (he : r.entry = r'.entry) :
    (c.offer k tb r).cap.alike (d.offer k tb r').cap := by
  have hadm := h.admission (k := k) (tb := tb) hs he
  obtain ⟨hstate, hhist, hused, href, hloss, hpend⟩ := h
  unfold Capture.offer
  rw [hstate]
  cases hd : d.state with
  | stopped => exact ⟨hstate, hhist, hused, href, hloss, hpend⟩
  | watching =>
    unfold Capture.hold
    rw [hhist, hs]
    split_ifs
    · exact ⟨hstate, hhist, hused, href, hloss, hpend⟩
    · exact ⟨hstate, rfl, hused, href, hloss, hpend⟩
  | recording => exact hadm
  | stopping n =>
    dsimp only
    rw [hadm.1]
    cases ha : (d.admission k tb r').cap.state with
    | stopping m =>
      obtain ⟨-, hhist, hused, href, hloss, hpend⟩ := hadm
      dsimp only
      split_ifs
      · exact ⟨rfl, hhist, hused, href, hloss, hpend⟩
      · exact ⟨rfl, hhist, hused, href, hloss, hpend⟩
    | _ => exact hadm

end

/-! ## The capture formula of a firing -/

theorem CaptureState.admitting_eq (x : CaptureState) : x.admitting = x.records := by
  cases x <;> rfl

theorem Capture.stop_cap (c : Capture) (n : Nat) : (c.stop n).cap = c.stopped n := by
  unfold Capture.stop Capture.stopped
  cases c.state with
  | recording => split_ifs <;> rfl
  | stopping m => split_ifs <;> rfl
  | _ => rfl

theorem whenAct_cap {o : Ctx → CapOut} (acts : BitVec 8) (i : Nat) (c : Ctx) :
    (whenAct acts i (fun c => c.capOut (o c)) c).st.cap = if acts.getLsbD i then (o c).cap else c.st.cap := by
  unfold whenAct hasAct
  split_ifs
  · show (c.capOut (o c)).st.cap = _
    rw [Ctx.capOut_eq]
    exact Station.take_cap ..
  · rfl

theorem Ctx.notedFrom.prof {c d : Ctx} (h : c.notedFrom d) : c.st.prof = d.st.prof := by
  obtain ⟨-, hst, -⟩ := h
  unfold Station.prof
  rw [hst]

section
variable (e : Env) (p : Program) (i : Fin 4) (st : Step) (cause : Cause) (c : Ctx) (done : BitVec 8)

/-- The capture that START CAPTURE, TRIGGER RECORD and MARK leave. -/
theorem marked_cap :
    let acts := (st.chosen cause).1
    let k := c.st.prof.timeShift
    let begun := if acts.getLsbD 0 then (c.st.cap.start k e.tb).cap else c.st.cap
    let noted := if acts.getLsbD 1 then (begun.offer k e.tb (firedTrigger e i st cause c done)).cap else begun
    (marked e p i st cause c done).st.cap = if acts.getLsbD 2 then (noted.offer k e.tb (stepMark e p i)).cap else noted := by
  intro acts k begun noted
  have hbegun : (whenAct acts 0 (startCapture e) c).st.cap = begun := whenAct_cap acts 0 c
  have hbprof : (whenAct acts 0 (startCapture e) c).st.prof = c.st.prof := (whenAct_noted (fun c => c.capOut_noted _) acts 0 c).prof
  have hnoted : (whenAct acts 1 (offerRec e (firedTrigger e i st cause c done)) (whenAct acts 0 (startCapture e) c)).st.cap = noted := by
    refine (whenAct_cap acts 1 _).trans ?_
    rw [hbegun, hbprof]
  have hnprof := (whenAct_noted (fun c => c.capOut_noted _) acts 1 (whenAct acts 0 (startCapture e) c)
    (f := offerRec e (firedTrigger e i st cause c done))).prof.trans hbprof
  refine (whenAct_cap acts 2 _).trans ?_
  rw [hnoted, hnprof]

theorem recorded_cap : (recorded e p i st cause c).st.cap = if (st.chosen cause).1.getLsbD 3
    then (marked e p i st cause c (firedDone e p i st cause c)).st.cap.stopped p.postCount
    else (marked e p i st cause c (firedDone e p i st cause c)).st.cap := by
  refine (whenAct_cap _ 3 _).trans ?_
  rw [Capture.stop_cap]

/-- The state STOP CAPTURE meets does not depend on the actions the TRIGGER record calls done. -/
theorem marked_state (done' : BitVec 8) : (marked e p i st cause c done).st.cap.state = (marked e p i st cause c done').st.cap.state := by
  rw [marked_cap, marked_cap]
  have hnoted : ∀ b : Capture, (if (st.chosen cause).1.getLsbD 1
        then (b.offer c.st.prof.timeShift e.tb (firedTrigger e i st cause c done)).cap else b).alike
      (if (st.chosen cause).1.getLsbD 1
        then (b.offer c.st.prof.timeShift e.tb (firedTrigger e i st cause c done')).cap else b) := fun b => by
    split_ifs
    · exact b.alike_refl.offer rfl rfl
    · exact b.alike_refl
  by_cases h2 : (st.chosen cause).1.getLsbD 2
  · rw [if_pos h2, if_pos h2]
    exact ((hnoted _).offer rfl rfl).1
  · rw [if_neg h2, if_neg h2]
    exact (hnoted _).1

end

end Sys2Proof.Machine
end

section
/-! What a report or a step timer's end makes of a station (R119 to R124, R127). -/

namespace Sys2Proof.Machine

/-! ## The actions done -/

theorem doneSet_bit (acts : BitVec 8) (a b c d : Bool) : ∀ j < 8, (doneSet acts a b c d).getLsbD j = (acts.getLsbD j && match j with
    | 0 => a
    | 3 => b
    | 4 => c
    | 5 => d
    | _ => true) := by
  have hmask : ∀ (a b c d : Bool) (j : Fin 8),
      (BitVec.ofNat 8 (bit a + 2 + 4 + 8 * bit b + 16 * bit c + 32 * bit d + 64 + 128)).getLsbD j.val = match j.val with
      | 0 => a
      | 3 => b
      | 4 => c
      | 5 => d
      | _ => true := by decide
  intro j hj
  unfold doneSet
  rw [BitVec.getLsbD_and, hmask a b c d ⟨j, hj⟩]

theorem Station.haltOutcome_overrun (t : Station) :
    (t.haltOutcome == .overrun) = (t.lp.up && decide (4 ≤ t.au.entries.length) && t.au.holder) := by
  unfold Station.haltOutcome AccessUnit.hasFree
  have hfull : decide (t.au.entries.length < Config.maxEntries) = !decide (4 ≤ t.au.entries.length) := by
    rw [← decide_not]
    exact decide_eq_decide.mpr Nat.not_le.symm
  rw [hfull]
  generalize t.lp.up = x, decide (4 ≤ t.au.entries.length) = y, t.au.holder = z
  revert x y z
  decide

theorem Station.haltOutcome_done (t : Station) :
    t.haltOutcome.isDone = (t.lp.up && (!decide (4 ≤ t.au.entries.length) || !t.au.holder)) := by
  unfold Station.haltOutcome AccessUnit.hasFree
  have hfull : decide (t.au.entries.length < Config.maxEntries) = !decide (4 ≤ t.au.entries.length) := by
    rw [← decide_not]
    exact decide_eq_decide.mpr Nat.not_le.symm
  rw [hfull]
  generalize t.lp.up = x, decide (4 ≤ t.au.entries.length) = y, t.au.holder = z
  revert x y z
  decide

/-! ## A firing at a state -/

section
variable (s : State) (n : StationNo) (u : Station) (a : BitVec 11) (p : Program) (i : Fin 4) (st : Machine.Step) (cause : Cause)

/-- The first half of a firing at station n having become `u`. -/
def State.recorded : Ctx := Machine.recorded (s.env n) p i st cause ⟨u, a, []⟩

theorem State.firedTrigger_eq (done : BitVec 8) : firedTrigger (s.env n) i st cause ⟨u, a, []⟩ done
    = s.recordNow (.trigger i (st.chosen cause).2 cause st.cond.kind (st.chosen cause).1 done
      ((st.chosen cause).1.getLsbD 0 && u.cap.state.records)
      ((st.chosen cause).1.getLsbD 4 && u.lp.up && decide (4 ≤ u.au.entries.length) && u.au.holder)) := by
  unfold firedTrigger triggerRecord
  dsimp only
  rw [CaptureState.admitting_eq, Station.haltOutcome_overrun, ← Bool.and_assoc, ← Bool.and_assoc]
  rfl

/-- The capture of a firing (R124). -/
theorem State.recorded_fires : u.fires s p i st.cond.kind (st.chosen cause).2 cause (st.chosen cause).1 (s.recorded n u a p i st cause).st.cap := by
  have hcap := marked_cap (s.env n) p i st cause ⟨u, a, []⟩ (firedDone (s.env n) p i st cause ⟨u, a, []⟩)
  rw [State.firedTrigger_eq] at hcap
  refine ⟨firedDone (s.env n) p i st cause ⟨u, a, []⟩, ?_, ?_⟩
  · intro j hj
    refine (doneSet_bit (st.chosen cause).1 (!u.cap.state.admitting)
      ((marked (s.env n) p i st cause ⟨u, a, []⟩ 0).st.cap.state != .stopped) u.haltOutcome.isDone u.canPulse j hj).trans ?_
    rw [marked_state (done' := firedDone (s.env n) p i st cause ⟨u, a, []⟩), hcap, CaptureState.admitting_eq,
      Station.haltOutcome_done]
    rfl
  · have hrec := recorded_cap (s.env n) p i st cause ⟨u, a, []⟩
    rw [hcap] at hrec
    exact hrec

/-- The two halves of a firing at station n having become `u`. -/
def State.fired : Ctx := Machine.acted (s.env n) p (st.chosen cause).1 st.line (st.chosen cause).2 u.canPulse (s.recorded n u a p i st cause)

theorem State.fire_fired : fire (s.env n) p i st cause ⟨u, a, []⟩
    = (s.fired n u a p i st cause, hasAct (st.chosen cause).1 5 && u.canPulse) := rfl

/-- A firing that starts no pulse. -/
theorem State.followUp_quiet (h : (hasAct (st.chosen cause).1 5 && u.canPulse) = false) :
    s.withStation n (fun e _ => followUp e (fire e p i st cause ⟨u, a, []⟩))
      = s.put n (s.fired n u a p i st cause).st (s.fired n u a p i st cause).att := by
  refine State.withStation_quiet ?_
  have heffs : (s.fired n u a p i st cause).effs = [] := (Machine.fire_fired (s.env n) p i st cause ⟨u, a, []⟩).1
  rw [State.fire_fired, h]
  exact Ctx.eq_of_effs_nil heffs

theorem takeReport_noPulse {e : Env} {c : Ctx} (h : c.st.canPulse = false) (x : Cond) : report e x c = (takeReport e x c).1 := by
  unfold report followUp
  rw [(takeReport_bpu h e x).2]
  rfl

/-- A firing that starts a pulse reports RESET ASSERTED after it (R123, log 11). -/
theorem State.followUp_pulses (h : (hasAct (st.chosen cause).1 5 && u.canPulse) = true) :
    s.withStation n (fun e _ => followUp e (fire e p i st cause ⟨u, a, []⟩))
      = s.putReport n (s.fired n u a p i st cause).st (s.fired n u a p i st cause).att (.power .resetAsserted) := by
  have heffs : (s.fired n u a p i st cause).effs = [] := (Machine.fire_fired (s.env n) p i st cause ⟨u, a, []⟩).1
  have hbpu : (s.fired n u a p i st cause).st.canPulse = false := by
    have hpulsed : (s.fired n u a p i st cause).st.bpu = _ := (congrArg (fun c : Ctx => c.st.bpu) (acted_eq ..)).trans (halted_keeps ..).2.1
    rw [if_pos h] at hpulsed
    unfold Station.canPulse
    rw [hpulsed]
    exact Bool.and_false _
  refine State.withStation_congr ?_
  rw [State.fire_fired, h, ← Ctx.eq_of_effs_nil heffs, takeReport_noPulse hbpu]
  rfl

/-! ### What it leaves -/

theorem State.recorded_keeps : (s.recorded n u a p i st cause).st = { u with
      cap := (s.recorded n u a p i st cause).st.cap
      pg := { u.pg with mark := (s.recorded n u a p i st cause).st.pg.mark } }
    ∧ (s.recorded n u a p i st cause).att.getLsbD Attn.trigger.num = a.getLsbD Attn.trigger.num := by
  obtain ⟨-, hst, hatt⟩ := recorded_noted (s.env n) p i st cause ⟨u, a, []⟩
  exact ⟨hst, hatt⟩

theorem State.fired_ts : (s.fired n u a p i st cause).st.ts = { u.ts with
    state := (st.chosen cause).2.entered p s.elapsed
    drives := if hasAct (st.chosen cause).1 6 then u.ts.drives.set st.line.val (some (s.elapsed + p.driveUs * 100)) else u.ts.drives } := by
  have hts : (halted (s.env n) p (st.chosen cause).1 u.canPulse (s.recorded n u a p i st cause)).st.ts = u.ts :=
    (halted_keeps ..).1.trans ((congrArg Station.ts (State.recorded_keeps s n u a p i st cause).1).trans rfl)
  unfold State.fired
  rw [acted_eq]
  dsimp only
  rw [hts]
  rfl

theorem State.fired_cap : (s.fired n u a p i st cause).st.cap = if (hasAct (st.chosen cause).1 5 && u.canPulse) = true
    then ((s.recorded n u a p i st cause).st.cap.offer u.prof.timeShift s.tb
      (s.powerRec .resetAsserted (u.bpu.pulsed s.elapsed p.pulseWidth))).cap
    else (s.recorded n u a p i st cause).st.cap := by
  obtain ⟨hst, -⟩ := State.recorded_keeps s n u a p i st cause
  have hprof : (s.recorded n u a p i st cause).st.prof = u.prof := (recorded_noted (s.env n) p i st cause ⟨u, a, []⟩).prof
  have hbpu : (s.recorded n u a p i st cause).st.bpu = u.bpu := (congrArg Station.bpu hst).trans rfl
  have hcap := halted_cap (s.env n) p (st.chosen cause).1 u.canPulse (s.recorded n u a p i st cause)
  rw [hprof] at hcap
  unfold powerRecord at hcap
  rw [hbpu] at hcap
  exact (congrArg (fun c : Ctx => c.st.cap) (acted_eq ..)).trans hcap

end

end Sys2Proof.Machine
end

section
/-! Reports at a state: not matched, counted, fired (R119 to R124). -/

namespace Sys2Proof.Machine

/-! ## A report at an armed sequencer -/

section
variable {s : State} {n : StationNo} {u : Station} {a : BitVec 11} {x : Cond} {i : Fin 4} {k : Nat} {timer : Option Nat}
  {p : Program} {st : Machine.Step}

theorem Sequencer.current_of {q : Sequencer} (hs : q.state = .armed i k timer) (hp : q.program = some p) (hi : p.steps[i.val]? = some st) :
    q.current = some (i, k, st, p) := by
  unfold Sequencer.current
  rw [hs, hp]
  dsimp only
  rw [hi]
  rfl

variable (hs : u.ts.state = .armed i k timer) (hp : u.ts.program = some p) (hi : p.steps[i.val]? = some st)
include hs hp hi

theorem State.putReport_misses (hm : st.cond.matches x = false) : s.putReport n u a x = s.put n u a := by
  refine State.withStation_quiet ?_
  unfold report takeReport
  rw [Sequencer.current_of hs hp hi]
  dsimp only
  rw [hm]
  rfl

theorem State.putReport_counts (hm : st.cond.matches x = true) (hk : k + 1 < st.count) :
    s.putReport n u a x = s.put n { u with ts := { u.ts with state := .armed i (k + 1) timer } } a := by
  have hcount : u.ts.setCount (k + 1) = { u.ts with state := .armed i (k + 1) timer } := by
    unfold Sequencer.setCount
    rw [hs]
  refine State.withStation_quiet ?_
  unfold report takeReport
  rw [Sequencer.current_of hs hp hi]
  dsimp only
  rw [if_pos hm, if_neg (Nat.not_le.mpr hk)]
  exact congrArg (fun q => Ctx.mk { u with ts := q } a []) hcount

theorem State.putReport_fires (hm : st.cond.matches x = true) (hk : st.count ≤ k + 1) :
    s.putReport n u a x = s.withStation n fun e _ => followUp e (fire e p i st .onMatch ⟨u, a, []⟩) := by
  refine State.withStation_congr ?_
  unfold report takeReport
  rw [Sequencer.current_of hs hp hi]
  dsimp only
  rw [if_pos hm, if_pos hk]

end

/-- A report matches by Table 7-5. -/
theorem StepCond.matches_iff (y : StepCond) (x : Cond) : y.matches x = true ↔
    (∃ lo hi v, y = .progress lo hi ∧ x = .progress v ∧ lo ≤ v ∧ v ≤ hi)
    ∨ (∃ p, y = .pattern p ∧ x = .pattern p)
    ∨ (∃ ch value mask first, y = .trace ch value mask ∧ x = .trace ch first
      ∧ (mask = 0 ∨ ∃ b, first = some b ∧ b &&& mask = value &&& mask))
    ∨ (∃ code, y = .notice code ∧ x = .notice code)
    ∨ (∃ ev, y = .power ev ∧ x = .power ev)
    ∨ (∃ l, y = .benchLine l ∧ x = .benchLine l)
    ∨ (y = .accessError ∧ x = .accessError) := by
  constructor
  · intro h
    cases y with
    | progress lo hi =>
      cases x with
      | progress v => exact .inl ⟨lo, hi, v, rfl, rfl, of_decide_eq_true h⟩
      | _ => cases h
    | pattern p =>
      cases x with
      | pattern q => exact .inr (.inl ⟨p, rfl, congrArg Cond.pattern (beq_iff_eq.mp h).symm⟩)
      | _ => cases h
    | trace ch value mask =>
      cases x with
      | trace ch' first =>
        obtain ⟨hch, hm⟩ := Bool.and_eq_true_iff.mp h
        refine .inr (.inr (.inl ⟨ch, value, mask, first, rfl, congrArg (Cond.trace · first) (beq_iff_eq.mp hch).symm, ?_⟩))
        refine (Bool.or_eq_true_iff.mp hm).imp beq_iff_eq.mp fun hany => ?_
        cases first with
        | none => cases hany
        | some b => exact ⟨b, rfl, beq_iff_eq.mp hany⟩
      | _ => cases h
    | notice code =>
      cases x with
      | notice code' => exact .inr (.inr (.inr (.inl ⟨code, rfl, congrArg Cond.notice (beq_iff_eq.mp h).symm⟩)))
      | _ => cases h
    | power ev =>
      cases x with
      | power ev' => exact .inr (.inr (.inr (.inr (.inl ⟨ev, rfl, congrArg Cond.power (beq_iff_eq.mp h).symm⟩))))
      | _ => cases h
    | benchLine l =>
      cases x with
      | benchLine l' => exact .inr (.inr (.inr (.inr (.inr (.inl ⟨l, rfl, congrArg Cond.benchLine (beq_iff_eq.mp h).symm⟩)))))
      | _ => cases h
    | accessError =>
      cases x with
      | accessError => exact .inr (.inr (.inr (.inr (.inr (.inr ⟨rfl, rfl⟩)))))
      | _ => cases h
    | elapsed => cases x <;> cases h
  · rintro (⟨lo, hi, v, rfl, rfl, h⟩ | ⟨p, rfl, rfl⟩ | ⟨ch, value, mask, first, rfl, rfl, h⟩ | ⟨code, rfl, rfl⟩ | ⟨ev, rfl, rfl⟩ | ⟨l, rfl, rfl⟩
      | ⟨rfl, rfl⟩)
    · exact decide_eq_true h
    · exact beq_self_eq_true p
    · refine Bool.and_eq_true_iff.mpr ⟨beq_self_eq_true ch, Bool.or_eq_true_iff.mpr (h.imp beq_iff_eq.mpr fun ⟨b, hb, heq⟩ => ?_)⟩
      rw [hb]
      exact beq_iff_eq.mpr heq
    · exact beq_self_eq_true code
    · exact beq_self_eq_true ev
    · exact beq_self_eq_true l
    · rfl

/-! ## Actions not in the set -/

theorem whenAct_out {acts : BitVec 8} {i : Nat} (h : hasAct acts i = false) (f : Ctx → Ctx) (c : Ctx) : whenAct acts i f c = c :=
  if_neg (by rw [h]; decide)

/-! ## The station a firing leaves -/

section
variable {s : State} {n : StationNo} {u : Station} {a : BitVec 11} {p : Program} {i : Fin 4} {st : Machine.Step} {cause : Cause}

theorem State.fired_frame : (s.fired n u a p i st cause).st.queue = u.queue ∧ (s.fired n u a p i st cause).st.head = u.head
    ∧ (s.fired n u a p i st cause).st.cu = u.cu ∧ (s.fired n u a p i st cause).st.state = u.state
    ∧ (s.fired n u a p i st cause).st.profile = u.profile ∧ (s.fired n u a p i st cause).st.pageQ = u.pageQ := by
  have h : (s.fired n u a p i st cause).st = _ := (Machine.fire_fired (s.env n) p i st cause ⟨u, a, []⟩).2
  exact ⟨(congrArg Station.queue h).trans rfl, (congrArg Station.head h).trans rfl, (congrArg Station.cu h).trans rfl,
    (congrArg Station.state h).trans rfl, (congrArg Station.profile h).trans rfl, (congrArg Station.pageQ h).trans rfl⟩

theorem State.fired_bpu (h : hasAct (st.chosen cause).1 5 = false) : (s.fired n u a p i st cause).st.bpu = u.bpu := by
  have hbpu := (halted_keeps (s.env n) p (st.chosen cause).1 u.canPulse (s.recorded n u a p i st cause)).2.1
  rw [h, Bool.false_and, if_neg Bool.false_ne_true] at hbpu
  exact (congrArg (fun c : Ctx => c.st.bpu) (acted_eq ..)).trans
    (hbpu.trans ((congrArg Station.bpu (State.recorded_keeps s n u a p i st cause).1).trans rfl))

theorem State.fired_linkSide : (s.fired n u a p i st cause).st.linkSide = if hasAct (st.chosen cause).1 4 = true
    then (haltBoard (s.env n) (s.recorded n u a p i st cause)).st.linkSide else (u.lp, u.au) := by
  have hside : (s.recorded n u a p i st cause).st.linkSide = (u.lp, u.au) :=
    (congrArg Station.linkSide (State.recorded_keeps s n u a p i st cause).1).trans rfl
  have hhalted := halted_linkSide (s.env n) p (st.chosen cause).1 u.canPulse (s.recorded n u a p i st cause)
  rw [hside] at hhalted
  exact (congrArg (fun c : Ctx => c.st.linkSide) (acted_eq ..)).trans hhalted

/-- What a firing's HALT BOARD sees of its station is what it was. -/
theorem State.recorded_side : (s.recorded n u a p i st cause).st.lp = u.lp ∧ (s.recorded n u a p i st cause).st.au = u.au
    ∧ (s.recorded n u a p i st cause).st.prof = u.prof :=
  ⟨(congrArg Station.lp (State.recorded_keeps s n u a p i st cause).1).trans rfl,
    (congrArg Station.au (State.recorded_keeps s n u a p i st cause).1).trans rfl,
    (recorded_noted (s.env n) p i st cause ⟨u, a, []⟩).prof⟩

theorem State.fired_issues (h4 : hasAct (st.chosen cause).1 4 = true) (hup : u.lp.up = true) (hfree : u.au.entries.length < 4) :
    (s.fired n u a p i st cause).st.au = { u.au with
        entries := u.au.entries ++ [ReqSpec.entry ⟨.control, 1, [], 0, 0⟩ u.au.pickTag s.elapsed u.prof.responseTimeout .trigger]
        nextTag := tagAt u.au.pickTag.val 1 }
      ∧ (s.fired n u a p i st cause).st.lp = u.lp.enqueue ⟨u.au.pickTag, ⟨.control, 1, [], 0, 0⟩⟩ true := by
  obtain ⟨hlp, hau, hprof⟩ := State.recorded_side (s := s) (n := n) (u := u) (a := a) (p := p) (i := i) (st := st) (cause := cause)
  have hside := State.fired_linkSide (s := s) (n := n) (u := u) (a := a) (p := p) (i := i) (st := st) (cause := cause)
  rw [if_pos h4, haltBoard_issues (by rw [hlp]; exact hup) (by rw [hau]; exact hfree), hlp, hau, hprof] at hside
  exact ⟨congrArg Prod.snd hside, congrArg Prod.fst hside⟩

theorem State.fired_holds (h4 : hasAct (st.chosen cause).1 4 = true) (hup : u.lp.up = true) (hfull : 4 ≤ u.au.entries.length) :
    (s.fired n u a p i st cause).st.au = { u.au with holder := true } ∧ (s.fired n u a p i st cause).st.lp = u.lp := by
  obtain ⟨hlp, hau, hprof⟩ := State.recorded_side (s := s) (n := n) (u := u) (a := a) (p := p) (i := i) (st := st) (cause := cause)
  have hside := State.fired_linkSide (s := s) (n := n) (u := u) (a := a) (p := p) (i := i) (st := st) (cause := cause)
  rw [if_pos h4, haltBoard_holds (by rw [hlp]; exact hup) (by rw [hau]; exact hfull), hlp, hau] at hside
  exact ⟨congrArg Prod.snd hside, congrArg Prod.fst hside⟩

theorem State.fired_noHalt (h : hasAct (st.chosen cause).1 4 = false ∨ u.lp.up = false) :
    (s.fired n u a p i st cause).st.au = u.au ∧ (s.fired n u a p i st cause).st.lp = u.lp := by
  obtain ⟨hlp, hau, -⟩ := State.recorded_side (s := s) (n := n) (u := u) (a := a) (p := p) (i := i) (st := st) (cause := cause)
  have hside := State.fired_linkSide (s := s) (n := n) (u := u) (a := a) (p := p) (i := i) (st := st) (cause := cause)
  have hkept : (s.fired n u a p i st cause).st.linkSide = (u.lp, u.au) := by
    by_cases h4 : hasAct (st.chosen cause).1 4 = true
    · rw [if_pos h4, haltBoard_down (s.env n) (by rw [hlp]; exact h.resolve_left (by rw [h4]; decide))] at hside
      exact hside.trans (congrArg₂ Prod.mk hlp hau)
    · rwa [if_neg h4] at hside
  exact ⟨congrArg Prod.snd hkept, congrArg Prod.fst hkept⟩

theorem State.fired_trigger : (s.fired n u a p i st cause).att.getLsbD Attn.trigger.num
    = (a.getLsbD Attn.trigger.num || hasAct (st.chosen cause).1 7) := by
  have hatt := (halted_keeps (s.env n) p (st.chosen cause).1 u.canPulse (s.recorded n u a p i st cause)).2.2.1.trans
    (State.recorded_keeps s n u a p i st cause).2
  refine (congrArg (fun c : Ctx => c.att.getLsbD Attn.trigger.num) (acted_eq ..)).trans ?_
  dsimp only
  cases h7 : hasAct (st.chosen cause).1 7 with
  | false => exact hatt.trans (Bool.or_false _).symm
  | true =>
    rw [if_pos rfl, BitVec.getLsbD_or, hatt, show Attn.trigger.mask.getLsbD Attn.trigger.num = true by decide]

/-- With no record and no capture action the first half does nothing. -/
theorem State.recorded_nothing (h0 : hasAct (st.chosen cause).1 0 = false) (h1 : hasAct (st.chosen cause).1 1 = false)
    (h2 : hasAct (st.chosen cause).1 2 = false) (h3 : hasAct (st.chosen cause).1 3 = false) :
    s.recorded n u a p i st cause = ⟨u, a, []⟩ := by
  unfold State.recorded Machine.recorded marked
  dsimp only
  rw [whenAct_out h3, whenAct_out h2, whenAct_out h1, whenAct_out h0]

theorem State.fired_pg (h5 : hasAct (st.chosen cause).1 5 = false) :
    (s.fired n u a p i st cause).st.pg = (s.recorded n u a p i st cause).st.pg := by
  have hquiet := halted_quiet (s.env n) p (st.chosen cause).1 u.canPulse (s.recorded n u a p i st cause) (by rw [h5]; rfl)
  refine (congrArg (fun c : Ctx => c.st.pg) (acted_eq ..)).trans ?_
  rw [hquiet]
  exact (congrArg Station.pg (whenHalt_keeps ..).1).trans rfl

end

end Sys2Proof.Machine
end

section
/-! O50: reports are counted and fire (R119 to R130). -/

namespace Sys2Proof.Machine

/-! ## A recording through the records of its own firing -/

/-- Capture is RECORDING, with at most `m` records lost. -/
def Capture.calm (c : Capture) (m : Nat) : Prop := c.state = .recording ∧ (c.loss = true → c.pend.records ≤ m)

section
variable {c : Capture} {k : Nat} {tb : Tick} {r : SrcRec} {m : Nat}

theorem Capture.admitNormal_calm (hs : c.state = .recording) (hl : c.loss = false) : (c.admitNormal k r).cap.calm (m + 1) := by
  unfold Capture.admitNormal
  dsimp only
  split_ifs
  · exact ⟨(Capture.append_state ..).trans hs, fun h => absurd ((Capture.append_loss ..).symm.trans h) (by rw [hl]; decide)⟩
  · exact ⟨hs, fun _ => Nat.le_add_left 1 m⟩

/-- An offer loses one record more at most. -/
theorem Capture.calm.offer (h : c.calm m) (hm : m + 1 < 4294967295) : (c.offer k tb r).cap.calm (m + 1) := by
  obtain ⟨hs, hlost⟩ := h
  have hoffer : c.offer k tb r = c.admission k tb r := by
    unfold Capture.offer
    rw [hs]
  rw [hoffer]
  unfold Capture.admission
  split_ifs with hcan hl
  · exact Capture.admitNormal_calm ((Capture.append_state ..).trans hs) rfl
  · rw [Capture.countLost_counts (Nat.lt_of_le_of_lt (Nat.succ_le_succ (hlost hl)) hm)]
    exact ⟨hs, fun _ => Nat.succ_le_succ (hlost hl)⟩
  · exact Capture.admitNormal_calm hs (Bool.eq_false_iff.mpr hl)

theorem Capture.stopped_none : (c.stopped 0).state = .stopped := by
  unfold Capture.stopped
  split
  case h_1 h => exact h
  case h_2 => rfl
  case h_3 => rfl
  case h_4 => rfl

end

/-! ## Firings of one action -/

section
variable {s : State} {n : StationNo} {u : Station} {a : BitVec 11} {p : Program} {i : Fin 4} {st : Machine.Step} {cause : Cause}

/-- START CAPTURE from STOPPED in NORMAL without STOP CAPTURE leaves RECORDING. -/
theorem State.recorded_starts (h0 : hasAct (st.chosen cause).1 0 = true) (h3 : hasAct (st.chosen cause).1 3 = false)
    (hs : u.cap.state = .stopped) (hl : u.cap.loss = false) : (s.recorded n u a p i st cause).st.cap.state = .recording := by
  have hcap : (s.recorded n u a p i st cause).st.cap = _ := recorded_cap (s.env n) p i st cause ⟨u, a, []⟩
  rw [if_neg (by rw [show (st.chosen cause).1.getLsbD 3 = false from h3]; decide), marked_cap,
    if_pos (show (st.chosen cause).1.getLsbD 0 = true from h0)] at hcap
  have hbegun : (u.cap.start u.prof.timeShift s.tb).cap.calm 0 := by
    unfold Capture.start
    rw [hs]
    exact ⟨rfl, fun h => absurd (hl.symm.trans h) nofun⟩
  have hnoted : ∀ r, (if (st.chosen cause).1.getLsbD 1
      then ((u.cap.start u.prof.timeShift s.tb).cap.offer u.prof.timeShift s.tb r).cap
      else (u.cap.start u.prof.timeShift s.tb).cap).calm 1 := fun r => by
    split_ifs
    · exact hbegun.offer (by decide)
    · exact ⟨hbegun.1, fun h => Nat.le_succ_of_le (hbegun.2 h)⟩
  rw [hcap]
  by_cases h2 : (st.chosen cause).1.getLsbD 2 = true
  · rw [if_pos h2]
    exact ((hnoted _).offer (by decide)).1
  · rw [if_neg h2]
    exact (hnoted _).1

theorem State.recorded_stops (h3 : hasAct (st.chosen cause).1 3 = true) (hp : p.postCount = 0) :
    (s.recorded n u a p i st cause).st.cap.state = .stopped := by
  have hcap : (s.recorded n u a p i st cause).st.cap = _ := recorded_cap (s.env n) p i st cause ⟨u, a, []⟩
  rw [if_pos (show (st.chosen cause).1.getLsbD 3 = true from h3), hp] at hcap
  rw [hcap]
  exact Capture.stopped_none

/-- A firing of records and capture actions alone. -/
theorem State.fired_plain (h4 : hasAct (st.chosen cause).1 4 = false) (h5 : (hasAct (st.chosen cause).1 5 && u.canPulse) = false)
    (h6 : hasAct (st.chosen cause).1 6 = false) (h7 : hasAct (st.chosen cause).1 7 = false) :
    (s.fired n u a p i st cause).st = { (s.recorded n u a p i st cause).st with
      ts := { u.ts with state := (st.chosen cause).2.entered p s.elapsed } }
    ∧ (s.fired n u a p i st cause).att = (s.recorded n u a p i st cause).att := by
  have hts : (s.recorded n u a p i st cause).st.ts = u.ts := (congrArg Station.ts (State.recorded_keeps s n u a p i st cause).1).trans rfl
  unfold State.fired
  rw [acted_eq, halted_quiet _ _ _ _ _ h5, whenAct_out h4]
  dsimp only
  rw [h6, h7, hts]
  exact ⟨rfl, rfl⟩

theorem Station.take_withTs (t : Station) (o : CapOut) (q : Sequencer) : ({ t with ts := q } : Station).take o = { t.take o with ts := q } := by
  unfold Station.take
  split <;> rfl

/-- A firing whose first half is one step of CAP. -/
theorem State.fired_takes {o : CapOut} (h4 : hasAct (st.chosen cause).1 4 = false) (h5 : hasAct (st.chosen cause).1 5 = false)
    (h6 : hasAct (st.chosen cause).1 6 = false) (h7 : hasAct (st.chosen cause).1 7 = false)
    (hrec : s.recorded n u a p i st cause = Ctx.capOut ⟨u, a, []⟩ o) :
    s.put n (s.fired n u a p i st cause).st (s.fired n u a p i st cause).att
      = s.put n (({ u with ts := { u.ts with state := (st.chosen cause).2.entered p s.elapsed } } : Station).take o) (a ||| o.bits) := by
  obtain ⟨hst, hatt⟩ := State.fired_plain (s := s) (n := n) (u := u) (a := a) (p := p) (i := i) h4
    (by rw [h5]; rfl) h6 h7
  rw [hst, hatt, hrec, Ctx.capOut_eq]
  exact congrArg (s.put n · (a ||| o.bits)) (Station.take_withTs u o _).symm

/-- What each single action of CAP makes of the first half. -/
theorem State.recorded_one {o : CapOut} (h : ((st.chosen cause).1 = 1#8 ∧ u.cap.start u.prof.timeShift s.tb = o)
    ∨ ((st.chosen cause).1 = 4#8 ∧ u.offer s.tb (s.recordNow (.mark p.marker (.step i) 0)) = o)
    ∨ ((st.chosen cause).1 = 8#8 ∧ u.cap.stop p.postCount = o)) :
    s.recorded n u a p i st cause = Ctx.capOut ⟨u, a, []⟩ o := by
  unfold State.recorded Machine.recorded marked
  rcases h with ⟨hacts, rfl⟩ | ⟨hacts, rfl⟩ | ⟨hacts, rfl⟩
  · rw [hacts]
    rfl
  · rw [hacts]
    rfl
  · rw [hacts]
    rfl

/-- A firing of PULSE RESET alone that starts a pulse (R109, R129). -/
theorem State.fired_pulse (hacts : (st.chosen cause).1 = 32#8) (hpulse : u.canPulse = true) :
    let v : Station := { u with
      ts := { u.ts with state := (st.chosen cause).2.entered p s.elapsed }, bpu := u.bpu.pulsed s.elapsed p.pulseWidth }
    let r := v.offer s.tb (s.powerRec .resetAsserted (u.bpu.pulsed s.elapsed p.pulseWidth))
    (s.fired n u a p i st cause).st = v.take r ∧ (s.fired n u a p i st cause).att = a ||| r.bits := by
  intro v r
  have hrec : s.recorded n u a p i st cause = ⟨u, a, []⟩ :=
    State.recorded_nothing (by rw [hacts]; decide) (by rw [hacts]; decide) (by rw [hacts]; decide) (by rw [hacts]; decide)
  have htake := Station.take_withTs { u with bpu := u.bpu.pulsed s.elapsed p.pulseWidth } r
    { u.ts with state := (st.chosen cause).2.entered p s.elapsed }
  unfold State.fired
  rw [hrec, acted_eq, halted_pulses _ _ _ _ _ (by rw [hacts, hpulse]; decide), hacts, whenAct_out (by decide), startPulse_eq, Ctx.capOut_eq]
  refine ⟨Eq.trans ?_ htake.symm, rfl⟩
  dsimp only
  rw [Station.take_ts]
  rfl

end

end Sys2Proof.Machine
end

section
/-! O50 and O51: reports and the step timer (R119 to R130). -/

namespace Sys2Proof.Machine

theorem Station.canPulse_iff (u : Station) : u.canPulse = true ↔ u.bpu.state = .on ∧ u.bpu.ctl = .released := by
  unfold Station.canPulse
  rw [Bool.and_eq_true, beq_iff_eq, beq_iff_eq]

section
variable {s : State} {n : StationNo} {u : Station} {a : BitVec 11} {p : Program} {i : Fin 4} {st : Machine.Step} {cause : Cause}

/-- A firing starts a pulse exactly where PULSE RESET is in its set and a pulse can start. -/
theorem pulses_iff : (hasAct (st.chosen cause).1 5 && u.canPulse) = true
    ↔ hasAct (st.chosen cause).1 5 = true ∧ u.bpu.state = .on ∧ u.bpu.ctl = .released := by
  rw [Bool.and_eq_true, Station.canPulse_iff]

/-- What a firing leaves, its record of a pulse and the report of one behind it. -/
theorem State.followUp_fires {t : State} (h : s.withStation n (fun e _ => followUp e (fire e p i st cause ⟨u, a, []⟩)) = t) :
    ∃ v a' c, u.fires s p i st.cond.kind (st.chosen cause).2 cause (st.chosen cause).1 c
      ∧ (¬ (hasAct (st.chosen cause).1 5 = true ∧ u.bpu.state = .on ∧ u.bpu.ctl = .released) → t = s.put n v a' ∧ v.cap = c)
      ∧ (hasAct (st.chosen cause).1 5 = true ∧ u.bpu.state = .on ∧ u.bpu.ctl = .released →
        t = s.putReport n v a' (.power .resetAsserted)
        ∧ v.cap = (c.offer u.prof.timeShift s.tb (s.powerRec .resetAsserted (u.bpu.pulsed s.elapsed p.pulseWidth))).cap) := by
  have hcap := State.fired_cap s n u a p i st cause
  refine ⟨(s.fired n u a p i st cause).st, (s.fired n u a p i st cause).att, (s.recorded n u a p i st cause).st.cap,
    State.recorded_fires s n u a p i st cause, fun hno => ?_, fun hpulse => ?_⟩
  · have hfalse : (hasAct (st.chosen cause).1 5 && u.canPulse) = false := Bool.eq_false_iff.mpr fun h => hno (pulses_iff.mp h)
    rw [hfalse, if_neg Bool.false_ne_true] at hcap
    exact ⟨h.symm.trans (State.followUp_quiet s n u a p i st cause hfalse), hcap⟩
  · have htrue := pulses_iff.mpr hpulse
    rw [if_pos htrue] at hcap
    exact ⟨h.symm.trans (State.followUp_pulses s n u a p i st cause htrue), hcap⟩

end

section
variable {s : State} {n : StationNo} {u : Station} {a : BitVec 11} {x : Cond} {i : Fin 4} {k : Nat} {timer : Option Nat}
  {p : Program} {st : Machine.Step}
  (hs : u.ts.state = .armed i k timer) (hp : u.ts.program = some p) (hi : p.steps[i.val]? = some st)
  (hm : st.cond.matches x = true) (hk : st.count ≤ k + 1)
include hs hp hi hm hk

theorem State.putReport_quiet (h : (hasAct st.matchActs 5 && u.canPulse) = false) : s.putReport n u a x
    = s.put n (s.fired n u a p i st .onMatch).st (s.fired n u a p i st .onMatch).att :=
  (State.putReport_fires hs hp hi hm hk).trans (State.followUp_quiet s n u a p i st .onMatch h)

/-- A firing of one action of CAP alone. -/
theorem State.putReport_takes {o : CapOut} (h : (st.matchActs = 1#8 ∧ u.cap.start u.prof.timeShift s.tb = o)
    ∨ (st.matchActs = 4#8 ∧ u.offer s.tb (s.recordNow (.mark p.marker (.step i) 0)) = o)
    ∨ (st.matchActs = 8#8 ∧ u.cap.stop p.postCount = o)) : s.putReport n u a x
    = s.put n (({ u with ts := { u.ts with state := st.next.entered p s.elapsed } } : Station).take o) (a ||| o.bits) := by
  have hrec := State.recorded_one (s := s) (n := n) (u := u) (a := a) (p := p) (i := i) (st := st) (cause := .onMatch) h
  have hout : ∀ j, j = 4 ∨ j = 5 ∨ j = 6 ∨ j = 7 → hasAct st.matchActs j = false := by
    rcases h with ⟨hacts, -⟩ | ⟨hacts, -⟩ | ⟨hacts, -⟩ <;> rw [hacts] <;> rintro j (rfl | rfl | rfl | rfl) <;> decide
  refine (State.putReport_quiet hs hp hi hm hk (by rw [hout 5 (by decide)]; rfl)).trans ?_
  exact State.fired_takes (cause := .onMatch) (hout 4 (by decide)) (hout 5 (by decide)) (hout 6 (by decide)) (hout 7 (by decide)) hrec

end

theorem CapOut.bits_none {o : CapOut} (h : o.lossEntered = false) (a : BitVec 11) : a ||| o.bits = a := by
  unfold CapOut.bits
  rw [h]
  exact BitVec.or_zero

/-- Settles O50: a report is missed, counted or fires, and a firing is the records of CAP, then the other actions. -/
theorem reportsAreCountedAndFire : Obligations.ReportsAreCountedAndFire := by
  refine ⟨⟨⟨fun s n u a x => ⟨fun hu => ?_, fun i k timer p st hs hp hi => ⟨State.putReport_misses hs hp hi,
      State.putReport_counts hs hp hi, fun hm hk h5 => ?_⟩⟩, fun s n u a x i k timer p st hs hp hi hm hk h5 => ?_⟩,
    StepCond.matches_iff, fun s n u a x i k timer p st hs hp hi hm hk => ?_⟩,
    fun s n u a x i k timer p st hs hp hi hm hk => State.followUp_fires (State.putReport_fires hs hp hi hm hk).symm⟩
  · exact State.withStation_quiet (report_unarmed (c := ⟨u, a, []⟩) (s.env n) x hu)
  · have hts := State.fired_ts s n u a p i st .onMatch
    obtain ⟨hqueue, hhead, hcu, hstate, hprofile, hpageQ⟩ := State.fired_frame (s := s) (n := n) (u := u) (a := a) (p := p) (i := i)
      (st := st) (cause := .onMatch)
    exact ⟨_, _, State.putReport_quiet hs hp hi hm hk (by rw [h5]; rfl), congrArg Sequencer.state hts,
      (congrArg Sequencer.program hts).trans hp, hqueue, hhead, State.fired_bpu h5, hcu, hstate, hprofile, hpageQ⟩
  · have hts := State.fired_ts s n u a p i st .onMatch
    have hcap := State.fired_cap s n u a p i st .onMatch
    rw [show (st.chosen .onMatch).1 = st.matchActs from rfl, h5, Bool.false_and, if_neg Bool.false_ne_true] at hcap
    refine ⟨_, _, State.putReport_quiet hs hp hi hm hk (by rw [h5]; rfl), State.fired_trigger, congrArg Sequencer.drives hts,
      fun h0 h3 hstop hl => ?_, fun h3 hpost => ?_, State.fired_issues (cause := .onMatch), State.fired_holds (cause := .onMatch),
      State.fired_noHalt (cause := .onMatch), fun h0 h1 h2 h3 => ?_⟩
    · rw [hcap]
      exact State.recorded_starts (cause := .onMatch) h0 h3 hstop hl
    · rw [hcap]
      exact State.recorded_stops (cause := .onMatch) h3 hpost
    · have hrec := State.recorded_nothing (s := s) (n := n) (u := u) (a := a) (p := p) (i := i) (st := st) (cause := .onMatch) h0 h1 h2 h3
      rw [hrec] at hcap
      have hpg := State.fired_pg (s := s) (n := n) (u := u) (a := a) (p := p) (i := i) (st := st) (cause := .onMatch) h5
      rw [hrec] at hpg
      exact ⟨hcap, hpg⟩
  · intro entered gives o
    have htakes := fun {o'} => State.putReport_takes (s := s) (n := n) (a := a) (o := o') hs hp hi hm hk
    refine ⟨fun hacts _ => htakes (.inl ⟨hacts, rfl⟩), fun hacts => ?_, fun hacts => htakes (.inr (.inl ⟨hacts, rfl⟩)), fun hacts => ?_⟩
    · have hstop := htakes (.inr (.inr ⟨hacts, rfl⟩))
      refine ⟨fun hc => ?_, fun hc => ?_, fun hc => ?_⟩
      · unfold Capture.stop at hstop
        rw [hc] at hstop
        exact hstop.trans (congrArg (s.put n _) (CapOut.bits_none rfl a))
      · unfold Capture.stop at hstop
        rw [hc] at hstop
        exact hstop.trans (congrArg (s.put n _) (CapOut.bits_none rfl a))
      · have hone : u.cap.stop p.postCount = if p.postCount = 0 then ⟨{ u.cap with state := .stopped }, false, true⟩
            else ⟨{ u.cap with state := .stopping p.postCount }, false, false⟩ := by
          unfold Capture.stop
          rcases hc with ⟨m, hc⟩ | hc <;> rw [hc]
        rw [hone] at hstop
        refine ⟨fun hpos => ?_, fun hzero => ?_⟩
        · rw [if_neg (Nat.ne_of_gt hpos)] at hstop
          exact hstop.trans (congrArg (s.put n _) (CapOut.bits_none rfl a))
        · rw [if_pos hzero] at hstop
          exact hstop.trans (congrArg (s.put n _) (CapOut.bits_none rfl a))
    · refine ⟨fun hon => ?_, fun hno => ?_⟩
      · intro b v r
        have hpulse := (Station.canPulse_iff u).mpr hon
        obtain ⟨hst, hatt⟩ := State.fired_pulse (s := s) (n := n) (u := u) (a := a) (p := p) (i := i) (st := st) (cause := .onMatch) hacts hpulse
        refine (State.putReport_fires hs hp hi hm hk).trans ((State.followUp_pulses s n u a p i st .onMatch ?_).trans ?_)
        · rw [show (st.chosen .onMatch).1 = st.matchActs from rfl, hacts, hpulse]
          decide
        · exact congrArg₂ (fun w b => s.putReport n w b (.power .resetAsserted)) hst hatt
      · have hfalse : u.canPulse = false := Bool.eq_false_iff.mpr fun h => hno ((Station.canPulse_iff u).mp h)
        have hquiet : (hasAct (st.chosen .onMatch).1 5 && u.canPulse) = false := by rw [hfalse, Bool.and_false]
        have hset : (st.chosen .onMatch).1 = 32#8 := hacts
        have hrec := State.recorded_nothing (s := s) (n := n) (u := u) (a := a) (p := p) (i := i) (st := st) (cause := .onMatch)
          (by rw [hset]; decide) (by rw [hset]; decide) (by rw [hset]; decide) (by rw [hset]; decide)
        obtain ⟨hst, hatt⟩ := State.fired_plain (s := s) (n := n) (u := u) (a := a) (p := p) (i := i) (st := st) (cause := .onMatch)
          (by rw [hset]; decide) hquiet (by rw [hset]; decide) (by rw [hset]; decide)
        rw [hrec] at hst hatt
        exact (State.putReport_quiet hs hp hi hm hk hquiet).trans (congrArg₂ (s.put n) hst hatt)

/-! ## The step timer (R121, R122) -/

section
variable {s : State} {n : StationNo} {u : Station} {a : BitVec 11} {p : Program} {i : Fin 4} {st : Machine.Step} {cause : Cause}

/-- TRIGGER RECORD alone: the record says itself done. -/
theorem State.recorded_trigger (hacts : (st.chosen cause).1 = 2#8) : s.recorded n u a p i st cause = Ctx.capOut ⟨u, a, []⟩
    (u.offer s.tb (s.recordNow (.trigger i (st.chosen cause).2 cause st.cond.kind 2#8 2#8 false false))) := by
  have hdone : firedDone (s.env n) p i st cause ⟨u, a, []⟩ = 2#8 := by
    have hall : ∀ a b c d : Bool, doneSet 2#8 a b c d = 2#8 := by decide
    unfold firedDone
    dsimp only
    rw [hacts]
    exact hall ..
  have htrigger := State.firedTrigger_eq s n u a i st cause 2#8
  rw [hacts] at htrigger
  unfold State.recorded Machine.recorded marked
  dsimp only
  rw [hdone, htrigger, hacts]
  rfl

/-- A firing of TRIGGER RECORD alone. -/
theorem State.followUp_trigger (hacts : (st.chosen cause).1 = 2#8) :
    s.withStation n (fun e _ => followUp e (fire e p i st cause ⟨u, a, []⟩))
      = s.putOffer n { u with ts := { u.ts with state := (st.chosen cause).2.entered p s.elapsed } } a
        (s.recordNow (.trigger i (st.chosen cause).2 cause st.cond.kind 2#8 2#8 false false)) :=
  (State.followUp_quiet s n u a p i st cause (by rw [hacts]; rfl)).trans
    (State.fired_takes (by rw [hacts]; decide) (by rw [hacts]; decide) (by rw [hacts]; decide) (by rw [hacts]; decide)
      (State.recorded_trigger hacts))

end

section
variable {s : State} {n : StationNo} {i : Fin 4} {k : Nat} {timer : Option Nat} {p : Program} {st : Machine.Step}
  (hs : (s.station n).ts.state = .armed i k timer) (hp : (s.station n).ts.program = some p) (hi : p.steps[i.val]? = some st)
  (hdue : due timer s.elapsed = true)
include hs hp hi hdue

theorem exec_stepTimerExpiry_due {f : Env → Ctx → Ctx} (hf : (if st.cond = .elapsed then
      if st.count ≤ k + 1 then followUp (s.env n) (fire (s.env n) p i st .onMatch ⟨s.station n, s.attention, []⟩)
      else Ctx.mod ⟨s.station n, s.attention, []⟩ fun t => { t with ts := { t.ts with
        state := .armed i (k + 1) (stepTimer p i s.elapsed) } }
    else followUp (s.env n) (fire (s.env n) p i st .onTimeout ⟨s.station n, s.attention, []⟩))
      = f (s.env n) ⟨s.station n, s.attention, []⟩) : exec (.stepTimerExpiry n) s = .next (s.withStation n f) := by
  refine congrArg Host.Outcome.next (State.withStation_congr ?_)
  have htimer : due (s.station n).ts.state.timer (s.env n).now = true := by
    rw [hs]
    exact hdue
  rw [if_pos htimer, ← hf]
  unfold stepTimerExpires
  rw [Sequencer.current_of hs hp hi]
  rfl

theorem exec_stepTimerExpiry_match (hc : st.cond = .elapsed) (hk : st.count ≤ k + 1) : exec (.stepTimerExpiry n) s
    = .next (s.withStation n fun e _ => followUp e (fire e p i st .onMatch ⟨s.station n, s.attention, []⟩)) :=
  exec_stepTimerExpiry_due hs hp hi hdue (by rw [if_pos hc, if_pos hk])

theorem exec_stepTimerExpiry_timeout (hc : st.cond ≠ .elapsed) : exec (.stepTimerExpiry n) s
    = .next (s.withStation n fun e _ => followUp e (fire e p i st .onTimeout ⟨s.station n, s.attention, []⟩)) :=
  exec_stepTimerExpiry_due hs hp hi hdue (by rw [if_neg hc])

end

/-- Settles O51: the step timer counts an ELAPSED step or fires, by the halves of a firing. -/
theorem stepTimerCountsOrFires : Obligations.StepTimerCountsOrFires := by
  intro s n i k timer p st t hs hp hi hdue enter
  have hmatch := exec_stepTimerExpiry_match hs hp hi hdue
  have htimeout := exec_stepTimerExpiry_timeout hs hp hi hdue
  refine ⟨fun hc hk hms => ?_, fun hc hk hacts => ?_, fun hc hacts => ?_, ?_⟩
  · have htimer : stepTimer p i s.elapsed = some (s.elapsed + st.timeoutMs * 100000) := by
      unfold stepTimer
      rw [hi]
      exact if_neg hms
    refine (exec_stepTimerExpiry_due hs hp hi hdue (f := fun _ c => c.mod fun t => { t with ts := { t.ts with
      state := .armed i (k + 1) (some (s.elapsed + st.timeoutMs * 100000)) } }) ?_).trans
      (congrArg Host.Outcome.next (State.withStation_quiet rfl))
    rw [if_pos hc, if_neg (Nat.not_le.mpr hk), htimer]
  · have hkind : st.cond.kind = .elapsed := by rw [hc]; rfl
    have hfires := State.followUp_trigger (s := s) (n := n) (u := s.station n) (a := s.attention) (p := p) (i := i) (st := st)
      (cause := .onMatch) hacts
    rw [hkind] at hfires
    exact (hmatch hc hk).trans (congrArg Host.Outcome.next hfires)
  · exact (htimeout hc).trans (congrArg Host.Outcome.next (State.followUp_trigger (cause := .onTimeout) hacts))
  · intro fired
    refine ⟨fun hc hk => ?_, fun hc => ?_⟩
    · obtain ⟨v, a, c, hfires, hno, hyes⟩ := State.followUp_fires (s := s) (n := n) (u := s.station n) (a := s.attention) (p := p) (i := i)
        (st := st) (cause := .onMatch) rfl
      exact ⟨v, a, c, hfires, fun h => ⟨(hmatch hc hk).trans (congrArg Host.Outcome.next (hno h).1), (hno h).2⟩,
        fun h => ⟨(hmatch hc hk).trans (congrArg Host.Outcome.next (hyes h).1), (hyes h).2⟩⟩
    · obtain ⟨v, a, c, hfires, hno, hyes⟩ := State.followUp_fires (s := s) (n := n) (u := s.station n) (a := s.attention) (p := p) (i := i)
        (st := st) (cause := .onTimeout) rfl
      exact ⟨v, a, c, hfires, fun h => ⟨(htimeout hc).trans (congrArg Host.Outcome.next (hno h).1), (hno h).2⟩,
        fun h => ⟨(htimeout hc).trans (congrArg Host.Outcome.next (hyes h).1), (hyes h).2⟩⟩

end Sys2Proof.Machine
end

section
/-! Page acquisition: whose turn it is and what each page list entry brings (R150 to R152). -/

namespace Sys2Proof.Machine

section
variable {s r : State} {n : StationNo} {a : Area} {q : Acquisition} {id : Nat} {d : List Byte}

/-! ## Whose turn it is (R150) -/

/-- The first in cyclic order is the one of the stations that qualify whose turn comes before the others'. -/
theorem find_cyclic_of_least {p : StationNo} {f : StationNo → Bool} (hn : f n = true)
    (hleast : ∀ m, f m = true → turnAfter p n ≤ turnAfter p m) : (cyclic p).find? f = some n := by
  cases hfind : (cyclic p).find? f with
  | none => exact absurd hn (List.find?_eq_none.mp hfind n (mem_cyclic p n))
  | some m =>
    have hm : f m = true := List.find?_some (p := f) hfind
    have hsame : turnAfter p m = turnAfter p n := Nat.le_antisymm (turnAfter_le_of_find hfind hn) (hleast m hm)
    refine congrArg some (Fin.ext ?_)
    unfold turnAfter at hsame
    omega

theorem State.acquire_begins (ha : s.area = some a) (hd : s.draining = true) (hq : s.acq = none)
    (hn : (s.station n).asks = true)
    (hleast : ∀ m, (s.station m).asks = true → turnAfter s.hmp.stationPtr n ≤ turnAfter s.hmp.stationPtr m) :
    s.acquire = ({ s with acq := some ⟨n, s.cursor, 0⟩ }).presentPage n [entryRead a n s.cursor] := by
  unfold State.acquire
  rw [hq, ha, find_cyclic_of_least (f := fun m => (s.station m).asks) hn hleast]
  exact if_pos hd

theorem State.acquire_idle
    (h : s.draining = false ∨ s.acq ≠ none ∨ ∀ n, (s.station n).asks = false) : s.acquire = s := by
  unfold State.acquire
  split
  next hq ha hn =>
    rcases h with hd | hacq | hall
    · exact if_neg (by simp [hd])
    · exact absurd hq hacq
    · have hasks := List.find?_some (p := fun m => (s.station m).asks) hn
      exact absurd hasks (by simp [hall])
  next => rfl

/-! ## What an entry brings (R151, R152) -/

theorem exec_entryReadDone (hd : d.length = 16) (ha : s.area = some a) (hq : s.acq = some q)
    (hw : s.awaits id ⟨.page, some q.station, a.entry q.index, 16, none, .entryRead q.index⟩) :
    exec (.entryReadDone id d) s = .next ((s.endRead id).entryArrives a q d) := by
  refine congrArg Host.Outcome.next ((State.completeRead_awaited hw hd.symm nofun).trans ?_)
  have hqr : (s.endRead id).acq = some q := hq
  have har : (s.endRead id).area = some a := ha
  simp only [hqr, har, if_true, Option.getD_some]

theorem pageField_toNat (d : List Byte) : (BitVec.ofNat 64 (field d 8 8)).toNat = field d 8 8 := by
  rw [BitVec.toNat_ofNat, Nat.mod_eq_of_lt (show field d 8 8 < 2 ^ 64 from leNat_take_lt _ 8)]

theorem State.heldOpen_iff (i : Nat) : r.heldOpen i = true ↔ ∃ m p, (r.station m).pg.page = some p ∧ p.index = i := by
  simp [State.heldOpen, mem_allStations]

theorem State.entryArrives_passes (h : r.heldOpen q.index = true ∨ field d 0 1 ≠ 1) :
    r.entryArrives a q d = r.nextEntry a q := by
  unfold State.entryArrives
  by_cases hheld : r.heldOpen q.index = true
  · exact if_pos hheld
  · rw [if_neg hheld, if_neg (h.resolve_left hheld)]

theorem State.entryArrives_taken (hheld : r.heldOpen q.index = false) (hstate : field d 0 1 = 1)
    (hpage : field d 8 8 % 4096 = 0) :
    r.entryArrives a q d = r.takeEntry a q (BitVec.ofNat 64 (field d 8 8)) := by
  unfold State.entryArrives
  rw [if_neg (by simp [hheld]), if_pos hstate, if_pos (by rw [pageField_toNat]; exact hpage)]

theorem State.entryArrives_refused (hheld : r.heldOpen q.index = false) (hstate : field d 0 1 = 1)
    (hpage : field d 8 8 % 4096 ≠ 0) : r.entryArrives a q d
      = ((r.presentPage q.station [Access.writeOf .page (some q.station) (a.entry q.index) [4] .refused]).setAttn
          .pageRefused).nextEntry a q := by
  unfold State.entryArrives
  rw [if_neg (by simp [hheld]), if_pos hstate, if_neg (by rw [pageField_toNat]; exact hpage)]
  rfl

theorem State.nextEntry_reads (h : q.examined + 1 < a.entryCount) : r.nextEntry a q
    = ({ r with acq := some { q with index := (q.index + 1) % a.entryCount, examined := q.examined + 1 } }).presentPage
        q.station [entryRead a q.station ((q.index + 1) % a.entryCount)] :=
  if_neg (Nat.not_le.mpr h)

theorem State.nextEntry_starves (h : a.entryCount ≤ q.examined + 1) : r.nextEntry a q = r.starve q.station := if_pos h

/-- A refused entry and the read of the next one, in one piece. -/
theorem State.refused_reads (h : q.examined + 1 < a.entryCount) (w : Access) :
    ((r.presentPage q.station [w]).setAttn .pageRefused).nextEntry a q = ({ r with
      acq := some { q with index := (q.index + 1) % a.entryCount, examined := q.examined + 1 }
      attention := r.attention ||| Attn.pageRefused.mask }).setStation q.station { r.station q.station with
        pageQ := (r.station q.station).pageQ ++ [w, entryRead a q.station ((q.index + 1) % a.entryCount)] } := by
  have hstation : (({ (r.presentPage q.station [w]).setAttn .pageRefused with
      acq := some { q with index := (q.index + 1) % a.entryCount, examined := q.examined + 1 } }).station q.station)
      = { r.station q.station with pageQ := (r.station q.station).pageQ ++ [w] } :=
    State.setStation_station r q.station _
  rw [State.nextEntry_reads h]
  unfold State.presentPage State.modStation at hstation ⊢
  rw [hstation]
  simp [State.setStation, State.setAttn]

/-- A starved station, in one piece. -/
theorem State.starve_eq (n : StationNo) : r.starve n = ({ r with
    acq := none
    attention := if (r.station n).pg.episode then r.attention else r.attention ||| Attn.pageStarved.mask
    }).setStation n { r.station n with pg := { (r.station n).pg with starved := true, episode := true } } := by
  unfold State.starve
  split <;> rfl

/-- A refused last entry, after which the station is starved, in one piece. -/
theorem State.refused_starves (h : a.entryCount ≤ q.examined + 1) (w : Access) :
    ((r.presentPage q.station [w]).setAttn .pageRefused).nextEntry a q = ({ r with
      acq := none
      attention := r.attention ||| Attn.pageRefused.mask
        ||| (if (r.station q.station).pg.episode then 0 else Attn.pageStarved.mask) }).setStation q.station
      { r.station q.station with
        pg := { (r.station q.station).pg with starved := true, episode := true }
        pageQ := (r.station q.station).pageQ ++ [w] } := by
  have hstation : (((r.presentPage q.station [w]).setAttn .pageRefused).station q.station)
      = { r.station q.station with pageQ := (r.station q.station).pageQ ++ [w] } :=
    State.setStation_station r q.station _
  rw [State.nextEntry_starves h, State.starve_eq, hstation]
  unfold State.presentPage State.modStation
  by_cases hep : (r.station q.station).pg.episode = true
  · simp [State.setStation, State.setAttn, hep]
  · simp [State.setStation, State.setAttn, hep]

/-- A taken entry, in one piece. -/
theorem State.takeEntry_eq (page : Word64) : r.takeEntry a q page = ({ r with
    acq := none, cursor := (q.index + 1) % a.entryCount
    nextSerial := serialAfter r.nextSerial }).setStation q.station { r.station q.station with
      pg := { (r.station q.station).pg with
        page := some ⟨q.index, a.entry q.index, page, r.nextSerial, 0, 0, 0, 0, 0, false, false⟩
        episode := false }
      pageQ := (r.station q.station).pageQ
        ++ [Access.writeOf .page (some q.station) (a.entry q.index) (fillingBytes q.station r.nextSerial) .filling] } := by
  unfold State.takeEntry State.presentPage State.modPage State.modStation
  rw [State.setStation_twice, State.setStation_station]
  rfl

end

/-- Settles O55: the first asking station in turn, and the cases of R151. -/
theorem pagesAreAcquiredInOrder : Obligations.PagesAreAcquiredInOrder := by
  unfold Obligations.PagesAreAcquiredInOrder
  refine ⟨⟨fun s a ha => ?_, fun s a q id d hd ha hq hw => ?_⟩,
    fun s a q id d hd ha hq hw hfree hstate hpage hlast => ?_⟩
  · refine ⟨fun n hrun hhalt hacq hn hleast => ?_, fun h => ?_⟩
    · exact congrArg Host.Outcome.next
        (State.acquire_begins ha (State.draining_iff.mpr ⟨hrun, hhalt⟩) hacq hn hleast)
    · refine congrArg Host.Outcome.next (State.acquire_idle ?_)
      rcases h with hrun | hhalt | hrest
      · exact .inl (Bool.eq_false_iff.mpr fun hd => hrun (State.draining_iff.mp hd).1)
      · exact .inl (Bool.eq_false_iff.mpr fun hd =>
          Bool.false_ne_true ((State.draining_iff.mp hd).2.symm.trans hhalt))
      · exact .inr hrest
  · intro n t r page opened next on read filling refused
    have hopened : r.heldOpen q.index = opened := rfl
    rw [exec_entryReadDone hd ha hq hw]
    refine ⟨fun hheld hstate hpage => ?_, fun hheld hstate hpage hmore => ?_, fun h hmore => ?_, fun h hlast => ?_⟩
    · rw [State.entryArrives_taken (hopened.trans hheld) hstate hpage, State.takeEntry_eq]
      rfl
    · rw [State.entryArrives_refused (hopened.trans hheld) hstate hpage, State.refused_reads hmore]
      rfl
    · rw [State.entryArrives_passes (hopened ▸ h), State.nextEntry_reads hmore]
      rfl
    · rw [State.entryArrives_passes (hopened ▸ h), State.nextEntry_starves hlast, State.starve_eq]
      rfl
  · intro t
    have hheld : (s.endRead id).heldOpen q.index = false := Bool.eq_false_iff.mpr fun h => by
      obtain ⟨m, p, hp, hi⟩ := (State.heldOpen_iff _).mp h
      exact hfree m p hp hi
    rw [exec_entryReadDone hd ha hq hw, State.entryArrives_refused hheld hstate hpage, State.refused_starves hlast]
    rfl

end Sys2Proof.Machine
end

section
/-! The pieces in which PGM writes a record, a FILL and a page header (R153 to R155, Table 12-8). -/

namespace Sys2Proof.Machine

/-! ## Pieces of at most 256 bytes -/

theorem piecesAux_nil (fuel : Nat) : piecesAux fuel [] = [] := by
  cases fuel <;> rfl

/-- Fuel beyond the length adds nothing. -/
theorem piecesAux_fuel (f : Nat) : ∀ {g : Nat} {l : List Byte}, l.length ≤ f → l.length ≤ g →
    piecesAux f l = piecesAux g l := by
  induction f with
  | zero =>
    intro g l hf _
    rw [List.length_eq_zero_iff.mp (Nat.le_zero.mp hf), piecesAux_nil, piecesAux_nil]
  | succ f ih =>
    intro g l hf hg
    cases l with
    | nil => rw [piecesAux_nil, piecesAux_nil]
    | cons b bs =>
      obtain ⟨g, rfl⟩ := Nat.exists_eq_succ_of_ne_zero (n := g) (by rintro rfl; simp at hg)
      have hdrop : ((b :: bs).drop 256).length ≤ bs.length := by simp
      have hf' : bs.length ≤ f := by simpa using hf
      have hg' : bs.length ≤ g := by simpa using hg
      exact congrArg (List.cons _) (ih (hdrop.trans hf') (hdrop.trans hg'))

theorem pieces_cut {l : List Byte} (h : l ≠ []) : pieces l = l.take 256 :: pieces (l.drop 256) := by
  cases l with
  | nil => exact absurd rfl h
  | cons b bs =>
    have hdrop : ((b :: bs).drop 256).length ≤ bs.length := by simp
    exact congrArg (List.cons _) (piecesAux_fuel _ hdrop (Nat.le_refl _))

/-- Induction over what is left to cut. -/
theorem cut_induction {P : List Byte → Prop} (hnil : P []) (hcut : ∀ l, l ≠ [] → P (l.drop 256) → P l) (l : List Byte) :
    P l := by
  induction hlen : l.length using Nat.strong_induction_on generalizing l with
  | _ k ih =>
    by_cases h : l = []
    · exact h ▸ hnil
    · have hpos : 0 < l.length := List.length_pos_iff.mpr h
      exact hcut l h (ih (l.drop 256).length (by rw [List.length_drop]; omega) _ rfl)

theorem flatten_pieces (l : List Byte) : (pieces l).flatten = l := by
  induction l using cut_induction with
  | hnil => rfl
  | hcut l h ih => rw [pieces_cut h, List.flatten_cons, ih, List.take_append_drop]

theorem length_of_mem_pieces {x : List Byte} (l : List Byte) (hx : x ∈ pieces l) : 0 < x.length ∧ x.length ≤ 256 := by
  induction l using cut_induction with
  | hnil => cases hx
  | hcut l h ih =>
    rw [pieces_cut h] at hx
    rcases List.mem_cons.mp hx with rfl | hrest
    · have hpos : 0 < l.length := List.length_pos_iff.mpr h
      rw [List.length_take]
      omega
    · exact ih hrest

/-- A piece that is not the last is 256 bytes long. -/
theorem placed_addr (l : List Byte) : ∀ (addr : Word64) (i : Nat) (x : Word64 × List Byte),
    (placed addr (pieces l))[i]? = some x → x.1 = addr + BitVec.ofNat 64 (256 * i) := by
  induction l using cut_induction with
  | hnil => intro addr i x hx; cases hx
  | hcut l h ih =>
    intro addr i x hx
    rw [pieces_cut h] at hx
    cases i with
    | zero =>
      obtain rfl : (addr, l.take 256) = x := Option.some.inj hx
      exact (BitVec.add_zero addr).symm
    | succ i =>
      have hrest : (placed (addr + BitVec.ofNat 64 (l.take 256).length) (pieces (l.drop 256)))[i]? = some x := hx
      have hlen : 256 ≤ l.length := by
        by_contra hshort
        rw [List.drop_eq_nil_of_le (by omega)] at hrest
        cases hrest
      rw [ih _ i x hrest, List.length_take, Nat.min_eq_left hlen, BitVec.add_assoc, ← BitVec.ofNat_add]
      congr 2
      omega

theorem map_snd_placed (ps : List (List Byte)) : ∀ addr : Word64, (placed addr ps).map Prod.snd = ps := by
  induction ps with
  | nil => intro addr; rfl
  | cons p ps ih => intro addr; exact congrArg (List.cons p) (ih _)

theorem flatMap_placed (addr : Word64) (l : List Byte) : ((placed addr (pieces l)).flatMap Prod.snd) = l := by
  rw [List.flatMap_def, map_snd_placed, flatten_pieces]

theorem length_of_mem_placed {addr : Word64} {l : List Byte} {x : Word64 × List Byte}
    (hx : x ∈ placed addr (pieces l)) : 0 < x.2.length ∧ x.2.length ≤ 256 :=
  length_of_mem_pieces l (map_snd_placed (pieces l) addr ▸ List.mem_map_of_mem hx)

/-- Where piece i of what goes to a page's next free offset is put. -/
theorem OpenPage.nextAddr_add (p : OpenPage) (k : Nat) :
    p.nextAddr + BitVec.ofNat 64 k = p.addr + BitVec.ofNat 64 (32 + p.used + k) := by
  unfold OpenPage.nextAddr
  rw [BitVec.add_assoc, ← BitVec.ofNat_add]

/-! ## The writes of a record and of a FILL (R153, R154) -/

section
variable (p : OpenPage) (n : StationNo) (r : Staged)

/-- The write of piece i of a record. -/
theorem recordWrites_get (i : Nat) : (recordWrites p n r)[i]?
    = (placed p.nextAddr (pieces r.bytes))[i]?.map fun x =>
        Access.writeOf .page (some n) x.1 x.2 (.record (i + 1 == (recordWrites p n r).length)) := by
  have hlen : (recordWrites p n r).length = (placed p.nextAddr (pieces r.bytes)).length := by
    simp [recordWrites]
  rw [hlen]
  simp [recordWrites, List.getElem?_zipIdx, Function.comp_def]

theorem mem_recordWrites {a : Access} (ha : a ∈ recordWrites p n r) : ∃ i x,
    (placed p.nextAddr (pieces r.bytes))[i]? = some x
      ∧ a = Access.writeOf .page (some n) x.1 x.2 (.record (i + 1 == (recordWrites p n r).length)) := by
  obtain ⟨i, hi⟩ := List.mem_iff_getElem?.mp ha
  rw [recordWrites_get] at hi
  obtain ⟨x, hx, rfl⟩ := Option.map_eq_some_iff.mp hi
  exact ⟨i, x, hx, rfl⟩

theorem recordWrites_bytes : ((recordWrites p n r).flatMap fun a => a.data.getD []) = r.bytes := by
  have hdata : ((recordWrites p n r).flatMap fun a => a.data.getD [])
      = (placed p.nextAddr (pieces r.bytes)).flatMap Prod.snd := by
    unfold recordWrites
    rw [List.flatMap_map]
    refine Eq.trans ?_ (congrArg (List.flatMap Prod.snd)
      (List.zipIdx_map_fst 0 (placed p.nextAddr (pieces r.bytes))))
    rw [List.flatMap_map]
    rfl
  rw [hdata, flatMap_placed]

theorem fillWrites_empty (h : p.used = 4064) : fillWrites p n = [] := if_pos (by rw [OpenPage.remainder, h]; rfl)

theorem fillWrites_eq (h : p.used < 4064) : fillWrites p n
    = (placed p.nextAddr (pieces (fillBytes (4064 - p.used)))).map fun x =>
        Access.writeOf .page (some n) x.1 x.2 .sealPart :=
  if_neg (by show 4064 - p.used ≠ 0; omega)

end

/-! ## The page header (R155, Table 12-8) -/

/-- The fields of a page header with their widths. -/
def pageHeaderFields (p : OpenPage) (n : StationNo) (why : SealReason) (k : Nat) : List (Nat × Nat) :=
  [(4, p.serial), (1, n.val), (1, why.code), (1, if p.count = 0 then k else p.shift),
   (1, bit p.hasGap + 2 * bit p.hasHistory), (2, p.count), (2, p.used),
   (2, if p.count = 0 then 0 else p.firstSeq.toNat), (2, 0), (8, if p.count = 0 then 0 else p.base), (8, 0)]

section
variable {p : OpenPage} {n : StationNo} {why : SealReason} {k : Nat}

theorem pageHeaderBytes_eq : pageHeaderBytes p n why k = packed (pageHeaderFields p n why k) := by
  unfold pageHeaderBytes pageHeaderFields
  simp only [packed_cons, packed_nil, List.append_assoc, List.append_nil, leBytes_zero]

theorem pageHeaderBytes_length : (pageHeaderBytes p n why k).length = 32 := by
  rw [pageHeaderBytes_eq]
  exact packed_length _

theorem field_pageHeader {i w v off : Nat} (hi : (pageHeaderFields p n why k)[i]? = some (w, v))
    (ho : (((pageHeaderFields p n why k).take i).map Prod.fst).sum = off) (hv : v < 256 ^ w) :
    field (pageHeaderBytes p n why k) off w = v := by
  rw [pageHeaderBytes_eq]
  exact field_packed_of_lt hi ho hv

end

end Sys2Proof.Machine
end

section
/-! PGM's step at a station: what it seals, and what it takes in hand (R153, R154, R157, R158). -/

namespace Sys2Proof.Machine

section
variable {s : State} {n : StationNo} {t : Station} {p : OpenPage} {why : SealReason}

theorem sealStation_page (h : t.pg.page = some p) : sealStation n why t = { t with
    pg := { t.pg with sealing := some why, idleFlush := none }
    pageQ := t.pageQ ++ (if why = .full then fillWrites p n else []) ++ sealWrites p n why t.prof.timeShift false } := by
  unfold sealStation
  rw [h]

/-- No mark of count 0 waits. -/
def Station.unmarked (t : Station) : Prop := ∀ why, t.pg.mark ≠ some ⟨0, why⟩

section
variable (hp : t.pg.page = some p) (hi : t.pg.inHand = none) (hs : t.pg.sealing = none)
include hp hi hs

theorem drainStation_marked (hm : t.pg.mark = some ⟨0, why⟩) :
    drainStation n t = sealStation n why { t with pg := { t.pg with mark := none } } := by
  unfold drainStation
  rw [hp, hi, hs, hm]
  rfl

theorem drainStation_record {r : Staged} {rs : List Staged} (hm : t.unmarked) (hst : t.cap.staging = r :: rs) :
    drainStation n t = if p.remainder < r.size then sealStation n .full t else takeInHand n p r t := by
  unfold drainStation
  rw [hp, hi, hs, hst]
  dsimp only
  split
  next why hm' => exact absurd hm' (hm why)
  next h _ => cases h
  next h _ => cases h; rfl

theorem drainStation_empty (hm : t.unmarked) (hst : t.cap.staging = []) :
    drainStation n t = if t.head = .quiesceDrain then sealStation n .quiesce t else t := by
  unfold drainStation
  rw [hp, hi, hs, hst]
  dsimp only
  split
  next why hm' => exact absurd hm' (hm why)
  next => rfl
  next h _ => cases h

theorem idleFlushStation_seals :
    idleFlushStation n t = sealStation n .idle { t with pg := { t.pg with idleFlush := none } } := by
  unfold idleFlushStation
  rw [hp, hi, hs]

end

theorem exec_drainStep (hd : s.draining = true) :
    exec (.drainStep n) s = .next (s.put n (drainStation n (s.station n)) s.attention) :=
  congrArg Host.Outcome.next (if_pos hd)

theorem exec_idleFlushExpiry (hd : s.draining = true) (hdue : due (s.station n).pg.idleFlush s.elapsed = true) :
    exec (.idleFlushExpiry n) s = .next (s.put n (idleFlushStation n (s.station n)) s.attention) :=
  congrArg Host.Outcome.next (if_pos ⟨hd, hdue⟩)

end

end Sys2Proof.Machine
end

section
/-! What the issue of a page's writes brings about (R147, R153, R156), and O56. -/

namespace Sys2Proof.Machine

/-! ## A record leaves staging (R147, R153) -/

/-- CAP after a record has left staging, with the recovery that may follow. -/
def Capture.afterRemoval (c : Capture) (k : Nat) (tb : Tick) : Capture :=
  if ({ c with staging := c.staging.tail } : Capture).canRecover then
    ({ c with staging := c.staging.tail } : Capture).recover k tb
  else { c with staging := c.staging.tail }

/-- PGM's state after the record in hand `r` has joined the open page. -/
def PageState.afterRemoval (g : PageState) (r : Staged) (flushAt : Nat) : PageState :=
  { g with
    inHand := none, idleFlush := some flushAt, page := g.page.map (·.add r)
    mark := g.mark.map fun m => { m with count := m.count - 1 } }

/-- A station after the record in hand `r` has left its staging for its page. -/
def Station.afterRemoval (t : Station) (r : Staged) (tb : Tick) (now : Nat) : Station :=
  { t with
    cap := t.cap.afterRemoval t.prof.timeShift tb
    pg := t.pg.afterRemoval r (now + t.prof.flushMs * Config.ticksPerMs) }

section
variable {s : State} {n : StationNo} {r : Staged} {p : OpenPage} {c : Capture} {k : Nat} {tb : Tick}

theorem removeRecord_eq {e : Env} {t : Station} {a : BitVec 11} (hr : t.pg.inHand = some r) :
    removeRecord e ⟨t, a, []⟩ = ⟨t.afterRemoval r e.tb e.now, a, []⟩ := by
  unfold removeRecord
  rw [show (⟨t, a, []⟩ : Ctx).st.pg.inHand = some r from hr]
  unfold Station.afterRemoval Capture.afterRemoval
  by_cases hcan : ({ t.cap with staging := t.cap.staging.tail } : Capture).canRecover = true
  · rw [if_pos hcan]
    exact if_pos hcan
  · rw [if_neg hcan]
    exact if_neg hcan

theorem Capture.canRecover_iff (hl : c.loss = true) : c.canRecover = true ↔ c.used ≤ 4096 := by
  unfold Capture.canRecover Capture.free
  rw [hl, Bool.true_and, decide_eq_true_iff]
  show 4096 ≤ 8192 - c.used ↔ _
  omega

theorem Capture.afterRemoval_normal (hl : c.loss = false) :
    c.afterRemoval k tb = { c with staging := c.staging.tail } := by
  refine if_neg ?_
  unfold Capture.canRecover
  simp [hl]

theorem Capture.afterRemoval_full (hl : c.loss = true)
    (hu : 4096 < ({ c with staging := c.staging.tail } : Capture).used) :
    c.afterRemoval k tb = { c with staging := c.staging.tail } :=
  if_neg fun h => Nat.not_le.mpr hu ((Capture.canRecover_iff (by exact hl)).mp h)

theorem Capture.afterRemoval_recovers (hl : c.loss = true)
    (hu : ({ c with staging := c.staging.tail } : Capture).used ≤ 4096) :
    c.afterRemoval k tb = ({ c with staging := c.staging.tail } : Capture).recover k tb :=
  if_pos ((Capture.canRecover_iff (by exact hl)).mpr hu)

/-- A recovery changes what a record that joins staging changes, and ends the loss. -/
theorem Capture.recover_eq : c.recover k tb = { c with
    staging := (c.recover k tb).staging, seq := (c.recover k tb).seq, ref := (c.recover k tb).ref
    loss := false, pend := ⟨0, 0, 0⟩ } := by
  unfold Capture.recover Capture.append
  split <;> rfl

theorem State.issueEffect_record (s : State) (n : StationNo) (addr : Word64) (d : List Byte) :
    s.issueEffect (Access.writeOf .page (some n) addr d (.record true)) = s.withStation n removeRecord := rfl

/-- The issue of the last write of a record in hand, outside a halt and a resumption. -/
theorem exec_accessGrant_record {addr : Word64} {d : List Byte} (hhalt : s.halting = false) (hres : s.resuming = false)
    (hg : s.nextGrant = some (Access.writeOf .page (some n) addr d (.record true)))
    (hr : (s.station n).pg.inHand = some r) :
    exec .accessGrant s = .next ((s.issuing (Access.writeOf .page (some n) addr d (.record true))).put n
      (({ s.station n with
        pageQ := (s.station n).pageQ.erase (Access.writeOf .page (some n) addr d (.record true)) } : Station).afterRemoval
          r s.tb s.elapsed) s.attention) := by
  refine (exec_accessGrant hg).trans (congrArg Host.Outcome.next ?_)
  have hstation : (s.issuing (Access.writeOf .page (some n) addr d (.record true))).station n
      = { s.station n with
          pageQ := (s.station n).pageQ.erase (Access.writeOf .page (some n) addr d (.record true)) } :=
    Vector.getElem_set_self ..
  have hhand : ((s.issuing (Access.writeOf .page (some n) addr d (.record true))).station n).pg.inHand = some r := by
    rw [hstation]
    exact hr
  rw [State.issueEffect_record, State.withStation_quiet (removeRecord_eq hhand), ← hstation]
  have hhalting : (s.issuing (Access.writeOf .page (some n) addr d (.record true))).halting = false := hhalt
  have hresuming : (s.issuing (Access.writeOf .page (some n) addr d (.record true))).resuming = false := hres
  refine (State.settleSeals_none ?_ ?_).trans rfl
  · rw [State.put_halting, hhalting]
  · rw [State.put_resuming, hresuming]

/-! ## A page is sealed (R156) -/

/-- The issue of a FULL write at a station that no QUIESCE drains. -/
theorem State.pageSealed_eq (hs : (s.station n).pg.sealing ≠ some .quiesce) (hh : (s.station n).head ≠ .quiesceDrain) :
    s.pageSealed n = s.put n { s.station n with pg := { (s.station n).pg with
      page := none, sealing := none, inHand := none
      mark := (s.station n).pg.mark.filter fun m => m.count != 0 } } (s.attention ||| Attn.pageSealed.mask) := by
  unfold State.pageSealed
  rw [if_neg hs]
  refine (State.put_quiesceCheck (s := s) ..).trans (if_neg ?_)
  simp [Station.drained, hh]

/-- The end of a halt with RUN 0. -/
theorem State.finishHalt_stays (h : s.run = false) :
    s.finishHalt = { s with runState := .stopped, halting := false } :=
  if_neg (by show ¬ s.run = true; simp [h])

theorem State.settleSeals_halt (hh : s.halting = true) (hr : s.run = false) : s.settleSeals
    = if s.sealsWait then s else { s with runState := .stopped, halting := false } := by
  unfold State.settleSeals
  rw [if_pos hh, State.finishHalt_stays hr]

end

end Sys2Proof.Machine
end

section
/-! Pages are drained and sealed (R147, R153 to R158). -/

namespace Sys2Proof.Machine

section
variable {s : State} {n : StationNo} {p : OpenPage} {why : SealReason}

/-- A seal begun at a station, as the state it leaves. -/
theorem State.put_seal {u : Station} (hp : u.pg.page = some p) (hw : why ≠ .full) :
    s.put n (sealStation n why u) s.attention = s.put n { u with
      pg := { u.pg with sealing := some why, idleFlush := none }
      pageQ := u.pageQ ++ [] ++ sealWrites p n why u.prof.timeShift false } s.attention := by
  rw [sealStation_page hp, if_neg hw]

theorem State.put_sealFull {u : Station} (hp : u.pg.page = some p) :
    s.put n (sealStation n .full u) s.attention = s.put n { u with
      pg := { u.pg with sealing := some .full, idleFlush := none }
      pageQ := u.pageQ ++ fillWrites p n ++ sealWrites p n .full u.prof.timeShift false } s.attention := by
  rw [sealStation_page hp, if_pos rfl]

end

/-- What the issue of a FULL write settles, in a halt whose RUN is 0 or with neither halt nor resumption under way. -/
theorem State.settleSeals_settles {w : State} (hh : w.halting = true → w.run = false) (hr : w.resuming = false) :
    w.settleSeals.attention = w.attention ∧ (∀ m, w.settleSeals.station m = w.station m)
      ∧ (w.halting = true → if w.settleSeals.sealsWait then
            w.settleSeals.runState = w.runState ∧ w.settleSeals.halting = true
          else w.settleSeals.runState = .stopped ∧ w.settleSeals.halting = false) := by
  by_cases hhalt : w.halting = true
  · rw [State.settleSeals_halt hhalt (hh hhalt)]
    by_cases hwait : w.sealsWait = true
    · rw [if_pos hwait]
      exact ⟨rfl, fun _ => rfl, fun _ => (if_pos hwait).mpr ⟨rfl, hhalt⟩⟩
    · rw [if_neg hwait]
      exact ⟨rfl, fun _ => rfl, fun _ => (if_neg hwait).mpr ⟨rfl, rfl⟩⟩
  · rw [State.settleSeals_none (by simpa using hhalt) hr]
    exact ⟨rfl, fun _ => rfl, fun h => absurd h hhalt⟩

/-- The issue of a FULL write at a station that no QUIESCE drains. -/
theorem exec_accessGrant_pageSealed {s : State} {n : StationNo} {addr : Word64} {d : List Byte}
    (hg : s.nextGrant = some (Access.writeOf .page (some n) addr d (.sealFull false)))
    (hs : (s.station n).pg.sealing ≠ some .quiesce) (hh : (s.station n).head ≠ .quiesceDrain) :
    exec .accessGrant s = .next ((s.issuing (Access.writeOf .page (some n) addr d (.sealFull false))).put n
      { s.station n with
        pageQ := (s.station n).pageQ.erase (Access.writeOf .page (some n) addr d (.sealFull false))
        pg := { (s.station n).pg with
          page := none, sealing := none, inHand := none
          mark := (s.station n).pg.mark.filter fun m => m.count != 0 } }
      (s.attention ||| Attn.pageSealed.mask)).settleSeals := by
  have hstation : (s.issuing (Access.writeOf .page (some n) addr d (.sealFull false))).station n
      = { s.station n with
          pageQ := (s.station n).pageQ.erase (Access.writeOf .page (some n) addr d (.sealFull false)) } :=
    Vector.getElem_set_self ..
  refine (exec_accessGrant hg).trans (congrArg (fun w => Host.Outcome.next (State.settleSeals w)) ?_)
  change State.pageSealed _ n = _
  rw [State.pageSealed_eq (by rw [hstation]; exact hs) (by rw [hstation]; exact hh), hstation]
  rfl

/-- Settles O56: PGM's step, the pieces of records and FILLs, and what the issues of a page's writes bring about. -/
theorem pagesAreDrainedAndSealed : Obligations.PagesAreDrainedAndSealed := by
  unfold Obligations.PagesAreDrainedAndSealed
  refine ⟨⟨fun s n p hrun hhalt hp hi hs => ?_, fun p n r => ?_, fun p n hused => ?_, ?_, ?_⟩, ?_, ?_⟩
  · intro t k seals noMark
    have hd : s.draining = true := State.draining_iff.mpr ⟨hrun, hhalt⟩
    refine ⟨fun why hm hw => ?_, fun r rs hm hst hfit => ?_, fun r rs hm hst hfit => ?_, fun hm hst => ⟨fun hh => ?_, fun hh => ?_⟩,
      fun hdue => ?_⟩
    · rw [exec_drainStep hd, drainStation_marked hp hi hs hm]
      exact congrArg Host.Outcome.next (State.put_seal hp hw)
    · rw [exec_drainStep hd, drainStation_record hp hi hs hm hst, if_neg (Nat.not_lt.mpr hfit)]
      rfl
    · rw [exec_drainStep hd, drainStation_record hp hi hs hm hst, if_pos hfit]
      exact congrArg Host.Outcome.next (State.put_sealFull hp)
    · rw [exec_drainStep hd, drainStation_empty hp hi hs hm hst, if_pos hh]
      exact congrArg Host.Outcome.next (State.put_seal hp nofun)
    · rw [exec_drainStep hd, drainStation_empty hp hi hs hm hst, if_neg hh, State.put_self]
    · rw [exec_idleFlushExpiry hd hdue, idleFlushStation_seals hp hi hs]
      exact congrArg Host.Outcome.next (State.put_seal hp nofun)
  · refine ⟨recordWrites_bytes p n r, fun a ha => ?_, fun i a hi => ?_⟩
    · obtain ⟨i, x, hx, rfl⟩ := mem_recordWrites p n r ha
      obtain ⟨hpos, hle⟩ := length_of_mem_placed (List.mem_of_getElem? hx)
      exact ⟨hpos, hle, rfl, rfl, rfl⟩
    · rw [recordWrites_get] at hi
      obtain ⟨x, hx, rfl⟩ := Option.map_eq_some_iff.mp hi
      refine ⟨?_, rfl⟩
      rw [← OpenPage.nextAddr_add]
      exact placed_addr _ _ _ _ hx
  · intro ws
    by_cases hfull : p.used = 4064
    · have hws : ws = [] := fillWrites_empty p n hfull
      rw [hws]
      exact ⟨fun _ => rfl, fun h => absurd hfull (Nat.ne_of_lt h), fun a ha => (List.not_mem_nil ha).elim,
        fun i a hi => nomatch hi⟩
    · have hlt : p.used < 4064 := Nat.lt_of_le_of_ne hused hfull
      have hws : ws = _ := fillWrites_eq p n hlt
      rw [hws]
      refine ⟨fun h => absurd h hfull, fun _ => ?_, fun a ha => ?_, fun i a hi => ?_⟩
      · rw [List.flatMap_map]
        exact flatMap_placed ..
      · obtain ⟨x, hx, rfl⟩ := List.mem_map.mp ha
        obtain ⟨hpos, hle⟩ := length_of_mem_placed hx
        exact ⟨hpos, hle, rfl, rfl, rfl, rfl⟩
      · rw [List.getElem?_map] at hi
        obtain ⟨x, hx, rfl⟩ := Option.map_eq_some_iff.mp hi
        rw [← OpenPage.nextAddr_add]
        exact placed_addr _ _ _ _ hx
  · intro s n addr d r p hrun hhalt hres hg hr hp hloss
    have hheld : (s.issuing (Access.writeOf .page (some n) addr d (.record true))).held = s.held := rfl
    refine ⟨_, exec_accessGrant_record hhalt hres hg hr, State.put_attention .., (State.put_held ..).trans hheld, ?_, ?_,
      fun m hm => ?_⟩
    · rw [State.put_station]
      exact Capture.afterRemoval_normal hloss
    · rw [State.put_station]
      show (s.station n).pg.afterRemoval r _ = _
      unfold PageState.afterRemoval
      rw [hp]
      rfl
    · exact (State.put_other _ _ _ hm).trans (State.setStation_other s _ hm)
  · intro s n addr d hrun hhalt hres hg hseal hhead
    have hrunning : (s.issuing (Access.writeOf .page (some n) addr d (.sealFull false))).runState = .running := hrun
    have hhalting : (s.issuing (Access.writeOf .page (some n) addr d (.sealFull false))).halting = s.halting := rfl
    have hstays : (s.issuing (Access.writeOf .page (some n) addr d (.sealFull false))).run = s.run := rfl
    have hresuming : (s.issuing (Access.writeOf .page (some n) addr d (.sealFull false))).resuming = false := hres
    have hother : ∀ m, m ≠ n →
        (s.issuing (Access.writeOf .page (some n) addr d (.sealFull false))).station m = s.station m :=
      fun m hm => State.setStation_other s _ hm
    obtain ⟨hatt, hstations, hhalt'⟩ := State.settleSeals_settles
      (w := (s.issuing (Access.writeOf .page (some n) addr d (.sealFull false))).put n
      { s.station n with
        pageQ := (s.station n).pageQ.erase (Access.writeOf .page (some n) addr d (.sealFull false))
        pg := { (s.station n).pg with
          page := none, sealing := none, inHand := none
          mark := (s.station n).pg.mark.filter fun m => m.count != 0 } }
      (s.attention ||| Attn.pageSealed.mask))
      (by rw [State.put_halting, State.put_run, hhalting, hstays]; exact hhalt)
      (by rw [State.put_resuming, hresuming])
    rw [State.put_halting, hhalting, State.put_runState, hrunning] at hhalt'
    have hsealed := (hstations n).trans (State.put_station ..)
    exact ⟨_, exec_accessGrant_pageSealed hg hseal hhead, hatt, (congrArg Station.pg hsealed).trans rfl,
      (congrArg Station.cap hsealed).trans rfl,
      hhalt', fun m hm => ((hstations m).trans (State.put_other _ _ _ hm)).trans (hother m hm)⟩
  · intro s n addr d r p hrun hhalt hres hg hr hp hloss rest
    refine ⟨_, exec_accessGrant_record hhalt hres hg hr, fun hfull => ?_, fun hroom => ?_⟩
    · rw [State.put_station]
      exact Capture.afterRemoval_full hloss hfull
    · rw [State.put_station]
      have hcap : (({ s.station n with
        pageQ := (s.station n).pageQ.erase (Access.writeOf .page (some n) addr d (.record true)) } : Station).afterRemoval
          r s.tb s.elapsed).cap = rest.recover (s.station n).prof.timeShift s.tb := Capture.afterRemoval_recovers hloss hroom
      rw [hcap]
      obtain ⟨as, g, hstaged, hpay, hunit, hlen⟩ := rest.append_staging (s.station n).prof.timeShift
        (unitOf (s.station n).prof.timeShift s.tb) (.gap rest.pend.records rest.pend.bytes rest.pend.firstUnit) RecFlags.none
      exact ⟨Capture.recover_eq, as, g, hstaged, hlen, hpay, hunit⟩
  · intro p n why k detached hserial hused hcount hbase hshift hk d
    have hn := n.isLt
    have hcode : why.code < 256 := by cases why <;> decide
    have hflags : bit p.hasGap + 2 * bit p.hasHistory < 256 := by
      have h1 := bit_le p.hasGap
      have h2 := bit_le p.hasHistory
      omega
    refine ⟨?_, pageHeaderBytes_length, field_pageHeader (i := 0) rfl rfl (by omega),
      field_pageHeader (i := 1) rfl rfl (by omega), (field_pageHeader (i := 2) rfl rfl hcode).trans ?_,
      field_pageHeader (i := 3) rfl rfl ?_, (field_pageHeader (i := 4) rfl rfl hflags).trans ?_,
      field_pageHeader (i := 5) rfl rfl (by omega), field_pageHeader (i := 6) rfl rfl (by omega),
      field_pageHeader (i := 7) rfl rfl ?_, field_pageHeader (i := 8) rfl rfl (by decide),
      field_pageHeader (i := 9) rfl rfl ?_, field_pageHeader (i := 10) rfl rfl (by decide)⟩
    · show [Access.writeOf .page (some n) p.addr d .sealPart, _] = _
      unfold Access.writeOf
      rw [show d.length = 32 from pageHeaderBytes_length]
      rfl
    · cases why <;> rfl
    · split_ifs <;> omega
    · cases p.hasGap <;> cases p.hasHistory <;> rfl
    · have hseq := p.firstSeq.isLt
      split_ifs <;> omega
    · split_ifs <;> omega

end Sys2Proof.Machine
end

section
/-! ABANDON at one station (R37, R38). -/

namespace Sys2Proof.Machine

/-! ## The station that ABANDON leaves -/

/-- The OFF station that ABANDON makes of one, its page already dealt with, with link port `lp` (R37). -/
def Station.abandoned (t : Station) (lp : LinkPort) : Station :=
  { t with
    state := .off, profile := none, queue := [], head := .waiting, lp := lp, au := t.au.clear, cu := t.cu.discard
    bpu := t.bpu.inactivate, ts := ⟨.disarmed, none, Vector.replicate 4 none⟩, cap := t.cap.shut
    pg := { t.pg with mark := none, starved := false, episode := false, idleFlush := none } }

/-- ABANDON's work at a station: its jobs end ABANDONED in queue order. -/
theorem abandonStation_eq (e : Env) (t : Station) (a : BitVec 11) : ∃ lp b,
    abandonStation e ⟨t, a, []⟩
      = ⟨t.abandoned lp, b, t.queue.map fun q => .jobEnd q.jid (Res.ended .abandoned)⟩
    ∧ lp.up = false ∧ lp.rxOn = false := by
  obtain ⟨lp, au, hoff, hrx, hup, -, -, hlost, hkept⟩ := linkOff_silent (e := e) (c := ⟨{ t with
    queue := [], head := .waiting, au := t.au.clear, cu := { t.cu with patterns := [] }, bpu := t.bpu.inactivate
    ts := ⟨.disarmed, none, Vector.replicate 4 none⟩, cap := t.cap.shut }, a,
    t.queue.map fun q => .jobEnd q.jid (Res.ended .abandoned)⟩) ⟨rfl, rfl, nofun⟩
  have hau : au = t.au.clear := by
    cases h : t.lp.up with
    | true => exact (hlost h).2.2
    | false => exact (hkept h).1
  subst hau
  refine ⟨{ lp with txList := [], sending := none }, if t.lp.up then a ||| Attn.linkChange.mask else a, ?_, hup, hrx⟩
  have hdoes : abandonStation e ⟨t, a, []⟩ = (linkOff e ⟨{ t with
      queue := [], head := .waiting, au := t.au.clear, cu := { t.cu with patterns := [] }, bpu := t.bpu.inactivate
      ts := ⟨.disarmed, none, Vector.replicate 4 none⟩, cap := t.cap.shut }, a,
      t.queue.map fun q => .jobEnd q.jid (Res.ended .abandoned)⟩).mod fun t =>
    { t with
      state := .off, profile := none, cu := t.cu.discard
      lp := { t.lp with txList := [], sending := none }
      pg := { t.pg with mark := none, starved := false, episode := false, idleFlush := none } } := rfl
  rw [hdoes, hoff]
  rfl

/-! ## What becomes of its page -/

/-- A station whose waiting page list reads are dropped with its acquisition. -/
def Station.acquisitionDropped (t : Station) (drop : Bool) : Station :=
  if drop then { t with pageQ := t.pageQ.filter fun a => !a.purpose.isEntryRead } else t

theorem cutPage_acquisitionDropped (t : Station) (drop : Bool) : cutPage (t.acquisitionDropped drop) = cutPage t := by
  cases drop with
  | false => rfl
  | true =>
    have hq : (t.pageQ.filter fun a => !a.purpose.isEntryRead).filter (fun a => !a.purpose.isCut)
        = t.pageQ.filter fun a => !a.purpose.isCut := by
      rw [List.filter_filter]
      refine List.filter_congr fun a _ => ?_
      cases a.purpose <;> rfl
    exact congrArg (fun q => { t with
      pg := { t.pg with inHand := none, sealing := none, idleFlush := none }, pageQ := q }) hq

section
variable {s : State} {n : StationNo}

/-- An acquisition dropped changes the acquisition, the reads in flight and its own station. -/
theorem State.dropAcquisition_frame (s : State) (n : StationNo) : ∃ acq flight drop, s.dropAcquisition n
    = { s.setStation n ((s.station n).acquisitionDropped drop) with
        acq := acq, hmp := { s.hmp with inFlight := flight } } := by
  have hnone : s = { s.setStation n ((s.station n).acquisitionDropped false) with
      acq := s.acq, hmp := { s.hmp with inFlight := s.hmp.inFlight } } := (State.setStation_self s n).symm
  unfold State.dropAcquisition
  cases hq : s.acq with
  | none => exact ⟨_, _, _, hq ▸ hnone⟩
  | some q =>
    by_cases hn : q.station = n
    · exact ⟨none, s.hmp.inFlight.map (·.staleWhen Purpose.isEntryRead), true, if_pos hn⟩
    · exact ⟨_, _, _, (if_neg hn).trans (hq ▸ hnone)⟩

/-- The station whose page has been dealt with, in each run state. -/
def Station.pageAbandoned (t : Station) (n : StationNo) (run : RunState) (resuming : Bool) : Station :=
  match run with
  | .running => sealStation n .abandon (cutPage t)
  | .faulted => if resuming then sealDetached n (detachPage (cutPage t)) else detachPage (cutPage t)
  | .stopped => cutPage t

theorem State.abandonPage_frame (s : State) (n : StationNo) : ∃ acq flight, s.abandonPage n
    = { s.setStation n ((s.station n).pageAbandoned n s.runState s.resuming) with
        acq := acq, hmp := { s.hmp with inFlight := flight } } := by
  obtain ⟨acq, flight, drop, hdrop⟩ := s.dropAcquisition_frame n
  refine ⟨acq, flight, ?_⟩
  have hcut := cutPage_acquisitionDropped (s.station n) drop
  have hmod : ∀ f : Station → Station, (s.dropAcquisition n).modStation n f
      = { s.setStation n (f ((s.station n).acquisitionDropped drop)) with
          acq := acq, hmp := { s.hmp with inFlight := flight } } := by
    intro f
    rw [hdrop]
    have hstation : ({ s.setStation n ((s.station n).acquisitionDropped drop) with
        acq := acq, hmp := { s.hmp with inFlight := flight } } : State).station n
        = (s.station n).acquisitionDropped drop := State.setStation_station ..
    unfold State.modStation
    rw [hstation]
    unfold State.setStation
    dsimp only
    rw [Vector.set_set]
  have hrun : (s.dropAcquisition n).runState = s.runState := by rw [hdrop]; rfl
  have hres : (s.dropAcquisition n).resuming = s.resuming := by rw [hdrop]; rfl
  unfold State.abandonPage Station.pageAbandoned
  dsimp only
  rw [hrun, hres]
  cases s.runState with
  | stopped => 
    dsimp only
    rw [hmod, hcut]
  | running =>
    dsimp only
    rw [hmod, hcut]
  | faulted =>
    dsimp only
    rw [hmod, hcut]

theorem sealStation_queue (n : StationNo) (why : SealReason) (t : Station) : (sealStation n why t).queue = t.queue := by
  unfold sealStation
  cases t.pg.page <;> rfl

theorem detachPage_queue (t : Station) : (detachPage t).queue = t.queue := by
  unfold detachPage
  cases t.pg.page <;> rfl

theorem sealDetached_queue (n : StationNo) (t : Station) : (sealDetached n t).queue = t.queue := by
  unfold sealDetached
  cases t.pg.detached <;> rfl

theorem Station.pageAbandoned_queue (t : Station) (n : StationNo) (run : RunState) (resuming : Bool) :
    (t.pageAbandoned n run resuming).queue = t.queue := by
  unfold Station.pageAbandoned
  cases run with
  | running => exact sealStation_queue ..
  | stopped => rfl
  | faulted =>
    cases resuming with
    | true => exact (sealDetached_queue ..).trans (detachPage_queue _)
    | false => exact detachPage_queue _

/-- What ABANDON does at a station, as one change of the device followed by the ends of its jobs. -/
theorem State.doAbandon_frame (s : State) (n : StationNo) : ∃ lp b acq hmp,
    s.doAbandon n = ((s.station n).queue.foldl (fun w q => w.recordResult n q.jid (Res.ended .abandoned))
      { s.setStation n (((s.station n).pageAbandoned n s.runState s.resuming).abandoned lp) with
        attention := b, acq := acq, hmp := hmp }, Res.okv (s.station n).queue.length)
    ∧ lp.up = false ∧ lp.rxOn = false := by
  obtain ⟨acq, flight, hpage⟩ := s.abandonPage_frame n
  obtain ⟨lp, b, hwork, hup, hrx⟩ := abandonStation_eq (((s.abandonPage n).dropPayloads n).env n)
    ((s.station n).pageAbandoned n s.runState s.resuming) s.attention
  refine ⟨lp, b, acq, ((s.abandonPage n).dropPayloads n).hmp, ?_, hup, hrx⟩
  have hstation : ((s.abandonPage n).dropPayloads n).station n
      = (s.station n).pageAbandoned n s.runState s.resuming := by
    rw [hpage]
    exact State.setStation_station ..
  have hatt : ((s.abandonPage n).dropPayloads n).attention = s.attention := by
    rw [hpage]
    rfl
  refine congrArg (Prod.mk · _) ?_
  rw [State.withStation_eq, hstation, hatt, hwork, List.foldl_map, Station.pageAbandoned_queue]
  refine congrArg (fun w => List.foldl _ w _) ?_
  rw [hpage]
  unfold State.dropPayloads State.makeStale State.put State.setStation
  dsimp only
  rw [Vector.set_set]

end

end Sys2Proof.Machine
end

section
/-! ABANDON at each station of its mask: the stations and the held jobs it leaves (R37, R175, R178). -/

namespace Sys2Proof.Machine

/-! ## Results recorded for other jobs -/

/-- A change of held jobs that gives those numbered in `js` the result `r` at station n, and no job a result
elsewhere. -/
def EndsJobs (n : StationNo) (js : List Nat) (r : Res) (F : HeldJob → HeldJob) : Prop := ∀ x,
  (F x).jid = x.jid ∧ (x.jid ∉ js → F x = x) ∧ (∀ m, m ≠ n → (F x).resultAt m = x.resultAt m)
    ∧ (x.jid ∈ js → (F x).resultAt n = some r)

theorem EndsJobs.id (n : StationNo) (r : Res) : EndsJobs n [] r fun x => x :=
  fun _ => ⟨rfl, fun _ => rfl, fun _ _ => rfl, fun h => nomatch h⟩

theorem EndsJobs.comp {n : StationNo} {j : Nat} {js : List Nat} {r : Res} {F G : HeldJob → HeldJob}
    (hF : EndsJobs n [j] r F) (hG : EndsJobs n js r G) : EndsJobs n (j :: js) r fun x => G (F x) := by
  intro x
  obtain ⟨f1, f2, f3, f4⟩ := hF x
  obtain ⟨g1, g2, g3, g4⟩ := hG (F x)
  rw [f1] at g1 g2 g4
  refine ⟨g1, fun hx => ?_, fun m hm => (g3 m hm).trans (f3 m hm), fun hx => ?_⟩
  · rw [List.mem_cons, not_or] at hx
    exact (g2 hx.2).trans (f2 (by simpa using hx.1))
  · by_cases hjs : x.jid ∈ js
    · exact g4 hjs
    · show (G (F x)).resultAt n = some r
      rw [g2 hjs]
      exact f4 ((List.mem_cons.mp hx).elim (fun h => h ▸ List.mem_singleton_self _) fun h => absurd h hjs)

/-- What forms results afterwards leaves the ended jobs ended. -/
theorem EndsJobs.formed {n : StationNo} {j : Nat} {r : Res} {F G : HeldJob → HeldJob} (hF : EndsJobs n [j] r F)
    (hG : ∀ x, (G x).jid = x.jid ∧ (G x).results = x.results ∧ (x.jid ≠ j → G x = x)) :
    EndsJobs n [j] r (G ∘ F) := by
  intro x
  obtain ⟨f1, f2, f3, f4⟩ := hF x
  obtain ⟨g1, g2, g3⟩ := hG (F x)
  have hresult : ∀ m, ((G ∘ F) x).resultAt m = (F x).resultAt m := fun m => congrArg (fun v => v[m.val]) g2
  refine ⟨g1.trans f1, fun hx => ?_, fun m hm => (hresult m).trans (f3 m hm), fun hx => (hresult n).trans (f4 hx)⟩
  have hne : (F x).jid ≠ j := by
    rw [f1]
    simpa using hx
  exact (g3 hne).trans (f2 hx)

/-- A result set in the jobs of one number. -/
theorem EndsJobs.set (n : StationNo) (j : Nat) (r : Res) : EndsJobs n [j] r fun x =>
    if x.jid == j then { x with results := x.results.set n.val (some r) } else x := by
  intro x
  by_cases hx : x.jid = j
  · have hset : (if x.jid == j then { x with results := x.results.set n.val (some r) } else x)
        = { x with results := x.results.set n.val (some r) } := if_pos (beq_iff_eq.mpr hx)
    dsimp only
    rw [hset]
    refine ⟨rfl, fun h => absurd (hx ▸ List.mem_singleton_self _) h, fun m hm => ?_, fun _ => ?_⟩
    · exact Vector.getElem_set_ne n.isLt m.isLt fun e => hm (Fin.ext e.symm)
    · exact Vector.getElem_set_self n.isLt
  · have hkeep : (if x.jid == j then { x with results := x.results.set n.val (some r) } else x) = x :=
      if_neg fun h => hx (beq_iff_eq.mp h)
    dsimp only
    rw [hkeep]
    exact ⟨rfl, fun _ => rfl, fun _ _ => rfl, fun h => absurd (List.mem_singleton.mp h) hx⟩

section
variable (s : State) (n : StationNo) (j : Nat) (r : Res)

/-- Results formed change no result and no number. -/
theorem State.finishJob_held : ∃ G : HeldJob → HeldJob, (s.finishJob j).held = s.held.map G
    ∧ ∀ x, (G x).jid = x.jid ∧ (G x).results = x.results ∧ (x.jid ≠ j → G x = x) := by
  have hkeep : s.held = s.held.map fun x => x := (List.map_id' _).symm
  unfold State.finishJob
  split
  · split
    · rw [State.presentResult_frame]
      refine ⟨_, rfl, fun x => ?_⟩
      by_cases hx : x.jid = j
      · simp [hx]
      · simp [hx]
    · exact ⟨_, hkeep, fun x => ⟨rfl, rfl, fun _ => rfl⟩⟩
  · exact ⟨_, hkeep, fun x => ⟨rfl, rfl, fun _ => rfl⟩⟩

theorem State.recordResult_held : ∃ F, (s.recordResult n j r).held = s.held.map F ∧ EndsJobs n [j] r F := by
  obtain ⟨G, hG, hsame⟩ := State.finishJob_held
    (s.modHeld j fun h => { h with results := h.results.set n.val (some r) }) j
  exact ⟨_, hG.trans (List.map_map ..), (EndsJobs.set n j r).formed hsame⟩

/-- The results of several jobs recorded at a station. -/
def State.recordAll (l : List QJob) : State := l.foldl (fun w q => w.recordResult n q.jid r) s

theorem State.recordAll_frame (l : List QJob) : ∃ held jobQ,
    s.recordAll n r l = { s with held := held, hmp := { s.hmp with jobQ := jobQ } } := by
  unfold State.recordAll
  induction l generalizing s with
  | nil => exact ⟨_, _, rfl⟩
  | cons q qs ih =>
    obtain ⟨held, jobQ, h⟩ := ih (s.recordResult n q.jid r)
    rw [List.foldl_cons, h, State.recordResult_frame]
    exact ⟨held, jobQ, rfl⟩

theorem State.recordAll_held (l : List QJob) : ∃ F, (s.recordAll n r l).held = s.held.map F
    ∧ EndsJobs n (l.map QJob.jid) r F := by
  unfold State.recordAll
  induction l generalizing s with
  | nil => exact ⟨_, (List.map_id' _).symm, EndsJobs.id n r⟩
  | cons q qs ih =>
    obtain ⟨F, hF, hFends⟩ := s.recordResult_held n q.jid r
    obtain ⟨G, hG, hGends⟩ := ih (s.recordResult n q.jid r)
    refine ⟨_, ?_, hFends.comp hGends⟩
    rw [List.foldl_cons, hG, hF, List.map_map]
    rfl

end

/-! ## One station of the mask -/

/-- What ABANDON makes of a station, the device in run state `run`, in a resumption or not (R37, R38). -/
def Station.abandonedAs (t : Station) (n : StationNo) (run : RunState) (resuming : Bool) (t' : Station) : Prop :=
  (t.state = .off → t' = t)
    ∧ (t.state ≠ .off → ∃ lp, lp.up = false ∧ lp.rxOn = false ∧ t' = (t.pageAbandoned n run resuming).abandoned lp)

/-- A station's result of ABANDON. -/
def Station.abandonResult (t : Station) : Res :=
  if t.state = .off then Res.ended .state else Res.okv t.queue.length

/-- ABANDON's part at one station, its own result not yet recorded. -/
def State.abandonWork (s : State) (n : StationNo) : State :=
  if (s.station n).state = .off then s else (s.doAbandon n).1

theorem StationState.abandonRefusal_eq (x : StationState) :
    x.immediateRefusal .abandon = if x = .off then some .state else none := by
  cases x <;> rfl

section
variable (s : State) (n : StationNo) (j : Nat)

theorem State.immediateAt_abandon : s.immediateAt j .abandon (fun s n => s.doAbandon n) n
    = (s.abandonWork n).recordResult n j (s.station n).abandonResult := by
  unfold State.immediateAt State.abandonWork Station.abandonResult
  rw [StationState.abandonRefusal_eq]
  by_cases hoff : (s.station n).state = .off
  · rw [if_pos hoff, if_pos hoff, if_pos hoff]
  · rw [if_neg hoff, if_neg hoff, if_neg hoff]
    rfl

/-- The jobs that ABANDON ends at a station. -/
def Station.endedJobs (t : Station) : List QJob := if t.state = .off then [] else t.queue

theorem State.abandonWork_eq : ∃ t b acq hmp, s.abandonWork n
    = State.recordAll { s.setStation n t with attention := b, acq := acq, hmp := hmp } n (Res.ended .abandoned)
        (s.station n).endedJobs
    ∧ (s.station n).abandonedAs n s.runState s.resuming t := by
  unfold State.abandonWork Station.endedJobs
  by_cases hoff : (s.station n).state = .off
  · refine ⟨s.station n, s.attention, s.acq, s.hmp, ?_, fun _ => rfl, fun h => absurd hoff h⟩
    rw [if_pos hoff, if_pos hoff]
    exact (State.setStation_self s n).symm
  · obtain ⟨lp, b, acq, hmp, hdoes, hup, hrx⟩ := s.doAbandon_frame n
    refine ⟨_, b, acq, hmp, ?_, fun h => absurd h hoff, fun _ => ⟨lp, hup, hrx, rfl⟩⟩
    rw [if_neg hoff, if_neg hoff, hdoes]
    rfl

/-- What ABANDON's part at a station changes of the device and the stations. -/
theorem State.abandonWork_frame : (s.abandonWork n).tb = s.tb ∧ (s.abandonWork n).runState = s.runState
    ∧ (s.abandonWork n).resuming = s.resuming ∧ (∀ m, m ≠ n → (s.abandonWork n).station m = s.station m)
    ∧ (s.station n).abandonedAs n s.runState s.resuming ((s.abandonWork n).station n) := by
  obtain ⟨t, b, acq, hmp, hdoes, ht⟩ := s.abandonWork_eq n
  obtain ⟨held, jobQ, hrec⟩ := State.recordAll_frame
    { s.setStation n t with attention := b, acq := acq, hmp := hmp } n (Res.ended .abandoned) (s.station n).endedJobs
  rw [hdoes, hrec]
  refine ⟨rfl, rfl, rfl, fun m hm => State.setStation_other s t hm, ?_⟩
  have hstation : (s.setStation n t).station n = t := State.setStation_station ..
  exact hstation.symm ▸ ht

theorem State.abandonWork_held : ∃ F, (s.abandonWork n).held = s.held.map F
    ∧ EndsJobs n ((s.station n).endedJobs.map QJob.jid) (Res.ended .abandoned) F := by
  obtain ⟨t, b, acq, hmp, hdoes, -⟩ := s.abandonWork_eq n
  rw [hdoes]
  exact State.recordAll_held ..

end

/-! ## The stations of the mask -/

/-- ABANDON at the stations of a list without repeats. -/
theorem abandonEach_stations (j : Nat) (l : List StationNo) (hl : l.Nodup) (s : State) :
    let u := l.foldl (fun s n => s.immediateAt j .abandon (fun s n => s.doAbandon n) n) s
    (∀ n, n ∉ l → u.station n = s.station n)
      ∧ ∀ n, n ∈ l → (s.station n).abandonedAs n s.runState s.resuming (u.station n) := by
  induction l generalizing s with
  | nil => exact ⟨fun _ _ => rfl, fun n hn => nomatch hn⟩
  | cons m ms ih =>
    intro u
    obtain ⟨hm, hms⟩ := List.nodup_cons.mp hl
    obtain ⟨-, hrun, hres, hother, hself⟩ := s.abandonWork_frame m
    have hstation : ∀ n, (s.immediateAt j .abandon (fun s n => s.doAbandon n) m).station n = (s.abandonWork m).station n := by
      intro n
      rw [State.immediateAt_abandon]
      exact State.station_congr (State.recordResult_stations ..) n
    have hrunAt : (s.immediateAt j .abandon (fun s n => s.doAbandon n) m).runState = s.runState := by
      rw [State.immediateAt_abandon, State.recordResult_frame]
      exact hrun
    have hresAt : (s.immediateAt j .abandon (fun s n => s.doAbandon n) m).resuming = s.resuming := by
      rw [State.immediateAt_abandon, State.recordResult_frame]
      exact hres
    obtain ⟨hrest, hin⟩ := ih hms (s.immediateAt j .abandon (fun s n => s.doAbandon n) m)
    refine ⟨fun n hn => ?_, fun n hn => ?_⟩
    · rw [List.mem_cons, not_or] at hn
      exact (hrest n hn.2).trans ((hstation n).trans (hother n hn.1))
    · by_cases he : n = m
      · subst he
        have hlast : u.station n = (s.abandonWork n).station n := (hrest n hm).trans (hstation n)
        rw [hlast]
        exact hself
      · have hnext := hin n ((List.mem_cons.mp hn).resolve_left he)
        rw [hstation, hother n he, hrunAt, hresAt] at hnext
        exact hnext

end Sys2Proof.Machine
end

section
/-! ABANDON puts the named stations OFF (R37, R38). -/

namespace Sys2Proof.Machine

/-! ## The held jobs while ABANDON goes through its mask -/

/-- The ABANDON job `h` with the results `r` at the stations of `l` alone. -/
def HeldJob.upTo (h : HeldJob) (r : StationNo → Res) (l : List StationNo) : HeldJob :=
  { h with results := Vector.ofFn fun n => if n ∈ l then some (r n) else none }

/-- `u` is the device after ABANDON, held as `x`, went through the stations of `l` of the device `s`: its jobs at
those that were not OFF have ended ABANDONED, and the other stations are as they were. -/
structure State.AbandonedAt (s : State) (x : HeldJob) (l : List StationNo) (u : State) : Prop where
  tb : u.tb = s.tb
  others : ∀ n, n ∉ l → u.station n = s.station n
  nodup : (u.held.map HeldJob.jid).Nodup
  own : x ∈ u.held
  ended : ∀ n ∈ l, ∀ p ∈ (s.station n).endedJobs, ∀ y ∈ u.held, y.jid = p.jid →
    y.resultAt n = some (Res.ended .abandoned)

section
variable {s u : State} {x : HeldJob} {l : List StationNo} {n : StationNo}

theorem HeldJob.upTo_complete (ho : x.own = none) (r : StationNo → Res) :
    (x.upTo r l).complete = (maskStations x.mask).all fun n => decide (n ∈ l) := by
  have hown : (x.upTo r l).own = none := ho
  unfold HeldJob.complete
  rw [hown]
  simp only [Option.isSome_none, Bool.false_or]
  have hmask : (x.upTo r l).mask = x.mask := rfl
  rw [hmask]
  congr 1
  funext n
  by_cases e : n ∈ l <;> simp [HeldJob.resultAt, HeldJob.upTo, e]

theorem HeldJob.upTo_set (x : HeldJob) (r : StationNo → Res) (l : List StationNo) (n : StationNo) :
    { x.upTo r l with results := (x.upTo r l).results.set n.val (some (r n)) } = x.upTo r (l ++ [n]) := by
  have hv := set_ofFn (fun m => if m ∈ l then some (r m) else none)
    (fun m => if m ∈ l ++ [n] then some (r m) else none) n (fun m hm => by simp [hm])
  simp only [List.mem_append, List.mem_singleton, or_true, if_true] at hv
  simp only [HeldJob.upTo, List.mem_append, List.mem_singleton]
  rw [hv]

/-- The work at the next station, the result of it not yet recorded. -/
theorem State.AbandonedAt.work (h : s.AbandonedAt x l u) (hn : n ∉ l)
    (hjobs : ∀ p ∈ (s.station n).queue, p.jid ≠ x.jid) : s.AbandonedAt x (l ++ [n]) (u.abandonWork n) := by
  obtain ⟨htb, -, -, hother, -⟩ := u.abandonWork_frame n
  obtain ⟨F, hheld, hends⟩ := u.abandonWork_held n
  have hmap : (u.abandonWork n).held.map HeldJob.jid = u.held.map HeldJob.jid := by
    rw [hheld, List.map_map]
    exact List.map_congr_left fun y _ => (hends y).1
  rw [h.others n hn] at hends
  refine ⟨htb.trans h.tb, fun m hm => ?_, hmap ▸ h.nodup, ?_, fun m hm p hp y hy hj => ?_⟩
  · rw [List.mem_append, not_or, List.mem_singleton] at hm
    exact (hother m hm.2).trans (h.others m hm.1)
  · rw [hheld]
    obtain ⟨-, hkeep, -, -⟩ := hends x
    have hx : F x = x := hkeep fun hmem => by
      obtain ⟨p, hp, he⟩ := List.mem_map.mp hmem
      refine hjobs p ?_ he
      unfold Station.endedJobs at hp
      split at hp
      · cases hp
      · exact hp
    exact List.mem_map.mpr ⟨x, h.own, hx⟩
  · rw [hheld] at hy
    obtain ⟨z, hz, rfl⟩ := List.mem_map.mp hy
    obtain ⟨hjid, -, hkeep, hend⟩ := hends z
    rw [hjid] at hj
    by_cases he : m = n
    · subst he
      exact hend (List.mem_map.mpr ⟨p, hp, hj.symm⟩)
    · rw [hkeep m he]
      rw [List.mem_append, List.mem_singleton] at hm
      exact h.ended m (hm.resolve_right he) p hp z hz hj

/-- The own job `x` replaced by `x'` of the same number. -/
theorem State.AbandonedAt.replace (h : s.AbandonedAt x l u) {x' : HeldJob} (hj : x'.jid = x.jid)
    (hjobs : ∀ n ∈ l, ∀ p ∈ (s.station n).queue, p.jid ≠ x.jid) {w : State} (hw : w.tb = u.tb)
    (hstations : w.stations = u.stations) (hheld : w.held = replaced u.held x.jid x') : s.AbandonedAt x' l w := by
  refine ⟨hw.trans h.tb, fun m hm => (State.station_congr hstations m).trans (h.others m hm), ?_, ?_,
    fun m hm p hp y hy hyj => ?_⟩
  · rw [hheld]
    exact replaced_nodup h.nodup hj
  · rw [hheld]
    exact mem_replaced h.own x'
  · rw [hheld] at hy
    obtain ⟨z, hz, hzy⟩ := List.mem_map.mp hy
    by_cases hzx : z.jid = x.jid
    · rw [if_pos hzx] at hzy
      refine absurd (hyj.symm.trans (hzy ▸ hj)) (hjobs m hm p ?_)
      unfold Station.endedJobs at hp
      split at hp
      · cases hp
      · exact hp
    · rw [if_neg hzx] at hzy
      exact hzy ▸ h.ended m hm p hp z hz (hzy ▸ hyj)

/-- ABANDON's part at the next station, its result recorded and the job not yet finished. -/
theorem State.AbandonedAt.recorded {r : StationNo → Res} (h : s.AbandonedAt (x.upTo r l) l u) (hn : n ∉ l)
    (hr : r n = (s.station n).abandonResult) (hjobs : ∀ m, ∀ p ∈ (s.station m).queue, p.jid ≠ x.jid) :
    s.AbandonedAt (x.upTo r (l ++ [n])) (l ++ [n])
        { u.abandonWork n with held := replaced (u.abandonWork n).held x.jid (x.upTo r (l ++ [n])) }
      ∧ u.immediateAt x.jid .abandon (fun s n => s.doAbandon n) n
        = ({ u.abandonWork n with held := replaced (u.abandonWork n).held x.jid (x.upTo r (l ++ [n])) } : State).finishJob
            x.jid := by
  have hwork := h.work hn (hjobs n)
  refine ⟨hwork.replace (x' := x.upTo r (l ++ [n])) rfl (fun m _ => hjobs m) rfl rfl rfl, ?_⟩
  rw [State.immediateAt_abandon, h.others n hn, ← hr]
  unfold State.recordResult
  refine congrArg (State.finishJob · x.jid) ?_
  refine (State.modHeld_replaced hwork.nodup hwork.own _).trans ?_
  exact congrArg (fun y => { u.abandonWork n with held := replaced (u.abandonWork n).held x.jid y })
    (HeldJob.upTo_set x r l n)

/-- ABANDON's part at a station after which others of its mask are to come. -/
theorem State.AbandonedAt.next {r : StationNo → Res} (h : s.AbandonedAt (x.upTo r l) l u) (hn : n ∉ l)
    (hr : r n = (s.station n).abandonResult) (hjobs : ∀ m, ∀ p ∈ (s.station m).queue, p.jid ≠ x.jid)
    (hc : (x.upTo r (l ++ [n])).complete = false) :
    s.AbandonedAt (x.upTo r (l ++ [n])) (l ++ [n]) (u.immediateAt x.jid .abandon (fun s n => s.doAbandon n) n) := by
  obtain ⟨hdone, hstep⟩ := h.recorded hn hr hjobs
  have hwork := h.work hn (hjobs n)
  rw [hstep]
  refine Eq.mpr (congrArg _ ?_) hdone
  exact State.finishJob_idle (h := x.upTo r l) hwork.nodup hwork.own rfl (.inl hc)

/-- ABANDON's part at the last station of its mask: the job is written back. -/
theorem State.AbandonedAt.last {r : StationNo → Res} (h : s.AbandonedAt (x.upTo r l) l u) (hn : n ∉ l)
    (hr : r n = (s.station n).abandonResult) (hjobs : ∀ m, ∀ p ∈ (s.station m).queue, p.jid ≠ x.jid)
    (hc : (x.upTo r (l ++ [n])).complete = true) (hf : x.formed = none) (ht : x.taken ≠ .waiting)
    {tb : Tick} (htb : (u.abandonWork n).tb = tb) :
    let bytes := resultBytes (x.upTo r (l ++ [n])).results (x.upTo r (l ++ [n])).overall tb
    let done : HeldJob := { x.upTo r (l ++ [n]) with formed := some bytes }
    let w := u.immediateAt x.jid .abandon (fun s n => s.doAbandon n) n
    s.AbandonedAt done (l ++ [n]) w ∧ ∃ q, w.hmp.jobQ = q ++ done.backWrites bytes := by
  subst htb
  intro bytes done w
  obtain ⟨hdone, hstep⟩ := h.recorded hn hr hjobs
  have hwork := h.work hn (hjobs n)
  have hw : w = _ := hstep.trans
    (State.finishJob_formed (h := x.upTo r l) (h' := x.upTo r (l ++ [n])) hwork.nodup hwork.own rfl hc hf)
  refine ⟨hwork.replace (x' := done) rfl (fun m _ => hjobs m) ?_ ?_ ?_, (u.abandonWork n).hmp.jobQ, ?_⟩
  · rw [hw]
  · rw [hw]
  · rw [hw]
  · rw [hw]
    exact congrArg ((u.abandonWork n).hmp.jobQ ++ ·) (if_neg ht)

/-- ABANDON's parts at all but the last of its stations. -/
theorem State.AbandonedAt.each {r : StationNo → Res} (hjobs : ∀ m, ∀ p ∈ (s.station m).queue, p.jid ≠ x.jid)
    (ho : x.own = none) (hr : ∀ m, r m = (s.station m).abandonResult) (rest : List StationNo) :
    ∀ (l : List StationNo) (u : State), s.AbandonedAt (x.upTo r l) l u → maskStations x.mask = l ++ rest ++ [n] →
      s.AbandonedAt (x.upTo r (l ++ rest)) (l ++ rest)
        (rest.foldl (fun s n => s.immediateAt x.jid .abandon (fun s n => s.doAbandon n) n) u) := by
  induction rest with
  | nil =>
    intro l u h _
    rw [List.append_nil]
    exact h
  | cons m ms ih =>
    intro l u h hmask
    have hnd : (l ++ m :: ms ++ [n]).Nodup := hmask ▸ maskStations_nodup x.mask
    rw [List.append_assoc, List.nodup_append] at hnd
    obtain ⟨-, htail, hapart⟩ := hnd
    have hm : m ∉ l := fun hm => hapart m hm m (List.mem_cons_self ..) rfl
    have hlast : n ∉ l ++ [m] := fun hn => by
      rcases List.mem_append.mp hn with hl | hl
      · exact hapart n hl n (by simp) rfl
      · obtain rfl := List.mem_singleton.mp hl
        exact (List.nodup_cons.mp htail).1 (by simp)
    have hopen : (x.upTo r (l ++ [m])).complete = false := by
      rw [HeldJob.upTo_complete ho, List.all_eq_false]
      exact ⟨n, hmask ▸ List.mem_append_right _ (List.mem_singleton_self n), by simpa using hlast⟩
    have hmid : l ++ m :: ms = l ++ [m] ++ ms := List.append_cons l m ms
    rw [List.foldl_cons, hmid]
    exact ih (l ++ [m]) _ (h.next hm (hr m) hjobs hopen) (by rw [hmask, hmid])

/-- ABANDON's parts at all its stations: the job is written back. -/
theorem State.AbandonedAt.all {r : StationNo → Res} {j : Nat} {mask : Mask8} (h : s.AbandonedAt (x.upTo r []) [] u)
    (hj : x.jid = j) (hmask : x.mask = mask) (hjobs : ∀ m, ∀ p ∈ (s.station m).queue, p.jid ≠ j) (ho : x.own = none)
    (hf : x.formed = none) (ht : x.taken ≠ .waiting) (hm : mask ≠ 0) (hr : ∀ m, r m = (s.station m).abandonResult) :
    let bytes := resultBytes (x.upTo r (maskStations mask)).results (x.upTo r (maskStations mask)).overall s.tb
    let done : HeldJob := { x.upTo r (maskStations mask) with formed := some bytes }
    let w := (maskStations mask).foldl (fun s n => s.immediateAt j .abandon (fun s n => s.doAbandon n) n) u
    s.AbandonedAt done (maskStations mask) w ∧ ∃ q, w.hmp.jobQ = q ++ done.backWrites bytes := by
  subst hj hmask
  obtain ⟨pre, n, hpre⟩ : ∃ pre n, maskStations x.mask = pre ++ [n] :=
    ⟨_, _, (List.dropLast_append_getLast (maskStations_ne_nil hm)).symm⟩
  have hbefore := State.AbandonedAt.each hjobs ho hr pre [] u h hpre
  have hn : n ∉ pre := fun hn => by
    have hnd : (pre ++ [n]).Nodup := hpre ▸ maskStations_nodup x.mask
    exact (List.nodup_append.mp hnd).2.2 n hn n (List.mem_singleton_self n) rfl
  have hfull : (x.upTo r (pre ++ [n])).complete = true := by
    rw [HeldJob.upTo_complete ho, hpre, List.all_eq_true]
    exact fun m hm => decide_eq_true hm
  rw [hpre, List.foldl_append]
  exact hbefore.last hn (hr n) hjobs hfull hf ht (hbefore.work hn (hjobs n)).tb

end

/-! ## The obligation -/

/-- ABANDON executed from its slot read. -/
theorem exec_abandon {s : State} {id i : Nat} {slot : Word64} {live : Bool} {h : JobHeader}
    (ha : s.awaitsSlot id i slot live) (hm : h.mask ≠ 0) : exec (.abandon id h) s
      = .next (((maskStations h.mask).foldl (fun s' n => s'.immediateAt s.nextJid .abandon (fun s n => s.doAbandon n) n)
          ((s.endRead id).hold slot (postedView h .abandon) noResults none .notNeeded)).afterSlot i live) := by
  refine congrArg Host.Outcome.next ((State.jobArrives_immediate ha rfl rfl hm).trans ?_)
  unfold State.immediate
  rw [postedView_header]
  rfl

theorem Station.pageAbandoned_running (t : Station) (n : StationNo) (resuming : Bool) :
    (t.pageAbandoned n .running resuming).pg.page = t.pg.page
      ∧ (t.pageAbandoned n .running resuming).pg.inHand = none
      ∧ (t.pageAbandoned n .running resuming).pageQ = (t.pageQ.filter fun a => !a.purpose.isCut)
          ++ (t.pg.page.elim [] fun p => sealWrites p n .abandon t.prof.timeShift false)
      ∧ (t.pageAbandoned n .running resuming).cap = t.cap ∧ (t.pageAbandoned n .running resuming).au = t.au := by
  show (sealStation n .abandon (cutPage t)).pg.page = _ ∧ (sealStation n .abandon (cutPage t)).pg.inHand = none
    ∧ (sealStation n .abandon (cutPage t)).pageQ = _ ∧ (sealStation n .abandon (cutPage t)).cap = t.cap
    ∧ (sealStation n .abandon (cutPage t)).au = t.au
  cases hp : t.pg.page with
  | none =>
    have hidle : sealStation n .abandon (cutPage t) = cutPage t := by
      unfold sealStation
      rw [show (cutPage t).pg.page = none from hp]
    rw [hidle]
    exact ⟨hp, rfl, (List.append_nil _).symm, rfl, rfl⟩
  | some p =>
    rw [sealStation_page (t := cutPage t) hp, if_neg nofun, List.append_nil]
    exact ⟨hp, rfl, rfl, rfl, rfl⟩

theorem Station.pageAbandoned_faulted {t : Station} {p : OpenPage} (n : StationNo) (hp : t.pg.page = some p) :
    (t.pageAbandoned n .faulted false).pg.page = none
      ∧ (t.pageAbandoned n .faulted false).pg.detached = some { p with
          shift := if p.count = 0 then t.prof.timeShift else p.shift }
      ∧ (t.pageAbandoned n .faulted false).pageQ = t.pageQ.filter fun a => !a.purpose.isCut := by
  have hdetached : t.pageAbandoned n .faulted false = detachPage (cutPage t) := rfl
  rw [hdetached]
  unfold detachPage
  rw [show (cutPage t).pg.page = some p from hp]
  exact ⟨rfl, rfl, rfl⟩

section
variable {s : State} {id : Nat} {slot : Word64} {h : JobHeader}

/-- The device after ABANDON has gone through its mask, the sweep not yet gone on. -/
def State.afterAbandon (s : State) (id : Nat) (slot : Word64) (h : JobHeader) : State :=
  (maskStations h.mask).foldl (fun s' n => s'.immediateAt s.nextJid .abandon (fun s n => s.doAbandon n) n)
    ((s.endRead id).hold slot (postedView h .abandon) noResults none .notNeeded)

/-- What ABANDON leaves of the held jobs: its own written back, and those of its stations ended there. -/
theorem State.afterAbandon_held (hi : s.jobsInv) (hm : h.mask ≠ 0) :
    (∃ q, (s.afterAbandon id slot h).writtenBack q slot h
        (perStation h.mask fun n => (s.station n).abandonResult) none s.tb)
      ∧ ∀ n ∈ maskStations h.mask, ∀ p ∈ (s.station n).endedJobs, ∀ y ∈ (s.afterAbandon id slot h).held,
          y.jid = p.jid → y.resultAt n = some (Res.ended .abandoned) := by
  obtain ⟨hnodup, -, hjid, hqueue, -⟩ := hi
  have hjobs : ∀ m, ∀ p ∈ (s.station m).queue, p.jid ≠ s.nextJid := fun m p hp => Nat.ne_of_lt (hqueue m p hp)
  generalize hx : newHeld s.nextJid slot (postedView h .abandon) noResults none .notNeeded = x
  have hxslot : x.slot = slot := by rw [← hx]; rfl
  have hxmask : x.mask = h.mask := by rw [← hx]; rfl
  have hxnotify : x.notify = h.notify := by rw [← hx]; rfl
  have hxown : x.own = none := by rw [← hx]; rfl
  have hsame : x.upTo (fun n => (s.station n).abandonResult) [] = x := by
    rw [← hx]
    unfold HeldJob.upTo newHeld noResults
    congr 1
  have hheld : ((s.endRead id).hold slot (postedView h .abandon) noResults none .notNeeded).held = s.held ++ [x] := by
    rw [← hx]
    rfl
  have hstart : s.AbandonedAt (x.upTo (fun n => (s.station n).abandonResult) []) []
      ((s.endRead id).hold slot (postedView h .abandon) noResults none .notNeeded) := by
    rw [hsame]
    refine ⟨rfl, fun _ _ => rfl, ?_, ?_, fun n hn => nomatch hn⟩
    · rw [hheld, List.map_append, List.nodup_append]
      refine ⟨hnodup, by simp, fun a ha b hb => ?_⟩
      obtain ⟨y, hy, rfl⟩ := List.mem_map.mp ha
      have hb' : b = s.nextJid := by
        rw [List.mem_singleton.mp hb, ← hx]
        rfl
      exact hb' ▸ Nat.ne_of_lt (hjid y hy)
    · rw [hheld]
      exact List.mem_append_right _ (List.mem_singleton_self _)
  have hresults : (x.upTo (fun n => (s.station n).abandonResult) (maskStations h.mask)).results
      = perStation h.mask fun n => (s.station n).abandonResult := by
    simp only [HeldJob.upTo, perStation, mem_maskStations]
  obtain ⟨hdone, q, hq⟩ := hstart.all (j := s.nextJid) (by rw [← hx]; rfl) hxmask hjobs hxown (by rw [← hx]; rfl)
    (by rw [← hx]; nofun) hm fun _ => rfl
  refine ⟨⟨q, _, hdone.own, hxslot, hxmask, hxnotify, hresults, hxown, ?_, ?_⟩, hdone.ended⟩
  · rw [← hresults]
    rfl
  · rw [← hresults]
    exact hq

theorem State.afterAbandon_stations (s : State) (id : Nat) (slot : Word64) (h : JobHeader) :
    (∀ n, n ∉ maskStations h.mask → (s.afterAbandon id slot h).station n = s.station n)
      ∧ ∀ n, n ∈ maskStations h.mask →
        (s.station n).abandonedAs n s.runState s.resuming ((s.afterAbandon id slot h).station n) :=
  abandonEach_stations s.nextJid (maskStations h.mask) (maskStations_nodup _)
    ((s.endRead id).hold slot (postedView h .abandon) noResults none .notNeeded)

end

/-- Settles O21: ABANDON at each station of its mask. -/
theorem abandonPutsStationsOff : Obligations.AbandonPutsStationsOff := by
  unfold Obligations.AbandonPutsStationsOff
  refine ⟨fun s id i slot live h hi ha hm hrun => ?_, fun s id i slot live h n p ha hn hrun hres hstate hp => ?_⟩
  · obtain ⟨⟨q, hback⟩, hended⟩ := State.afterAbandon_held (id := id) (slot := slot) hi hm
    obtain ⟨hout, hin⟩ := s.afterAbandon_stations id slot h
    refine ⟨s.afterAbandon id slot h, q, exec_abandon ha hm, hback, fun n => ?_⟩
    intro t
    split
    next hnamed =>
      obtain ⟨hn, hoff⟩ := hnamed
      have hmem : n ∈ maskStations h.mask := (mem_maskStations _ n).mpr hn
      obtain ⟨-, hon⟩ := hin n hmem
      obtain ⟨lp, hup, hrx, hu⟩ := hon hoff
      rw [hrun] at hu
      obtain ⟨hpage, hhand, hpageQ, hcap, hau⟩ := t.pageAbandoned_running n s.resuming
      rw [hu]
      have hjobs : ∀ p ∈ t.queue, ∀ hj ∈ (s.afterAbandon id slot h).held, hj.jid = p.jid →
          hj.resultAt n = some (Res.ended .abandoned) := by
        have hq : t.endedJobs = t.queue := if_neg hoff
        exact hq ▸ hended n hmem
      refine ⟨rfl, rfl, rfl, rfl, rfl, rfl, rfl, rfl, rfl, ?_, rfl, rfl, ?_, hup, hrx, rfl, rfl, rfl, rfl, rfl, rfl,
        hpage, hhand, rfl, rfl, hpageQ, hjobs⟩
      · exact (congrArg (fun c => (Capture.shut c).seq) hcap).trans rfl
      · exact congrArg AccessUnit.clear hau
    next hnamed =>
      by_cases hn : inMask h.mask n = true
      · have hoff : t.state = .off := by
          by_contra hoff
          exact hnamed ⟨hn, hoff⟩
        exact (hin n ((mem_maskStations _ n).mpr hn)).1 hoff
      · exact hout n fun hmem => hn ((mem_maskStations _ n).mp hmem)
  · have hm : h.mask ≠ 0 := by
      rintro hzero
      rw [hzero] at hn
      simp [inMask] at hn
    obtain ⟨-, hin⟩ := s.afterAbandon_stations id slot h
    obtain ⟨-, hon⟩ := hin n ((mem_maskStations _ n).mpr hn)
    obtain ⟨lp, hup, hrx, hu⟩ := hon hstate
    rw [hrun, hres] at hu
    obtain ⟨hpage, hdetached, hpageQ⟩ := Station.pageAbandoned_faulted n hp
    refine ⟨s.afterAbandon id slot h, exec_abandon ha hm, ?_⟩
    rw [hu]
    exact ⟨rfl, hpage, hdetached, hpageQ⟩

end Sys2Proof.Machine
end

section
/-! Failed accesses: the host-memory fault and the mark of the job that owns the access (R163, R170, R183). -/

namespace Sys2Proof.Machine

/-! ## What a fault records and what it ends -/

/-- The device with the address, class and station of a failed access recorded, and HOST MEMORY FAULT set. -/
def State.faultNoted (s : State) (a : Access) : State :=
  ({ s with faultAddr := a.addr, faultClass := a.cls.fault, faultStation := a.station.getD 0 }).setAttn .hostMemoryFault

section
variable {s : State} {a : Access}

theorem State.hostFault_again (hst : s.runState = .faulted) (hres : s.resuming = false) : s.hostFault a = s :=
  if_pos ⟨hst, hres⟩

theorem State.hostFault_taken (h : s.runState = .faulted → s.resuming = true) : s.hostFault a
    = match s.runState with
      | .faulted => (s.faultNoted a).dropSeals
      | .running => { (s.faultNoted a).endSweeping.freezePages with
          runState := .faulted, halting := false, startFault := false }
      | .stopped => { (s.faultNoted a).dropStart with runState := .faulted, startFault := s.start != .none } := by
  have hno : ¬ (s.runState = .faulted ∧ s.resuming = false) := fun ⟨hst, hres⟩ =>
    Bool.false_ne_true (hres.symm.trans (h hst))
  exact (if_neg hno).trans rfl

theorem State.hostFault_resuming (hst : s.runState = .faulted) (hres : s.resuming = true) :
    s.hostFault a = (s.faultNoted a).dropSeals := by
  rw [State.hostFault_taken fun _ => hres, hst]

theorem State.hostFault_running (hst : s.runState = .running) : s.hostFault a
    = { (s.faultNoted a).endSweeping.freezePages with runState := .faulted, halting := false, startFault := false } := by
  rw [State.hostFault_taken fun h => absurd (hst.symm.trans h) nofun, hst]

theorem State.hostFault_stopped (hst : s.runState = .stopped) : s.hostFault a
    = { (s.faultNoted a).dropStart with runState := .faulted, startFault := s.start != .none } := by
  rw [State.hostFault_taken fun h => absurd (hst.symm.trans h) nofun, hst]

/-- What every fault that is taken leaves of the device. -/
theorem State.hostFault_records (h : s.runState = .faulted → s.resuming = true) : (s.hostFault a).runState = .faulted
    ∧ (s.hostFault a).faultAddr = a.addr ∧ (s.hostFault a).faultClass = a.cls.fault
    ∧ (s.hostFault a).faultStation = a.station.getD 0
    ∧ (s.hostFault a).attention = s.attention ||| Attn.hostMemoryFault.mask
    ∧ (s.hostFault a).run = s.run ∧ (s.hostFault a).area = s.area ∧ (s.hostFault a).startCheck = s.startCheck
    ∧ ∀ n, (s.hostFault a).station n = s.station n ∨ (s.hostFault a).station n = cutPage (s.station n) := by
  cases hst : s.runState with
  | faulted =>
    rw [State.hostFault_resuming hst (h hst)]
    exact ⟨hst, rfl, rfl, rfl, rfl, rfl, rfl, rfl, fun n => .inr (State.mapStations_station ..)⟩
  | running =>
    rw [State.hostFault_running hst]
    exact ⟨rfl, rfl, rfl, rfl, rfl, rfl, rfl, rfl, fun n => .inr (State.mapStations_station ..)⟩
  | stopped =>
    rw [State.hostFault_stopped hst]
    exact ⟨rfl, rfl, rfl, rfl, rfl, rfl, rfl, rfl, fun n => .inl rfl⟩

theorem State.hostFault_held : (s.hostFault a).held = s.held := by
  by_cases h : s.runState = .faulted ∧ s.resuming = false
  · rw [State.hostFault_again h.1 h.2]
  · have htaken : s.runState = .faulted → s.resuming = true := fun hst => by
      by_contra hres
      exact h ⟨hst, by simpa using hres⟩
    rw [State.hostFault_taken htaken]
    cases s.runState <;> rfl

end

/-! ## Marks of held jobs (R170) -/

section
variable (s : State) (p : Purpose)

theorem State.markFailure_frame : s.markFailure p = { s with held := (s.markFailure p).held } := by
  unfold State.markFailure
  split
  · rfl
  · unfold State.markWriteFail
    split_ifs <;> rfl
  · rfl
  · rfl

theorem State.heldJob_isSome_iff (j : Nat) : (s.heldJob j).isSome = true ↔ ∃ x ∈ s.held, x.jid = j := by
  simp [State.heldJob]

theorem State.modHeld_held (j : Nat) (f : HeldJob → HeldJob) :
    (s.modHeld j f).held = s.held.map fun h => if h.jid = j then f h else h := by
  simp only [State.modHeld, beq_iff_eq]

variable {s p}

theorem State.markFailure_data {j : Nat} {n : StationNo} (h : p.dataOf = some (j, n)) : (s.markFailure p).held
    = s.held.map fun h => if h.jid = j then { h with memFail := h.memFail ||| (1#8 <<< n.val) } else h := by
  unfold State.markFailure
  rw [h]
  exact State.modHeld_held ..

theorem State.markFailure_result {h : HeldJob} (hp : p = .result h ∨ p = .done h) :
    s.markFailure p = s.markWriteFail h := by
  rcases hp with rfl | rfl <;> rfl

theorem State.markFailure_taken (j : Nat) : (s.markFailure (.taken j)).held
    = s.held.map fun h => if h.jid = j then { h with takenFail := true } else h := State.modHeld_held ..

theorem State.markFailure_nobody (h : p.jid = none) : s.markFailure p = s := by
  cases p with
  | taken _ | profileRead _ _ | programRead _ _ _ | writeData _ _ | data _ _ | statusRec _ _ | result _ | done _ => cases h
  | _ => rfl

theorem State.markWriteFail_held {h : HeldJob} (hh : ∃ x ∈ s.held, x.jid = h.jid) : (s.markWriteFail h).held
    = s.held.map fun x => if x.jid = h.jid then { x with writeFail := true } else x := by
  unfold State.markWriteFail
  rw [if_pos ((s.heldJob_isSome_iff h.jid).mpr hh)]
  exact State.modHeld_held ..

theorem State.markWriteFail_released {h : HeldJob} (hh : ∀ x ∈ s.held, x.jid ≠ h.jid) : s.markWriteFail h
    = if ∃ x ∈ s.held, x.slot = h.slot then s else s.addHeld { h with writeFail := true, doneIssued := true } := by
  have hno : ¬ (s.heldJob h.jid).isSome = true := fun hsome => by
    obtain ⟨x, hx, hj⟩ := (s.heldJob_isSome_iff h.jid).mp hsome
    exact hh x hx hj
  unfold State.markWriteFail
  rw [if_neg hno]
  refine if_congr ?_ rfl rfl
  simp [State.holdsSlot]

end

/-! ## The commands that bring a failure (R163) -/

section
variable {s : State} {id : Nat} {x : InFlight} {c : Instr} {a : Access}

/-- A read in flight fails, by an error completion in time or by 50 ms without one. -/
theorem exec_readFails (hx : s.readInFlight id = some x)
    (hc : c = .errorCompletion id ∧ s.elapsed ≤ x.issuedAt + 5000000
      ∨ c = .readTimeout id ∧ x.issuedAt + 5000000 ≤ s.elapsed) :
    exec c s = .next ((s.endRead id).failAccess x.acc) := by
  rcases hc with ⟨rfl, htime⟩ | ⟨rfl, htime⟩
  · refine congrArg Host.Outcome.next ?_
    unfold State.errorCompletion
    rw [hx]
    exact if_pos (decide_eq_true htime)
  · refine congrArg Host.Outcome.next ?_
    unfold State.readTimesOut
    rw [hx]
    exact if_pos htime

/-- The device with a failed access ended: its read no longer in flight, or its write marked failed. -/
theorem exec_fails (h : s.failsBy c a) : ∃ flight writes, exec c s
    = .next (({ s with hmp := { s.hmp with inFlight := flight, writes := writes } } : State).failAccess a) := by
  rcases h with ⟨id, x, hx, rfl, hc⟩ | ⟨id, w, rfl, hno, hw, rfl⟩
  · exact ⟨_, _, exec_readFails hx hc⟩
  · refine ⟨s.hmp.inFlight, s.hmp.writes.map (IssuedWrite.failWhen id), congrArg Host.Outcome.next ?_⟩
    unfold State.errorCompletion
    rw [hno]
    dsimp only
    rw [hw]

end

end Sys2Proof.Machine
end

section
/-! A failed access faults the device and marks its job (R163, R170, R183). -/

namespace Sys2Proof.Machine

section
variable {s : State} {a : Access}

/-- A failure whose fault is taken: what the fault leaves is what the failure leaves, but for the held jobs. -/
theorem State.failAccess_frame (s : State) (a : Access) :
    s.failAccess a = { s.hostFault a with held := (s.failAccess a).held } :=
  (s.hostFault a).markFailure_frame a.purpose

theorem State.failAccess_station (s : State) (a : Access) (n : StationNo) :
    (s.failAccess a).station n = (s.hostFault a).station n := by
  rw [State.failAccess_frame]
  rfl

/-- What a fault taken while RUNNING ends. -/
theorem State.hostFault_ends (hst : s.runState = .running) : (s.hostFault a).halting = false
    ∧ (s.hostFault a).startFault = false ∧ (s.hostFault a).acq = none ∧ (s.hostFault a).sweep.phase = .idle
    ∧ (s.hostFault a).sweep.pending = false ∧ (s.hostFault a).sweep.timer = none
    ∧ (∀ n, (s.hostFault a).station n = cutPage (s.station n))
    ∧ (s.hostFault a).hmp.inFlight.map InFlight.id = s.hmp.inFlight.map InFlight.id := by
  rw [State.hostFault_running hst]
  refine ⟨rfl, rfl, rfl, rfl, rfl, rfl, fun n => State.mapStations_station .., ?_⟩
  have hid : ∀ (p : Purpose → Bool) (x : InFlight), (x.staleWhen p).id = x.id := fun p x => by
    unfold InFlight.staleWhen
    split <;> rfl
  refine (List.map_map ..).trans ((List.map_map ..).trans ((List.map_map ..).trans ?_))
  exact List.map_congr_left fun x _ => (hid _ _).trans (hid _ x)

/-- No read of this number is in flight after it has ended. -/
theorem State.endRead_ids (s : State) (id : Nat) : id ∉ (s.endRead id).hmp.inFlight.map InFlight.id := by
  intro h
  obtain ⟨x, hx, he⟩ := List.mem_map.mp h
  have hne := (List.mem_filter.mp hx).2
  simp [he] at hne

theorem State.readInFlight_none {id : Nat} (h : id ∉ s.hmp.inFlight.map InFlight.id) : s.readInFlight id = none :=
  List.find?_eq_none.mpr fun x hx he => h (List.mem_map.mpr ⟨x, hx, beq_iff_eq.mp he⟩)

/-- A completion or its absence in FAULTED with no resumption under way changes the port and the held jobs alone. -/
theorem exec_completion_faulted {id : Nat} {c : Instr} (hc : c = .errorCompletion id ∨ c = .readTimeout id)
    (hst : s.runState = .faulted) (hres : s.resuming = false) :
    ∃ hmp held, exec c s = .next { s with hmp := hmp, held := held } := by
  have hsame : ∃ hmp held, (.next s : Answer) = .next { s with hmp := hmp, held := held } :=
    ⟨s.hmp, s.held, rfl⟩
  have hfails : ∀ (hmp : HostPort) (a : Access), ∃ hmp' held,
      (.next (({ s with hmp := hmp } : State).failAccess a) : Answer) = .next { s with hmp := hmp', held := held } := by
    intro hmp a
    rw [State.failAccess_frame, State.hostFault_again (s := { s with hmp := hmp }) hst hres]
    exact ⟨_, _, rfl⟩
  rcases hc with rfl | rfl
  · show ∃ hmp held, (.next (s.errorCompletion id) : Answer) = _
    unfold State.errorCompletion
    split
    · split
      · exact hfails _ _
      · exact hsame
    · split
      · exact hfails _ _
      · exact hsame
  · show ∃ hmp held, (.next (s.readTimesOut id) : Answer) = _
    unfold State.readTimesOut
    split
    · split
      · exact hfails _ _
      · exact hsame
    · exact hsame

/-- What a cut, or nothing, leaves of a station. -/
theorem cutPage_keeps {t t' : Station} (h : t' = t ∨ t' = cutPage t) : t'.pg.page = t.pg.page
    ∧ t'.pg.detached = t.pg.detached ∧ t'.cap = t.cap ∧ t'.queue = t.queue ∧ t'.head = t.head := by
  rcases h with rfl | rfl <;> exact ⟨rfl, rfl, rfl, rfl, rfl⟩

end

/-- Settles O12: the fault of a failure in each run state, and the mark of each kind of access. -/
theorem failureFaultsRunningDevice : Obligations.FailureFaultsRunningDevice := by
  unfold Obligations.FailureFaultsRunningDevice
  refine ⟨⟨fun s id x c hst hx hc => ?_, fun s id c hc hst hres => ?_⟩, fun s c a hf htakes => ?_, fun s c a hf => ?_⟩
  · have hrun : (s.endRead id).runState = .running := hst
    obtain ⟨hfaulted, haddr, hcls, hstation, hatt, hkeeprun, harea, -, -⟩ :=
      State.hostFault_records (s := s.endRead id) (a := x.acc) fun h => absurd (hrun.symm.trans h) nofun
    obtain ⟨-, -, hacq, hphase, hpending, htimer, hcut, hids⟩ := State.hostFault_ends (a := x.acc) hrun
    refine ⟨_, exec_readFails hx hc, ?_⟩
    have hstations := (s.endRead id).failAccess_station x.acc
    have hflight : ((s.endRead id).failAccess x.acc).readInFlight id = none := by
      refine State.readInFlight_none ?_
      rw [State.failAccess_frame]
      exact hids ▸ s.endRead_ids id
    rw [State.failAccess_frame] at hstations hflight ⊢
    refine ⟨hfaulted, haddr, hcls, hstation, hatt, hphase, hpending, htimer, hacq, hkeeprun, harea, hflight, fun n => ?_⟩
    have hn := (hstations n).trans (hcut n)
    rw [hn]
    exact ⟨rfl, rfl, rfl, rfl, rfl⟩
  · obtain ⟨hmp, held, hexec⟩ := exec_completion_faulted hc hst hres
    exact ⟨_, hexec, hst, rfl, rfl, rfl, rfl, rfl⟩
  · obtain ⟨flight, writes, hexec⟩ := exec_fails hf
    refine ⟨_, hexec, ?_⟩
    obtain ⟨hfaulted, haddr, hcls, hstation, hatt, hrun, harea, hcheck, hstations⟩ := State.hostFault_records
      (s := { s with hmp := { s.hmp with inFlight := flight, writes := writes } }) (a := a) htakes
    rw [State.failAccess_frame]
    refine ⟨hfaulted, haddr, ?_, hstation, hatt, hrun, harea, hcheck, fun n => cutPage_keeps (hstations n), fun hst => ?_,
      fun hst hidle => ?_, fun hst hstart => ?_, fun hst => ?_⟩
    · refine hcls.trans ?_
      cases a.cls <;> rfl
    · obtain ⟨hhalting, hstart, hacq, hphase, hpending, htimer, hcut, -⟩ := State.hostFault_ends
        (s := { s with hmp := { s.hmp with inFlight := flight, writes := writes } }) (a := a) hst
      refine ⟨hhalting, hstart, hacq, hphase, hpending, htimer, fun n => ?_⟩
      exact ⟨congrArg (fun t => t.pg.inHand) (hcut n), congrArg (fun t => t.pg.sealing) (hcut n)⟩
    · have hfault := State.hostFault_stopped
        (s := { s with hmp := { s.hmp with inFlight := flight, writes := writes } }) (a := a) hst
      refine ⟨(congrArg State.startFault hfault).trans ?_, (congrArg State.stations hfault).trans rfl⟩
      show (s.start != .none) = false
      simp [hidle]
    · have hfault := State.hostFault_stopped
        (s := { s with hmp := { s.hmp with inFlight := flight, writes := writes } }) (a := a) hst
      refine ⟨(congrArg State.startFault hfault).trans ?_, (congrArg State.start hfault).trans rfl,
        (congrArg State.stations hfault).trans rfl, fun y hy => ?_⟩
      · show (s.start != .none) = true
        simp [hstart]
      · have hq : _ = s.hmp.sweepQ.filter fun a => !a.purpose.isStart :=
          (congrArg (fun w => w.hmp.sweepQ) hfault).trans rfl
        have hmem : y ∈ s.hmp.sweepQ.filter fun a => !a.purpose.isStart := by
          rw [← hq]
          exact hy
        simpa using (List.mem_filter.mp hmem).2
    · have hfault := State.hostFault_resuming
        (s := { s with hmp := { s.hmp with inFlight := flight, writes := writes } }) (a := a) hst (htakes hst)
      refine ⟨(congrArg State.resuming hfault).trans rfl, (congrArg State.startFault hfault).trans rfl,
        (congrArg State.sweep hfault).trans rfl, fun n => ?_⟩
      refine (congrArg (fun w => (State.station w n).pageQ) hfault).trans ?_
      exact congrArg Station.pageQ (State.mapStations_station ..)
  · obtain ⟨flight, writes, hexec⟩ := exec_fails hf
    have hheld : (({ s with hmp := { s.hmp with inFlight := flight, writes := writes } } : State).hostFault a).held
        = s.held := State.hostFault_held
    refine ⟨_, hexec, fun j n hp => ?_, fun h hp => ⟨fun hin => ?_, fun hout hslot => ?_, fun hout hslot => ?_⟩,
      fun j hp => ?_, fun hp => ?_⟩
    · have hdata : a.purpose.dataOf = some (j, n) := by
        rcases hp with h | ⟨k, h⟩ | h | h | h <;> rw [h] <;> rfl
      exact (State.markFailure_data hdata).trans (by rw [hheld])
    · refine (congrArg State.held (State.markFailure_result hp)).trans ?_
      rw [State.markWriteFail_held (by rw [hheld]; exact hin), hheld]
    · refine (congrArg State.held (State.markFailure_result hp)).trans ?_
      rw [State.markWriteFail_released (by rw [hheld]; exact hout), if_pos (by rw [hheld]; exact hslot), hheld]
    · refine (congrArg State.held (State.markFailure_result hp)).trans ?_
      rw [State.markWriteFail_released (by rw [hheld]; exact hout), if_neg (by rw [hheld]; simpa using hslot)]
      exact congrArg (· ++ _) hheld
    · refine (congrArg (fun p => (State.markFailure _ p).held) hp).trans ?_
      rw [State.markFailure_taken, hheld]
    · exact (congrArg State.held (State.markFailure_nobody hp)).trans hheld

end Sys2Proof.Machine
end

section
/-! Resumptions and marked jobs (R155, R170, R184). -/

namespace Sys2Proof.Machine

/-! ## What dealing with marks changes of a station -/

/-- `u` is `t` but for its queue and head, and its head is `t`'s or no longer begun. -/
def Station.headOnly (t u : Station) : Prop :=
  ∃ q h, u = { t with queue := q, head := h } ∧ (h = t.head ∨ h = .waiting)

theorem Station.headOnly.refl (t : Station) : t.headOnly t := ⟨t.queue, t.head, rfl, .inl rfl⟩

theorem Station.headOnly.trans {t u v : Station} (h : t.headOnly u) (h' : u.headOnly v) : t.headOnly v := by
  obtain ⟨q, x, rfl, hx⟩ := h
  obtain ⟨q', x', rfl, hx'⟩ := h'
  refine ⟨q', x', rfl, ?_⟩
  rcases hx' with rfl | rfl
  · exact hx
  · exact .inr rfl

theorem popHead_headOnly (j : Nat) (t : Station) : t.headOnly (popHead j t) := by
  unfold popHead
  split
  · exact ⟨t.queue.tail, .waiting, rfl, .inr rfl⟩
  · exact .refl t

/-- The stations where a job leaves the head, one after the other. -/
theorem foldPopHead_station (j : Nat) (m : Mask8) (s : State) (n : StationNo) :
    ((maskStations m).foldl (fun s n => s.modStation n (popHead j)) s).station n
      = if inMask m n then popHead j (s.station n) else s.station n := by
  rw [foldStations_station (fun _ => popHead j) _ (maskStations_nodup m) s n]
  simp only [mem_maskStations]

theorem State.finishJob_station (s : State) (j : Nat) (n : StationNo) :
    (s.finishJob j).station n = s.station n := State.station_congr (s.finishJob_stations j) n

/-- A job is dealt with by an ending at its failed stations: only where it ends does it leave a head. -/
theorem State.endMemory_station (s : State) (h : HeldJob) (n : StationNo) :
    (s.endMemory h).station n = if (h.memFail ≠ 0 ∧ h.doneIssued = false) ∧ inMask h.memFail n
      then popHead h.jid (s.station n) else s.station n := by
  unfold State.endMemory
  by_cases hno : h.memFail = 0 ∨ h.doneIssued = true
  · rw [if_pos hno, if_neg]
    rintro ⟨⟨h1, h2⟩, -⟩
    rcases hno with hm | hd
    · exact h1 hm
    · rw [hd] at h2; cases h2
  · rw [if_neg hno, State.finishJob_station, State.modHeld_station, foldPopHead_station]
    have hends : h.memFail ≠ 0 ∧ h.doneIssued = false := by simpa using hno
    exact if_congr ⟨fun hm => ⟨hends, hm⟩, fun hm => hm.2⟩ rfl rfl

theorem State.retryWrites_stations (s : State) (h : HeldJob) : (s.retryWrites h).stations = s.stations := by
  unfold State.retryWrites
  split
  · rfl
  · split
    · rw [State.presentResult_stations]; rfl
    · rfl

theorem State.foldRetry_station (l : List HeldJob) (s : State) (n : StationNo) :
    (l.foldl State.retryWrites s).station n = s.station n := by
  induction l generalizing s with
  | nil => rfl
  | cons x xs ih => exact (ih _).trans (State.station_congr (s.retryWrites_stations x) n)

theorem State.foldEnd_headOnly (l : List HeldJob) (s : State) (n : StationNo) :
    (s.station n).headOnly ((l.foldl State.endMemory s).station n) := by
  induction l generalizing s with
  | nil => exact .refl _
  | cons x xs ih =>
    refine Station.headOnly.trans ?_ (ih _)
    rw [State.endMemory_station]
    split
    · exact popHead_headOnly ..
    · exact .refl _

theorem State.dealMarks_headOnly (s : State) (n : StationNo) : (s.station n).headOnly (s.dealMarks.station n) := by
  unfold State.dealMarks
  dsimp only
  rw [State.foldRetry_station]
  exact State.foldEnd_headOnly s.held s n

/-! ## Dealing with one marked job -/

/-- A fold over elements that do nothing. -/
theorem foldl_idle {α β : Type} {g : α → β → α} {l : List β} (h : ∀ x ∈ l, ∀ u, g u x = u) (a : α) : l.foldl g a = a := by
  induction l generalizing a with
  | nil => rfl
  | cons x xs ih => rw [List.foldl_cons, h x List.mem_cons_self, ih fun y hy => h y (List.mem_cons_of_mem _ hy)]

/-- A fold in which all but one element do nothing. -/
theorem foldl_single {α β : Type} {g : α → β → α} {l1 l2 : List β} {b : β} (h1 : ∀ x ∈ l1, ∀ u, g u x = u)
    (h2 : ∀ x ∈ l2, ∀ u, g u x = u) (a : α) : (l1 ++ b :: l2).foldl g a = g a b := by
  rw [List.foldl_append, foldl_idle h1, List.foldl_cons, foldl_idle h2]

theorem State.endMemory_unmarked {x : HeldJob} (hx : x.unmarked) (s : State) : s.endMemory x = s := by
  unfold State.endMemory
  exact if_pos (.inl hx.1)

theorem State.retryWrites_unmarked {x : HeldJob} (hx : x.unmarked) (s : State) : s.retryWrites x = s := by
  obtain ⟨-, hw, ht⟩ := hx
  unfold State.retryWrites
  simp [hw, ht]

/-- With no job marked nothing is dealt with. -/
theorem State.dealMarks_unmarked {s : State} (h : ∀ x ∈ s.held, x.unmarked) : s.dealMarks = s := by
  unfold State.dealMarks
  dsimp only
  rw [foldl_idle fun x hx u => State.endMemory_unmarked (h x hx) u]
  exact foldl_idle (fun x hx u => State.retryWrites_unmarked (h x hx) u) s

/-- The waiting JOB accesses but for the result and DONE writes of job `j`. -/
def withoutResults (q : List Access) (j : Nat) : List Access :=
  q.filter fun x => x.purpose.resultOf.map HeldJob.jid != some j

theorem withoutResults_twice (q : List Access) (j : Nat) : withoutResults (withoutResults q j) j = withoutResults q j := by
  unfold withoutResults
  rw [List.filter_filter]
  simp only [Bool.and_self]

theorem withoutResults_backWrites (q : List Access) (h : HeldJob) (bytes : List Byte) :
    withoutResults (q ++ h.backWrites bytes) h.jid = withoutResults q h.jid := by
  unfold withoutResults HeldJob.backWrites
  rw [List.filter_append]
  simp [Access.writeOf, Purpose.resultOf]

/-- The job `h` ends at its failed stations: a payload read or data write of it failed, its DONE write not issued. -/
abbrev HeldJob.ends (h : HeldJob) : Prop := h.memFail ≠ 0 ∧ h.doneIssued = false

/-- `h` with MEMORY at its failed stations, its results not formed. -/
def HeldJob.memoryEnded (h : HeldJob) : HeldJob :=
  { h with
    results := Vector.ofFn fun n => if inMask h.memFail n then some (Res.ended .memory) else h.resultAt n
    formed := none, memFail := 0 }

/-- `h` with its results formed at the time base count `tb`. -/
def HeldJob.formedAt (h : HeldJob) (tb : Tick) : HeldJob :=
  { h with formed := some (resultBytes h.results h.overall tb) }

/-- `h` after it has ended, where it ends, at its failed stations. -/
def HeldJob.endedAt (h : HeldJob) (tb : Tick) : HeldJob :=
  if ¬ h.ends then h
  else if h.memoryEnded.complete then h.memoryEnded.formedAt tb
  else h.memoryEnded

/-- The result and DONE writes that job `h` presents. -/
def HeldJob.presented (h : HeldJob) : List Access :=
  match h.formed with
  | some bytes => if h.taken = .waiting then [] else h.backWrites bytes
  | none => []

theorem withoutResults_presented (q : List Access) (h : HeldJob) :
    withoutResults (q ++ h.presented) h.jid = withoutResults q h.jid := by
  unfold HeldJob.presented
  split
  · split
    · rw [List.append_nil]
    · exact withoutResults_backWrites ..
  · rw [List.append_nil]

/-- The result and DONE writes of a held job presented. -/
theorem State.presentResult_presented {s : State} {j : Nat} {h : HeldJob} (hfind : s.heldJob j = some h) :
    s.presentResult j = { s with hmp := { s.hmp with jobQ := s.hmp.jobQ ++ h.presented } } := by
  unfold State.presentResult HeldJob.presented
  rw [hfind]
  dsimp only
  cases h.formed with
  | none => simp
  | some bytes =>
    by_cases ht : h.taken = .waiting
    · simp [ht]
    · simp [ht, State.presentJob, HeldJob.backWrites]

theorem HeldJob.presented_eq (h : HeldJob) {taken : TakenState} (ht : h.taken = taken) :
    ({ h with writeFail := false } : HeldJob).presented = match h.formed with
      | some bytes => if taken = .waiting then [] else ({ h with writeFail := false } : HeldJob).backWrites bytes
      | none => [] := by
  subst ht
  unfold HeldJob.presented
  cases h.formed <;> rfl

theorem HeldJob.endedAt_jid (h : HeldJob) (tb : Tick) : (h.endedAt tb).jid = h.jid := by
  unfold HeldJob.endedAt
  split_ifs <;> rfl

theorem HeldJob.endedAt_marks (h : HeldJob) (tb : Tick) : (h.endedAt tb).takenFail = h.takenFail
    ∧ (h.endedAt tb).writeFail = h.writeFail ∧ (h.endedAt tb).slot = h.slot ∧ (h.endedAt tb).taken = h.taken := by
  unfold HeldJob.endedAt
  split_ifs <;> exact ⟨rfl, rfl, rfl, rfl⟩

section
variable {s : State} {h : HeldJob} (hn : (s.held.map HeldJob.jid).Nodup) (hm : h ∈ s.held)
include hn hm

/-- What the end at its failed stations leaves of the held jobs and the waiting JOB accesses. -/
theorem State.endMemory_held : (s.endMemory h).held = replaced s.held h.jid (h.endedAt s.tb)
    ∧ (s.endMemory h).hmp.jobQ = if h.ends then withoutResults s.hmp.jobQ h.jid ++ (h.endedAt s.tb).presented
        else s.hmp.jobQ := by
  by_cases hends : h.ends
  · generalize hw : (maskStations h.memFail).foldl (fun s n => s.modStation n (popHead h.jid)) (s.withdraw h.jid) = w
    have hframe : w = { s.withdraw h.jid with stations := w.stations } := by
      rw [← hw]
      exact foldStations_frame (fun _ => popHead h.jid) (maskStations h.memFail) (s.withdraw h.jid)
    have hheld : w.held = s.held := by rw [hframe]; rfl
    have hjobQ : w.hmp.jobQ = withoutResults s.hmp.jobQ h.jid := by rw [hframe]; rfl
    have htb : w.tb = s.tb := by rw [hframe]; rfl
    have hnw : (w.held.map HeldJob.jid).Nodup := hheld ▸ hn
    have hmw : h ∈ w.held := hheld ▸ hm
    have hdoes : s.endMemory h
        = ({ w with held := replaced w.held h.jid h.memoryEnded } : State).finishJob h.jid := by
      have hno : ¬ (h.memFail = 0 ∨ h.doneIssued = true) := by
        rintro (h0 | h0)
        · exact hends.1 h0
        · exact Bool.false_ne_true (hends.2.symm.trans h0)
      unfold State.endMemory
      rw [if_neg hno, hw]
      refine congrArg (State.finishJob · h.jid) ((State.modHeld_replaced hnw hmw _).trans ?_)
      rfl
    by_cases hc : h.memoryEnded.complete = true
    · have hended : h.endedAt s.tb = h.memoryEnded.formedAt s.tb :=
        (if_neg (not_not_intro hends)).trans (if_pos hc)
      rw [hdoes, State.finishJob_formed hnw hmw (h' := h.memoryEnded) rfl hc rfl, if_pos hends, hended, hheld, hjobQ, htb]
      exact ⟨rfl, rfl⟩
    · have hended : h.endedAt s.tb = h.memoryEnded := (if_neg (not_not_intro hends)).trans (if_neg hc)
      rw [hdoes, State.finishJob_idle hnw hmw (h' := h.memoryEnded) rfl (.inl (by simpa using hc)), if_pos hends, hended,
        hheld, hjobQ]
      exact ⟨rfl, (List.append_nil _).symm⟩
  · have hended : h.endedAt s.tb = h := if_pos hends
    have hidle : s.endMemory h = s := by
      unfold State.endMemory
      refine if_pos ?_
      by_contra hno
      rw [not_or] at hno
      exact hends ⟨hno.1, by simpa using hno.2⟩
    rw [hidle, hended, if_neg hends]
    refine ⟨?_, rfl⟩
    obtain ⟨l1, l2, hsplit, h1, h2⟩ := held_split hn hm
    rw [hsplit, replaced_split h1 h2]

/-- A failed TAKEN write is made again (R170). -/
theorem State.retryWrites_taken (ht : h.takenFail = true) :
    (s.retryWrites h).held
        = replaced s.held h.jid { h with taken := .waiting, takenFail := false, writeFail := false }
      ∧ (s.retryWrites h).hmp.jobQ = withoutResults s.hmp.jobQ h.jid
      ∧ Access.writeOf .sweep none h.slot [2] (.taken h.jid) ∈ (s.retryWrites h).hmp.sweepQ := by
  unfold State.retryWrites
  rw [if_pos ht]
  refine ⟨?_, rfl, List.mem_append_right _ (List.mem_singleton_self _)⟩
  exact congrArg State.held (State.modHeld_replaced (s := s.withdraw h.jid) hn hm _)

/-- Failed result or DONE writes are made again, result first (R170). -/
theorem State.retryWrites_result (ht : h.takenFail = false) (hw : h.writeFail = true) :
    (s.retryWrites h).held = replaced s.held h.jid { h with writeFail := false }
      ∧ (s.retryWrites h).hmp.jobQ
        = withoutResults s.hmp.jobQ h.jid ++ ({ h with writeFail := false } : HeldJob).presented := by
  have hdoes : s.retryWrites h = ({ s.withdraw h.jid with
      held := replaced s.held h.jid { h with writeFail := false } } : State).presentResult h.jid := by
    unfold State.retryWrites
    rw [if_neg (by simp [ht]), if_pos hw]
    exact congrArg (State.presentResult · h.jid) (State.modHeld_replaced (s := s.withdraw h.jid) hn hm _)
  have hfind : ({ s.withdraw h.jid with
      held := replaced s.held h.jid { h with writeFail := false } } : State).heldJob h.jid
      = some { h with writeFail := false } :=
    State.heldJob_mem (h := { h with writeFail := false })
      (replaced_nodup (h := h) (h' := { h with writeFail := false }) hn rfl) (mem_replaced hm _)
  rw [hdoes, State.presentResult_presented hfind]
  exact ⟨rfl, rfl⟩

/-- With one marked job, dealing with the marks deals with it. -/
theorem State.dealMarks_single (hu : ∀ x ∈ s.held, x.jid ≠ h.jid → x.unmarked) :
    s.dealMarks = (s.endMemory h).retryWrites (h.endedAt s.tb) := by
  obtain ⟨l1, l2, hsplit, h1, h2⟩ := held_split hn hm
  have hu1 : ∀ x ∈ l1, x.unmarked := fun x hx => hu x (hsplit ▸ List.mem_append_left _ hx) (h1 x hx)
  have hu2 : ∀ x ∈ l2, x.unmarked := fun x hx =>
    hu x (hsplit ▸ List.mem_append_right _ (List.mem_cons_of_mem _ hx)) (h2 x hx)
  obtain ⟨hheld, -⟩ := State.endMemory_held hn hm
  have hends : s.held.foldl State.endMemory s = s.endMemory h := by
    rw [hsplit]
    exact foldl_single (fun x hx u => State.endMemory_unmarked (hu1 x hx) u)
      (fun x hx u => State.endMemory_unmarked (hu2 x hx) u) s
  unfold State.dealMarks
  dsimp only
  rw [hends]
  conv_lhs => rw [hheld, hsplit, replaced_split h1 h2]
  exact foldl_single (fun x hx u => State.retryWrites_unmarked (hu1 x hx) u)
    (fun x hx u => State.retryWrites_unmarked (hu2 x hx) u) _

/-- One marked job is dealt with (R170). -/
theorem State.dealMarks_dealtWith (hu : ∀ x ∈ s.held, x.jid ≠ h.jid → x.unmarked) : s.dealtWith s.dealMarks h := by
  obtain ⟨hheld, hjobQ⟩ := State.endMemory_held hn hm
  obtain ⟨hmtaken, hmwrite, hmslot, hmstate⟩ := h.endedAt_marks s.tb
  have hjid := h.endedAt_jid s.tb
  have hnodup : ((s.endMemory h).held.map HeldJob.jid).Nodup := by
    rw [hheld]
    exact replaced_nodup hn hjid
  have hmem : h.endedAt s.tb ∈ (s.endMemory h).held := by
    rw [hheld]
    exact mem_replaced hm _
  have hagain : ∀ h' : HeldJob, replaced (s.endMemory h).held (h.endedAt s.tb).jid h' = replaced s.held h.jid h' := by
    intro h'
    rw [hheld]
    exact replaced_replaced s.held hjid h'
  have hothers : withoutResults (s.endMemory h).hmp.jobQ (h.endedAt s.tb).jid = withoutResults s.hmp.jobQ h.jid := by
    rw [hjobQ]
    split_ifs
    · rw [withoutResults_presented, hjid, withoutResults_twice]
    · rw [hjid]
  rw [State.dealMarks_single hn hm hu]
  refine ⟨fun n => ?_, fun ht hw => ?_, fun ht => ?_⟩
  · have hstation : ((s.endMemory h).retryWrites (h.endedAt s.tb)).station n = (s.endMemory h).station n :=
      State.station_congr (State.retryWrites_stations _ _) n
    rw [hstation, State.endMemory_station]
    by_cases hhere : h.ends ∧ inMask h.memFail n = true
    · rw [if_pos hhere]
      unfold popHead
      by_cases hhead : (s.station n).headJid = some h.jid
      · rw [if_pos hhead, if_pos ⟨hhere.1, hhere.2, hhead⟩]
        exact ⟨rfl, rfl⟩
      · rw [if_neg hhead, if_neg fun hx => hhead hx.2.2]
        exact ⟨rfl, rfl⟩
    · rw [if_neg hhere, if_neg fun hx => hhere ⟨hx.1, hx.2.1⟩]
      exact ⟨rfl, rfl⟩
  · by_cases hwrite : h.writeFail = true
    · obtain ⟨hheld', hjobQ'⟩ := State.retryWrites_result hnodup hmem (hmtaken.trans ht) (hmwrite.trans hwrite)
      rw [hothers] at hjobQ'
      refine ⟨hheld'.trans (hagain _), hjobQ'.trans
        (congrArg (withoutResults s.hmp.jobQ h.jid ++ ·) ?_)⟩
      exact HeldJob.presented_eq (h.endedAt s.tb) hmstate
    · have hends : h.ends := hw.resolve_right hwrite
      have hidle : (s.endMemory h).retryWrites (h.endedAt s.tb) = s.endMemory h := by
        unfold State.retryWrites
        rw [if_neg (by rw [hmtaken, ht]; decide), if_neg (by rw [hmwrite]; exact hwrite)]
      have hsame : ({ h.endedAt s.tb with writeFail := false } : HeldJob) = h.endedAt s.tb := by
        have hf : (h.endedAt s.tb).writeFail = false := hmwrite.trans (by simpa using hwrite)
        rw [← hf]
      rw [hidle]
      rw [if_pos hends] at hjobQ
      refine ⟨hheld.trans (congrArg (replaced s.held h.jid) hsame.symm), hjobQ.trans
        (congrArg (withoutResults s.hmp.jobQ h.jid ++ ·) ?_)⟩
      exact (congrArg HeldJob.presented hsame.symm).trans (HeldJob.presented_eq (h.endedAt s.tb) hmstate)
  · obtain ⟨hheld', hjobQ', hq⟩ := State.retryWrites_taken hnodup hmem (hmtaken.trans ht)
    rw [hothers] at hjobQ'
    rw [hmslot, hjid] at hq
    exact ⟨hheld'.trans (hagain _), hjobQ', hq⟩

end

end Sys2Proof.Machine
end

section
/-! The return to RUNNING with the marked jobs dealt with (R155, R168, R170, R184). -/

namespace Sys2Proof.Machine

section
variable {s t w : State} {a : Area} {h : HeldJob}

/-! ## RUNNING begins -/

/-- With no drain under way QUIESCE's check ends none. -/
theorem State.quiesceAll_idle (hq : ∀ n, (s.station n).head ≠ .quiesceDrain) : s.quiesceAll = s := by
  have hcheck : ∀ n, s.quiesceCheck n = s := by
    intro n
    unfold State.quiesceCheck
    refine if_neg ?_
    simp [Station.drained, hq n]
  unfold State.quiesceAll State.eachStation
  induction allStations with
  | nil => rfl
  | cons n ns ih =>
    rw [List.foldl_cons, hcheck n]
    exact ih

/-- A head that is no QUIESCE in its drain is none after the marks are dealt with. -/
theorem State.dealMarks_head (hq : ∀ n, (s.station n).head ≠ .quiesceDrain) (n : StationNo) :
    (s.dealMarks.station n).head ≠ .quiesceDrain := by
  obtain ⟨q, x, hx, hhead⟩ := s.dealMarks_headOnly n
  rw [hx]
  rcases hhead with rfl | rfl
  · exact hq n
  · nofun

/-- What a station keeps while the marks are dealt with. -/
theorem State.dealMarks_kept (s : State) (n : StationNo) : (s.dealMarks.station n).pg = (s.station n).pg
    ∧ (s.dealMarks.station n).pageQ = (s.station n).pageQ ∧ (s.dealMarks.station n).cap = (s.station n).cap := by
  obtain ⟨q, x, hx, -⟩ := s.dealMarks_headOnly n
  rw [hx]
  exact ⟨rfl, rfl, rfl⟩

theorem State.sweeping_station (x : State) (a : Area) (first : Bool) (n : StationNo) : (x.sweeping a first).station n
    = { x.station n with pg := { (x.station n).pg with starved := false } } := by
  simp [State.sweeping, State.station]

/-- The end of a resumption, in one piece (R170). -/
theorem State.finishResume_eq (ha : s.area = some a) (hidle : s.sweep.phase = .idle)
    (hq : ∀ n, (s.station n).head ≠ .quiesceDrain) : s.finishResume
      = ({ s.dealMarks with runState := .running, resuming := false } : State).sweeping a false := by
  obtain ⟨harea, hsweep, -⟩ := (State.MarkWork.dealMarks s).kept
  have hsweeps := State.sweepsAgain (s := { s.dealMarks with runState := .running, resuming := false }) (a := a)
    (harea.trans ha) (by show s.dealMarks.sweep.phase = _; rw [hsweep]; exact hidle) false
  refine (congrArg State.quiesceAll hsweeps).trans (State.quiesceAll_idle fun n => ?_)
  rw [State.sweeping_station]
  exact State.dealMarks_head hq n

/-! ## Dealing with a job, seen from other states -/

/-- The dealing with a job speaks of the held jobs, the waiting JOB accesses, the queues and heads, and the count. -/
theorem State.dealtWith_congr (hd : w.dealtWith t h) (hheld : w.held = s.held) (hjobQ : w.hmp.jobQ = s.hmp.jobQ)
    (htb : w.tb = s.tb) (hqueue : ∀ n, (w.station n).queue = (s.station n).queue)
    (hhead : ∀ n, (w.station n).head = (s.station n).head) : s.dealtWith t h := by
  have hjid : ∀ n, (w.station n).headJid = (s.station n).headJid := fun n =>
    congrArg (fun q : List QJob => q.head?.map QJob.jid) (hqueue n)
  unfold State.dealtWith at hd ⊢
  rw [hheld, hjobQ, htb] at hd
  simp only [hqueue, hhead, hjid] at hd
  exact hd

/-- A sweep begun leaves the job dealt with. -/
theorem State.dealtWith_sweeping (hd : s.dealtWith t h) (hheld : w.held = t.held)
    (hjobQ : w.hmp.jobQ = t.hmp.jobQ) (hsweepQ : ∀ x ∈ t.hmp.sweepQ, x ∈ w.hmp.sweepQ)
    (hqueue : ∀ n, (w.station n).queue = (t.station n).queue) (hhead : ∀ n, (w.station n).head = (t.station n).head) :
    s.dealtWith w h := by
  obtain ⟨hstations, hresults, htaken⟩ := hd
  refine ⟨fun n => ?_, fun ht hw => ?_, fun ht => ?_⟩
  · rw [hqueue, hhead]
    exact hstations n
  · obtain ⟨h1, h2⟩ := hresults ht hw
    exact ⟨hheld.trans h1, hjobQ.trans h2⟩
  · obtain ⟨h1, h2, h3⟩ := htaken ht
    exact ⟨hheld.trans h1, hjobQ.trans h2, hsweepQ _ h3⟩

/-- The end of a resumption with one marked job deals with it. -/
theorem State.finishResume_dealtWith (ha : s.area = some a) (hidle : s.sweep.phase = .idle)
    (hq : ∀ n, (s.station n).head ≠ .quiesceDrain) (hn : (s.held.map HeldJob.jid).Nodup) (hm : h ∈ s.held)
    (hu : ∀ x ∈ s.held, x.jid ≠ h.jid → x.unmarked) : s.dealtWith s.finishResume h := by
  rw [State.finishResume_eq ha hidle hq]
  refine State.dealtWith_sweeping (State.dealMarks_dealtWith hn hm hu) rfl rfl
    (fun x hx => List.mem_append_left _ hx) (fun n => ?_) fun n => ?_
  · rw [State.sweeping_station]
    rfl
  · rw [State.sweeping_station]
    rfl

/-- What the end of a resumption leaves of the device. -/
theorem State.finishResume_runs (ha : s.area = some a) (hidle : s.sweep.phase = .idle)
    (hq : ∀ n, (s.station n).head ≠ .quiesceDrain) : s.finishResume.runState = .running
    ∧ s.finishResume.resuming = false ∧ s.finishResume.run = s.run ∧ s.finishResume.area = some a
    ∧ s.finishResume.attention = s.attention
    ∧ s.finishResume.sweep = ⟨.readingState 0, false, s.sweep.pending, 0, some (s.elapsed + a.sweepUs * 100)⟩
    ∧ ∀ n, (s.finishResume.station n).pg = { (s.station n).pg with starved := false }
      ∧ (s.finishResume.station n).pageQ = (s.station n).pageQ ∧ (s.finishResume.station n).cap = (s.station n).cap := by
  obtain ⟨harea, hsweep, helapsed, -, -, -, -, -, -, -, hrun, hatt, -⟩ := (State.MarkWork.dealMarks s).kept
  rw [State.finishResume_eq ha hidle hq]
  refine ⟨rfl, rfl, hrun, harea.trans ha, hatt, ?_, fun n => ?_⟩
  · show (⟨.readingState 0, false, s.dealMarks.sweep.pending, 0, some (s.dealMarks.elapsed + a.sweepUs * 100)⟩ : Sweep) = _
    rw [hsweep, helapsed]
  · obtain ⟨hpg, hpageQ, hcap⟩ := s.dealMarks_kept n
    rw [State.sweeping_station]
    exact ⟨congrArg (fun g => { g with starved := false }) hpg, hpageQ, hcap⟩

/-- With no job marked the end of a resumption leaves the held jobs and the waiting JOB accesses, and presents the read
of slot 0. -/
theorem State.finishResume_unmarked (ha : s.area = some a) (hidle : s.sweep.phase = .idle)
    (hq : ∀ n, (s.station n).head ≠ .quiesceDrain) (hu : ∀ x ∈ s.held, x.unmarked) : s.finishResume.held = s.held
    ∧ s.finishResume.hmp.jobQ = s.hmp.jobQ
    ∧ s.finishResume.hmp.sweepQ = s.hmp.sweepQ ++ [Access.readOf .sweep none a.jobBoard 1 (.slotState 0)] := by
  rw [State.finishResume_eq ha hidle hq, State.dealMarks_unmarked hu]
  exact ⟨rfl, rfl, rfl⟩

/-! ## RESUME -/

/-- A station of a resumption, its seals presented (R170). -/
def Station.sealedForResume (t : Station) (n : StationNo) : Station := sealDetached n (sealStation n .fault t)

/-- The device of a resumption with its seal writes presented. -/
def State.sealedForResume (s : State) : State :=
  { s with stations := Vector.ofFn fun n => (s.station n).sealedForResume n, resuming := true }

theorem State.sealedForResume_station (s : State) (n : StationNo) :
    s.sealedForResume.station n = (s.station n).sealedForResume n := by
  simp [State.sealedForResume, State.station]

theorem State.takeResume_seals (hf : s.startFault = false) (hr : s.resuming = false) : s.takeResume
    = if s.sealedForResume.sealsWait then s.sealedForResume else s.sealedForResume.finishResume := by
  have heach : (s.eachStation fun s n => (s.beginSeal n .fault).modStation n (sealDetached n))
      = { s with stations := Vector.ofFn fun n => (s.station n).sealedForResume n } := by
    have hfun : (fun (s : State) (n : StationNo) => (s.beginSeal n .fault).modStation n (sealDetached n))
        = fun s n => s.modStation n fun t => t.sealedForResume n := by
      funext s n
      unfold State.beginSeal State.modStation
      rw [State.setStation_twice, State.setStation_station]
      rfl
    rw [hfun]
    exact eachStation_eq (fun n t => t.sealedForResume n) s
  unfold State.takeResume
  rw [if_neg (by simp [hf]), if_neg (by simp [hr]), heach]
  rfl

theorem Station.sealedForResume_pageQ (t : Station) (n : StationNo) : (t.sealedForResume n).pageQ = t.pageQ
    ++ (t.pg.page.elim [] fun p => sealWrites p n .fault t.prof.timeShift false)
    ++ (t.pg.detached.elim [] fun p => sealWrites p n .abandon p.shift true) := by
  have hsealed : (sealStation n .fault t).pageQ
      = t.pageQ ++ (t.pg.page.elim [] fun p => sealWrites p n .fault t.prof.timeShift false)
      ∧ (sealStation n .fault t).pg.detached = t.pg.detached := by
    cases hp : t.pg.page with
    | none =>
      unfold sealStation
      rw [hp]
      exact ⟨(List.append_nil _).symm, rfl⟩
    | some p =>
      rw [sealStation_page hp, if_neg nofun, List.append_nil]
      exact ⟨rfl, rfl⟩
  obtain ⟨hq, hd⟩ := hsealed
  unfold Station.sealedForResume sealDetached
  rw [hd]
  cases t.pg.detached with
  | none => exact hq.trans (List.append_nil _).symm
  | some p => exact congrArg (· ++ sealWrites p n .abandon p.shift true) hq

/-- With no page to seal a resumption presents nothing. -/
theorem State.sealedForResume_none (hp : ∀ n, (s.station n).pg.page = none ∧ (s.station n).pg.detached = none) :
    s.sealedForResume = { s with resuming := true } := by
  have hstation : ∀ n, (s.station n).sealedForResume n = s.station n := by
    intro n
    obtain ⟨hpage, hdetached⟩ := hp n
    unfold Station.sealedForResume
    have hseal : sealStation n .fault (s.station n) = s.station n := by
      unfold sealStation
      rw [hpage]
    rw [hseal]
    unfold sealDetached
    rw [hdetached]
  have hall : (Vector.ofFn fun n => (s.station n).sealedForResume n) = s.stations :=
    State.stations_ext fun n => (Vector.getElem_ofFn ..).trans (hstation n)
  unfold State.sealedForResume
  rw [hall]

/-- RESUME with RUN 1 in FAULTED. -/
theorem exec_resume {v : Word32} (h0 : regBit v 0 = true) (h1 : regBit v 1 = true) (h2 : regBit v 2 = false)
    (hrun : s.run = true) (hst : s.runState = .faulted) :
    exec (.resume v) s = .next ({ s with attMask := maskOf v } : State).takeResume := by
  refine congrArg Host.Outcome.next ((State.takeControl_of_noSoftReset s.lines h2).trans ?_)
  unfold State.writeControl
  dsimp only
  rw [if_pos (h0.trans hrun.symm)]
  exact if_pos ⟨h1, hst, hrun⟩

end

end Sys2Proof.Machine
end

section
/-! RESUME and what ends a resumption (R155, R156, R170, R184). -/

namespace Sys2Proof.Machine

section
variable {s : State} {n : StationNo} {a : Area} {h : HeldJob}

theorem State.sealsWait_iff : s.sealsWait = true ↔ ∃ n, ∃ x ∈ (s.station n).pageQ, x.purpose.isSeal = true := by
  simp [State.sealsWait, mem_allStations]

/-- A page to seal, or a seal write that waits, keeps a resumption going. -/
theorem State.sealedForResume_waits (h : ∃ n, (s.station n).pg.page ≠ none ∨ (s.station n).pg.detached ≠ none
    ∨ ∃ x ∈ (s.station n).pageQ, x.purpose.isSeal = true) : s.sealedForResume.sealsWait = true := by
  obtain ⟨n, hn⟩ := h
  refine State.sealsWait_iff.mpr ⟨n, ?_⟩
  rw [State.sealedForResume_station, Station.sealedForResume_pageQ]
  rcases hn with hp | hd | ⟨x, hx, hseal⟩
  · obtain ⟨p, hp⟩ := Option.ne_none_iff_exists'.mp hp
    rw [hp]
    exact ⟨_, List.mem_append_left _ (List.mem_append_right _ (List.mem_cons_self ..)), rfl⟩
  · obtain ⟨p, hp⟩ := Option.ne_none_iff_exists'.mp hd
    rw [hp]
    exact ⟨_, List.mem_append_right _ (List.mem_cons_self ..), rfl⟩
  · exact ⟨x, List.mem_append_left _ (List.mem_append_left _ hx), hseal⟩

/-- RESUME with no page to seal and no write waiting ends the resumption at once. -/
theorem exec_resume_ends {v : Word32} (h0 : regBit v 0 = true) (h1 : regBit v 1 = true) (h2 : regBit v 2 = false)
    (hrun : s.run = true) (hst : s.runState = .faulted) (hf : s.startFault = false) (hr : s.resuming = false)
    (hp : ∀ n, (s.station n).pg.page = none ∧ (s.station n).pg.detached = none ∧ (s.station n).pageQ = []) :
    exec (.resume v) s = .next ({ s with attMask := maskOf v, resuming := true } : State).finishResume := by
  refine (exec_resume h0 h1 h2 hrun hst).trans (congrArg Host.Outcome.next ?_)
  have hsealed : ({ s with attMask := maskOf v } : State).sealedForResume
      = { s with attMask := maskOf v, resuming := true } :=
    State.sealedForResume_none (s := { s with attMask := maskOf v }) fun n => ⟨(hp n).1, (hp n).2.1⟩
  rw [State.takeResume_seals (s := { s with attMask := maskOf v }) hf hr, hsealed]
  refine if_neg fun hwait => ?_
  obtain ⟨n, x, hx, -⟩ := State.sealsWait_iff.mp hwait
  have hempty : (s.station n).pageQ = [] := (hp n).2.2
  have hx' : x ∈ (s.station n).pageQ := hx
  rw [hempty] at hx'
  cases hx'

/-! ## The last seal of a resumption (R156, R170) -/

/-- The device after the issue of a FULL write in a resumption, before what it settles. -/
def State.fullIssued (s : State) (n : StationNo) (detached : Bool) : State :=
  (s.modPage n fun g => if detached then { g with detached := none }
    else { g with page := none, sealing := none, inHand := none, mark := g.mark.filter fun m => m.count != 0 }).setAttn
      .pageSealed

theorem State.pageIssued_kept (s : State) (n : StationNo) (x : Access) : (s.pageIssued n x).attention = s.attention
    ∧ (s.pageIssued n x).runState = s.runState ∧ (s.pageIssued n x).resuming = s.resuming
    ∧ (s.pageIssued n x).halting = s.halting ∧ (s.pageIssued n x).area = s.area ∧ (s.pageIssued n x).sweep = s.sweep
    ∧ (s.pageIssued n x).held = s.held ∧ (s.pageIssued n x).hmp.jobQ = s.hmp.jobQ ∧ (s.pageIssued n x).tb = s.tb
    ∧ (s.pageIssued n x).elapsed = s.elapsed := ⟨rfl, rfl, rfl, rfl, rfl, rfl, rfl, rfl, rfl, rfl⟩

theorem State.fullIssued_frame (s : State) (n : StationNo) (detached : Bool) :
    (s.fullIssued n detached).attention = s.attention ||| Attn.pageSealed.mask
    ∧ (s.fullIssued n detached).runState = s.runState ∧ (s.fullIssued n detached).resuming = s.resuming
    ∧ (s.fullIssued n detached).halting = s.halting ∧ (s.fullIssued n detached).area = s.area
    ∧ (s.fullIssued n detached).sweep = s.sweep ∧ (s.fullIssued n detached).held = s.held
    ∧ (s.fullIssued n detached).hmp.jobQ = s.hmp.jobQ ∧ (s.fullIssued n detached).tb = s.tb
    ∧ (s.fullIssued n detached).elapsed = s.elapsed := ⟨rfl, rfl, rfl, rfl, rfl, rfl, rfl, rfl, rfl, rfl⟩

theorem State.fullIssued_self (s : State) (n : StationNo) (detached : Bool) : (s.fullIssued n detached).station n
    = { s.station n with
        pg := if detached then { (s.station n).pg with detached := none }
          else { (s.station n).pg with
            page := none, sealing := none, inHand := none, mark := (s.station n).pg.mark.filter fun m => m.count != 0 } } :=
  State.setStation_station ..

theorem State.fullIssued_other (s : State) {n m : StationNo} (detached : Bool) (hm : m ≠ n) :
    (s.fullIssued n detached).station m = s.station m := State.setStation_other s _ hm

theorem State.issueEffect_full (s : State) (n : StationNo) (addr : Word64) (d : List Byte) (detached : Bool)
    (hst : s.runState = .faulted) (hs : detached = false → (s.station n).pg.sealing ≠ some .quiesce) :
    s.issueEffect (Access.writeOf .page (some n) addr d (.sealFull detached)) = s.fullIssued n detached := by
  cases detached with
  | true => rfl
  | false =>
    show s.pageSealed n = _
    unfold State.pageSealed
    rw [if_neg (hs rfl)]
    unfold State.quiesceCheck
    refine if_neg ?_
    have hno : (s.fullIssued n false).draining = false := by
      unfold State.draining
      rw [show (s.fullIssued n false).runState = .faulted from hst]
      rfl
    intro hx
    rw [Bool.and_eq_true] at hx
    exact Bool.false_ne_true (hno.symm.trans hx.1)

theorem State.settleSeals_resuming (hh : s.halting = false) (hr : s.resuming = true) :
    s.settleSeals = if s.sealsWait then s else s.finishResume := by
  unfold State.settleSeals
  rw [if_neg (show ¬ s.halting = true by simp [hh]), if_pos hr]

/-- The station of a FULL write issued in a resumption. -/
def Station.fullIssued (t : Station) (a : Access) (detached : Bool) : Station :=
  { t with
    pageQ := t.pageQ.erase a
    pg := if detached then { t.pg with detached := none }
      else { t.pg with page := none, sealing := none, inHand := none, mark := t.pg.mark.filter fun m => m.count != 0 } }

/-- What the issue of a FULL write in a resumption leaves, before what it settles. -/
theorem State.fullIssued_parts (s : State) (n : StationNo) (addr : Word64) (d : List Byte) (detached : Bool) :
    let full := Access.writeOf .page (some n) addr d (.sealFull detached)
    let w := (s.issuing full).fullIssued n detached
    w.attention = s.attention ||| Attn.pageSealed.mask ∧ w.runState = s.runState ∧ w.resuming = s.resuming
      ∧ w.halting = s.halting ∧ w.area = s.area ∧ w.sweep = s.sweep ∧ w.held = s.held ∧ w.hmp.jobQ = s.hmp.jobQ
      ∧ w.tb = s.tb ∧ w.elapsed = s.elapsed
      ∧ w.station n = (s.station n).fullIssued full detached ∧ ∀ m, m ≠ n → w.station m = s.station m := by
  intro full w
  have hself : (s.issuing full).station n = { s.station n with pageQ := (s.station n).pageQ.erase full } :=
    Vector.getElem_set_self ..
  have hother : ∀ m, m ≠ n → (s.issuing full).station m = s.station m := fun m hm => State.setStation_other s _ hm
  obtain ⟨h1, h2, h3, h4, h5, h6, h7, h8, h9, h10⟩ := (s.issuing full).fullIssued_frame n detached
  obtain ⟨g1, g2, g3, g4, g5, g6, g7, g8, g9, g10⟩ := s.pageIssued_kept n full
  refine ⟨h1.trans (congrArg (· ||| Attn.pageSealed.mask) g1), h2.trans g2, h3.trans g3, h4.trans g4, h5.trans g5,
    h6.trans g6, h7.trans g7, h8.trans g8, h9.trans g9, h10.trans g10, ?_, fun m hm => ?_⟩
  · rw [State.fullIssued_self, hself]
    rfl
  · exact (State.fullIssued_other _ _ hm).trans (hother m hm)

theorem Station.fullIssued_kept (t : Station) (x : Access) (detached : Bool) :
    (t.fullIssued x detached).queue = t.queue ∧ (t.fullIssued x detached).head = t.head := ⟨rfl, rfl⟩

theorem exec_accessGrant_full {addr : Word64} {d : List Byte} {detached : Bool} (hst : s.runState = .faulted)
    (hr : s.resuming = true) (hh : s.halting = false)
    (hs : detached = false → (s.station n).pg.sealing ≠ some .quiesce)
    (hg : s.nextGrant = some (Access.writeOf .page (some n) addr d (.sealFull detached))) :
    let w := (s.issuing (Access.writeOf .page (some n) addr d (.sealFull detached))).fullIssued n detached
    exec .accessGrant s = .next (if w.sealsWait then w else w.finishResume) := by
  intro w
  obtain ⟨-, -, hres, hhalt, -⟩ := s.fullIssued_parts n addr d detached
  have hfaulted : (s.issuing (Access.writeOf .page (some n) addr d (.sealFull detached))).runState = .faulted := hst
  have hstation : (s.issuing (Access.writeOf .page (some n) addr d (.sealFull detached))).station n
      = { s.station n with
          pageQ := (s.station n).pageQ.erase (Access.writeOf .page (some n) addr d (.sealFull detached)) } :=
    Vector.getElem_set_self ..
  have hseal : detached = false →
      ((s.issuing (Access.writeOf .page (some n) addr d (.sealFull detached))).station n).pg.sealing ≠ some .quiesce := by
    rw [hstation]
    exact hs
  refine (exec_accessGrant hg).trans (congrArg Host.Outcome.next ?_)
  rw [State.issueEffect_full _ n addr d detached hfaulted hseal]
  exact State.settleSeals_resuming (hhalt.trans hh) (hres.trans hr)

end

end Sys2Proof.Machine
end

section
/-! RESUME (R155, R156, R170, R184). -/

namespace Sys2Proof.Machine

/-- The issue of a FULL write in a resumption, and what it settles. -/
theorem sealIssued_resumption {s : State} {n : StationNo} {addr : Word64} {d : List Byte} {detached : Bool} {a : Area}
    (hst : s.runState = .faulted) (hr : s.resuming = true) (hh : s.halting = false) (ha : s.area = some a)
    (hidle : s.sweep.phase = .idle) (hq : ∀ m, (s.station m).head ≠ .quiesceDrain)
    (hs : detached = false → (s.station n).pg.sealing ≠ some .quiesce)
    (hg : s.nextGrant = some (Access.writeOf .page (some n) addr d (.sealFull detached))) :
    ∃ t, exec .accessGrant s = .next t ∧ t.attention = s.attention ||| Attn.pageSealed.mask
      ∧ (t.station n).pg.page = (if detached then (s.station n).pg.page else none)
      ∧ (t.station n).pg.detached = (if detached then none else (s.station n).pg.detached)
      ∧ (t.sealsWait = true → t.runState = .faulted ∧ t.resuming = true ∧ t.held = s.held ∧ t.sweep = s.sweep)
      ∧ (t.sealsWait = false → t.runState = .running ∧ t.resuming = false
        ∧ t.sweep = ⟨.readingState 0, false, s.sweep.pending, 0, some (s.elapsed + a.sweepUs * 100)⟩
        ∧ ((∀ h ∈ s.held, h.unmarked) → t.held = s.held ∧ t.hmp.jobQ = s.hmp.jobQ)
        ∧ ∀ h ∈ s.held, s.jobsInv → (∀ x ∈ s.held, x.jid ≠ h.jid → x.unmarked) → s.dealtWith t h) := by
  obtain ⟨hatt, hstate, hres, -, harea, hsweep, hheld, hjobQ, htb, helapsed, hself, hother⟩ :=
    s.fullIssued_parts n addr d detached
  have hexec := exec_accessGrant_full hst hr hh hs hg
  dsimp only at hexec
  generalize (s.issuing (Access.writeOf .page (some n) addr d (.sealFull detached))).fullIssued n detached = w at *
  have hpage : (w.station n).pg.page = (if detached then (s.station n).pg.page else none)
      ∧ (w.station n).pg.detached = (if detached then none else (s.station n).pg.detached) := by
    rw [hself]
    cases detached <;> exact ⟨rfl, rfl⟩
  have hkept : ∀ m, (w.station m).queue = (s.station m).queue ∧ (w.station m).head = (s.station m).head := by
    intro m
    by_cases hm : m = n
    · rw [hm, hself]
      exact Station.fullIssued_kept ..
    · rw [hother m hm]
      exact ⟨rfl, rfl⟩
  have hheads : ∀ m, (w.station m).head ≠ .quiesceDrain := fun m => (hkept m).2 ▸ hq m
  have hwidle : w.sweep.phase = .idle := by
    rw [hsweep]
    exact hidle
  by_cases hwait : w.sealsWait = true
  · rw [if_pos hwait] at hexec
    refine ⟨w, hexec, hatt, hpage.1, hpage.2, fun _ => ⟨hstate.trans hst, hres.trans hr, hheld, hsweep⟩, fun hno => ?_⟩
    exact absurd (hno.symm.trans hwait) nofun
  · rw [if_neg hwait] at hexec
    obtain ⟨hrunning, hdone, -, -, hfatt, hfsweep, hfstation⟩ := State.finishResume_runs (harea.trans ha) hwidle hheads
    refine ⟨_, hexec, hfatt.trans hatt, ?_, ?_, fun hyes => ?_, fun _ => ⟨hrunning, hdone, ?_, fun hu => ?_, fun h hm hi hu => ?_⟩⟩
    · rw [(hfstation n).1]
      exact hpage.1
    · rw [(hfstation n).1]
      exact hpage.2
    · obtain ⟨m, x, hx, hseal⟩ := State.sealsWait_iff.mp hyes
      rw [(hfstation m).2.1] at hx
      exact absurd (State.sealsWait_iff.mpr ⟨m, x, hx, hseal⟩) hwait
    · rw [hfsweep, hsweep, helapsed]
    · obtain ⟨hfheld, hfjobQ, -⟩ := State.finishResume_unmarked (harea.trans ha) hwidle hheads (hheld.symm ▸ hu)
      exact ⟨hfheld.trans hheld, hfjobQ.trans hjobQ⟩
    · obtain ⟨hnodup, -⟩ := hi
      have hdealt := State.finishResume_dealtWith (harea.trans ha) hwidle hheads (hheld.symm ▸ hnodup) (hheld.symm ▸ hm)
        (hheld.symm ▸ hu)
      exact State.dealtWith_congr hdealt hheld hjobQ htb (fun m => (hkept m).1) fun m => (hkept m).2

/-- The issue of the capability write in a start that follows R184 deals with one marked job. -/
theorem capabilityIssued_deals {s : State} {addr : Word64} {d : List Byte} {a : Area} {h : HeldJob}
    (hh : s.halting = false) (hr : s.resuming = false) (hdeal : s.dealAtStart = true) (hidle : s.sweep.phase = .idle)
    (hq : ∀ n, (s.station n).head ≠ .quiesceDrain)
    (hg : s.nextGrant = some (Access.writeOf .sweep none addr d (.capability a))) (hi : s.jobsInv) (hm : h ∈ s.held)
    (hu : ∀ x ∈ s.held, x.jid ≠ h.jid → x.unmarked) :
    ∃ t, exec .accessGrant s = .next t ∧ t.runState = .running ∧ t.dealAtStart = false
      ∧ s.dealtWith t h ∧ t.sweep.phase = .readingState 0 ∧ t.sweep.first = true := by
  obtain ⟨x, hx, hmarks, heq⟩ :=
    State.acceptStart_parts (s := s.issuing (Access.writeOf .sweep none addr d (.capability a))) a hidle
  have hmarks' : x = ((s.issuing (Access.writeOf .sweep none addr d (.capability a))).accepting a).dealMarks :=
    hmarks.trans (if_pos hdeal)
  obtain ⟨-, -, -, hrunning, hhalting, hresuming, -, -, -, -, -, -, hdealt⟩ := hx.kept
  have hheads : ∀ n, (((s.issuing (Access.writeOf .sweep none addr d (.capability a))).accepting a).station n).head
      ≠ .quiesceDrain := hq
  have hnodup := hi.1
  have hdeals : ((s.issuing (Access.writeOf .sweep none addr d (.capability a))).accepting a).dealtWith x h :=
    hmarks' ▸ State.dealMarks_dealtWith
      (s := (s.issuing (Access.writeOf .sweep none addr d (.capability a))).accepting a) hnodup hm hu
  have hxheads : ∀ n, (x.station n).head ≠ .quiesceDrain := hmarks' ▸ State.dealMarks_head hheads
  have hstation : ∀ n, ((x.sweeping a true).station n).queue = (x.station n).queue
      ∧ ((x.sweeping a true).station n).head = (x.station n).head := by
    intro n
    rw [State.sweeping_station]
    exact ⟨rfl, rfl⟩
  have hsettled : exec .accessGrant s = .next (x.sweeping a true) := by
    refine (exec_accessGrant hg).trans (congrArg Host.Outcome.next ?_)
    have hidleAll : (x.sweeping a true).quiesceAll = x.sweeping a true :=
      State.quiesceAll_idle fun n => by
        rw [(hstation n).2]
        exact hxheads n
    change State.settleSeals (State.acceptStart _ a) = _
    rw [heq, hidleAll]
    exact State.settleSeals_none (hhalting.trans hh) (hresuming.trans hr)
  refine ⟨_, hsettled, hrunning, hdealt, ?_, rfl, rfl⟩
  have hswept := State.dealtWith_sweeping hdeals (w := x.sweeping a true) rfl rfl
    (fun y hy => List.mem_append_left _ hy) (fun n => (hstation n).1) fun n => (hstation n).2
  exact State.dealtWith_congr hswept rfl rfl rfl (fun _ => rfl) fun _ => rfl

/-- Settles O11: RESUME, the marked jobs, and the last seal of a resumption. -/
theorem resumeSealsPages : Obligations.ResumeSealsPages := by
  unfold Obligations.ResumeSealsPages
  refine ⟨⟨⟨⟨fun s v h0 h1 h2 hrun hst hf => ?_, fun s v h0 h1 h2 hrun hst hf hr hpages => ?_⟩,
    fun s v a h0 h1 h2 hrun hst hf hr ha hidle hp hu => ?_⟩,
    fun s v a h h0 h1 h2 hrun hst hf hr ha hidle hp hi hm hu => ?_,
    fun s addr d a h _ hh hr hdeal hidle hq hg hi hm hu => capabilityIssued_deals hh hr hdeal hidle hq hg hi hm hu⟩,
    fun s n addr d detached a hst hr hh ha hidle hq hs hg => sealIssued_resumption hst hr hh ha hidle hq hs hg⟩
  · exact (exec_resume h0 h1 h2 hrun hst).trans (congrArg Host.Outcome.next (if_pos hf))
  · refine ⟨_, exec_resume h0 h1 h2 hrun hst, ?_⟩
    rw [State.takeResume_seals (s := { s with attMask := maskOf v }) hf hr,
      if_pos (State.sealedForResume_waits (s := { s with attMask := maskOf v }) hpages)]
    refine ⟨hst, rfl, rfl, fun n => ?_⟩
    rw [State.sealedForResume_station]
    exact Station.sealedForResume_pageQ ..
  · refine ⟨_, exec_resume_ends h0 h1 h2 hrun hst hf hr fun n => ⟨(hp n).1, (hp n).2.1, (hp n).2.2.1⟩, ?_⟩
    have hheads : ∀ n, (s.station n).head ≠ .quiesceDrain := fun n => (hp n).2.2.2
    obtain ⟨hrunning, hdone, hkeeprun, harea, -, hsweep, hstation⟩ := State.finishResume_runs
      (s := { s with attMask := maskOf v, resuming := true }) ha hidle hheads
    obtain ⟨hheld, hjobQ, hsweepQ⟩ := State.finishResume_unmarked
      (s := { s with attMask := maskOf v, resuming := true }) ha hidle hheads hu
    refine ⟨hrunning, hdone, hkeeprun.trans hrun, hheld, harea.trans ha.symm, hsweep, hsweepQ, hjobQ, fun n => ?_⟩
    obtain ⟨hpg, -, hcap⟩ := hstation n
    exact ⟨congrArg PageState.starved hpg, hcap⟩
  · refine ⟨_, exec_resume_ends h0 h1 h2 hrun hst hf hr fun n => ⟨(hp n).1, (hp n).2.1, (hp n).2.2.1⟩, ?_⟩
    have hheads : ∀ n, (s.station n).head ≠ .quiesceDrain := fun n => (hp n).2.2.2
    obtain ⟨hnodup, -⟩ := hi
    obtain ⟨hrunning, hdone, -, -, hatt, hsweep, -⟩ := State.finishResume_runs
      (s := { s with attMask := maskOf v, resuming := true }) ha hidle hheads
    have hdealt := State.finishResume_dealtWith (s := { s with attMask := maskOf v, resuming := true }) ha hidle hheads
      hnodup hm hu
    refine ⟨hrunning, hdone, ?_, congrArg Sweep.phase hsweep, congrArg Sweep.first hsweep, hatt⟩
    exact State.dealtWith_congr hdealt rfl rfl rfl (fun _ => rfl) fun _ => rfl

end Sys2Proof.Machine
end
